-- ==== Sys2Proof/Word.lean ====
section
/-!
DEFINITION. The words of the hardware: 32-bit register and descriptor words, bytes, and runs of bytes.
-/

namespace Sys2Proof

/-- A register word or a descriptor word (R8, R96). -/
abbrev Word := BitVec 32

/-- A byte of Hold, of a frame or of a packet. -/
abbrev Byte := BitVec 8

/-- A run of bytes, the first at the lowest address or first on the wire. -/
abbrev Bytes := List Byte

end Sys2Proof
end

