-- ==== Sys2Proof/Machine/Types/Basic.lean ====
section
/-!
DEFINITION. The things several units share: units and pages, operation status codes, errors of Hold, Spill
items, log entries, and what the device sends to the outside.
-/

namespace Sys2Proof.Machine

/-- The variants of R1. -/
inductive Variant where
  | spt8832 | spt8816 | spt8808a
  deriving DecidableEq, Repr

/-- The kinds of pages of R584 and R585, and the VF windows of R588. -/
inductive PageKind where
  | dev | gwy | tkp | ldg | wfg | btc | qay | bwr | bnd | fry | tly | abx | apu | ess
  | pier | rkn | vde | decCtl | svy | ltr | encCtl | lcp | cmpCtl
  | hld | mrg | slw | tgg | lfi | pwr | vf
  deriving DecidableEq, Repr

/-- A page: its kind and its index (the Quay, the pier, the engine's index under R74, or the VF). -/
structure Page where
  kind : PageKind
  idx : Nat := 0
  deriving DecidableEq, Repr

/-- A unit the Slipway numbers (R555): a kind 0x0–0xF and an index under R74, spares above the units in service. -/
structure UnitId where
  kind : Nat
  idx : Nat
  deriving DecidableEq, Repr

/-- The operation status codes of R19. -/
inductive Status where
  | done | doneConcealed | doneTruncated | doneStale
  | refusedBudget | refusedNoUnit | refusedParam | refusedTenant
  | failedUnitFault | failedMemoryUe | failedLength | failedAuth | failedSyntax
  | cancelled
  deriving DecidableEq, Repr

/-- The error responses of Hold (R515, R523, R524, R526, R530). -/
inductive HoldErr where
  | ue | poison | unmapped | notReady | ctrlFault | rmwFail
  deriving DecidableEq, Repr

/-- A Spill item (R120): its eight words, the bytes its address names while they lie in the packet buffer, whether it lies in its
queue's open share (R124), and the entry of the packet buffer that it references, with the length of the frame there (R225). -/
structure Item where
  words : List Word
  data : Bytes := []
  opn : Bool := true
  entry : Option (Nat × Nat) := none
  deriving DecidableEq, Repr

/-- A log entry on its way to the rings (R597). -/
structure LogEntry where
  tide : Nat
  phase : Nat
  page : Page
  code : Nat
  refKind : Nat := 0
  ref : Nat := 0
  tenant : Nat := 0
  detail : Bytes := []
  deriving DecidableEq, Repr

/-- A PCIe function: the PF, or VF v. -/
inductive Fn where
  | pf
  | vf (v : Nat)
  deriving DecidableEq, Repr

/-- What the device drives to the outside: a frame on a logical port with its FCS, a frame whose FCS the peer finds bad
(its bytes without the FCS), an MSI-X message with its
address and data, a write to host memory, a PCIe completion with its data and its EP bit, what Hold
answers to a single request, the 54-bit frame on TWIN_HB_OUT, a level on PPS_OUT, the frequency TCLK_OUT has from here on (0 is
off) and its rising edge at a Tide boundary, the samples of an APU transmit
channel as its slot or subframe carries them, the channel status and user bits of an AES3 transmitter. -/
inductive Out where
  | frame (lport : Nat) (bytes : Bytes)
  | badFrame (lport : Nat) (bytes : Bytes)
  | msix (fn : Fn) (vector addr data : Nat)
  | hostWrite (addr : Nat) (bytes : Bytes)
  | completion (bytes : Bytes) (poisoned : Bool)
  | holdResponse (err : Option HoldErr) (bytes : Bytes)
  | hbWire (frame : Nat)
  | ppsOut (level : Bool)
  | tclkOut (hz : Nat)
  | tclkRise
  | wclkOut (hz : Nat)
  | amclkOut (hz : Nat)
  | audio (channel : Nat) (samples : List Nat)
  | aesBlock (transmitter : Nat) (status : List Word) (validity : Nat)
  deriving DecidableEq, Repr

end Sys2Proof.Machine
end

