-- ==== Sys2Proof/Machine/Types/Reg.lean ====
section
/-!
DEFINITION. The types of the register model: access types (R11), register fields, the register file, and the
values that staged (ST) fields hold pending (R14).
-/

namespace Sys2Proof.Machine

/-- The access types of R11. `ctr` is a read-only counter that a CNT_CLEAR zeroes and `ctw` a counter cleared
by a write with bit 0 set (WFG_STATUS_COUNT, BTC_HIT, BTC_MISS). -/
inductive Acc where
  | rw | ro | wo | w1c | st | ctr | ctw
  deriving DecidableEq, Repr

/-- One field of a register table: the address of its first copy, the (count, stride) of each array that holds
it, outermost first, its bits, its access type, and its reset value. -/
structure RegField where
  addr : Nat
  dims : List (Nat × Nat)
  hi : Nat
  lo : Nat
  acc : Acc
  reset : Nat
  deriving DecidableEq, Repr

/-- The registers that hold something other than their reset value, by rising address. -/
abbrev RegFile := List (Nat × Word)

/-- The pending value of ST fields (R14): the bits of `mask` at `addr` take the bits of `value` when the page
`page` applies. -/
structure StagedReg where
  page : Nat
  addr : Nat
  mask : Word
  value : Word
  deriving DecidableEq, Repr

end Sys2Proof.Machine
end

