-- ==== Sys2Proof/Machine/Types/Core.lean ====
section
/-!
DEFINITION. The state of the units every path meets: the Ledger, the Wharfinger, the Berth Table, Hold, the
Slipway's units and the Gangway.
-/

namespace Sys2Proof.Machine

/-- A forward reservation (R75, R76). -/
structure Reserve where
  fan : Bool
  target : Nat
  rateOut : Nat
  maxFrame : Nat
  members : Nat
  lport : Nat
  rateIn : Nat
  deriving DecidableEq, Repr

/-- What holds a handle of the Ledger: a standing or a one-shot admission, or a reservation. -/
inductive AdmKind where
  | standing
  | oneshot (deadline : Nat)
  | reserve (r : Reserve)
  deriving DecidableEq, Repr

/-- An admission that holds a handle (R58–R66). `ending` is set by a withdrawal, a loss or the closing of its row and
takes effect at the next Tide boundary; the other marks tell which it was (R65, R82, R142). -/
structure Admission where
  handle : Nat
  tenant : Nat
  kind : AdmKind
  start : Nat
  basin : Option Nat
  ending : Bool := false
  withdrawn : Bool := false
  lost : Bool := false
  rowClosed : Bool := false
  deriving DecidableEq, Repr

/-- The Ledger: the admissions that hold handles, the oldest first, and the ports that are BUSY until device time moves on. The figures of its calendars (R70) are those that
the slots of admissions book. -/
structure Ledger where
  adms : List Admission
  busy : List Nat := []
  deriving DecidableEq, Repr

/-- Who owns a slot (R99) or a flow (R110). -/
inductive Owner where
  | adm (handle : Nat)
  | tenant (t : Nat)
  deriving DecidableEq, Repr

/-- Where an instance stands. `waiting` instances are released and ready; `held` ones have ended and wait for
their flow. -/
inductive InstState where
  | ready | running | preempted | held
  deriving DecidableEq, Repr

/-- An instance of an operation in a slot: its count, its number in its flow, its release and deadline Tides, its
engine once it runs, when it started, the items it took from IN_QUEUE, and, by index, how each predecessor it waited for
ended: its status code and the picture it made. `failed` is set on an instance whose engine failed it before it ends. `claim`
is the space in OUT_QUEUE kept for it (R108), in the open share or the reserved one; `outs` are the items that an ordered
task has pushed there, held until it ends (R111); `lane` is the SHA lane that a CRY hashes in (R248). -/
structure Inst where
  count : Nat
  seq : Nat
  release : Nat
  deadline : Nat
  state : InstState
  engine : Option UnitId
  startTide : Nat := 0
  startPhase : Nat := 0
  taken : List Item := []
  preds : List (Nat × Nat × Nat) := []
  failed : Bool := false
  claim : Nat := 0
  claimOpn : Bool := true
  outs : List Item := []
  lane : Option Nat := none
  deriving DecidableEq, Repr

/-- An operation slot that is not free (R99): its number and the order it was taken in, its owner, its descriptor
(R96), its tenant, the engine the Ledger booked it to with its share of the standing figure and its one-shot figures by
Tide number (R70, R71, R73; the share of an unbooked one is its cost), the Tide of an unbooked submission and the VF it
came from, its live instance, the instances released so far, the deadline of the last one, the last Tide the Ledger
booked, the next cadence Tide, the completions of each predecessor not yet used, whether its only run has ended, whether
it stands, and whether its admission is over while its instance still runs. -/
structure Slot where
  num : Nat
  order : Nat
  owner : Owner
  desc : List Word
  tenant : Nat
  engine : Option UnitId := none
  share : Nat := 0
  booked : List (Nat × Nat) := []
  submitTide : Nat := 0
  vf : Option Nat := none
  inst : Option Inst := none
  nInst : Nat := 0
  lastDeadline : Option Nat := none
  finish : Nat := 0
  nextCadence : Nat := 0
  predsDone : List (Nat × List (Nat × Nat)) := []
  ended : Bool := false
  standing : Bool := false
  detached : Bool := false
  deriving DecidableEq, Repr

/-- An ended instance that waits for its flow (R111): its slot, its number, the items it holds for its OUT_QUEUE, whether space
there is kept for them (R113), its completion item, and how it pushes. -/
structure HeldInst where
  slot : Nat
  order : Nat
  seq : Nat
  booked : Bool
  outQueue : Nat
  claimed : Bool
  items : List Item
  complQueue : Option Nat
  compl : Item
  deriving DecidableEq, Repr

/-- A live ordered flow (R110, R111). -/
structure Flow where
  id : Nat
  owner : Owner
  next : Nat
  held : List HeldInst
  ending : Bool := false
  deriving DecidableEq, Repr

/-- A Spill queue (R121–R125): its lanes 0–7, the lane its read side is inside a packet of, the lanes that
discard arriving items (R123), its watermark state, and the lanes that are inside a packet at their head. -/
structure Queue where
  num : Nat
  lanes : List (List Item)
  reading : Option Nat
  dropping : List Nat
  above : Bool
  deriving DecidableEq, Repr

/-- The producers that wait for room in a queue (R124), by queue: the items they hold, and the order of
the unbooked slot that the item's push frees (R101). -/
structure Stalled where
  queue : Nat
  item : Item
  egress : Bool
  frees : Option Nat := none
  deriving DecidableEq, Repr

/-- The Wharfinger; `order` counts slots taken, `flowSel` is the flow last written to WFG_FLOW_CMD, and `ran` holds, by
engine, a Tide and the cycles of booked work it has run in it (R107). -/
structure Wharf where
  slots : List Slot
  flows : List Flow
  queues : List Queue
  stalled : List Stalled
  order : Nat
  flowSel : Nat
  ran : List (UnitId × Nat × Nat)
  deriving DecidableEq, Repr

/-- A row of the Berth Table as 64 words, lines 0–3 of R139, and its annex entry as 32 words. -/
structure Row where
  words : List Word
  annex : List Word
  deriving DecidableEq, Repr

/-- Who issued a BTC command: port p of the BTC page, or the port of VF v (R146). -/
inductive BtcPort where
  | pf (p : Nat)
  | vf (v : Nat)
  deriving DecidableEq, Repr

/-- A pending staged BTC command (R149): whether its apply Tide had begun when it was accepted, and whether it
is its port's last command (R156). -/
structure StagedCmd where
  berth : Nat
  port : BtcPort
  words : List Word
  image : List Word
  applyTide : Nat
  late : Bool
  last : Bool
  deriving DecidableEq, Repr

/-- The Berth Table Controller: the rows that are not the row of zeros, the staged commands, the Tide each
DRAINING row began to drain in, the rows whose send key was renewed since their quarantine (R135), the lines
that are dirty (row, line), and the frames of the Berth cache's general partition (R140): the row in each and the lines of
it held, the most recently used first. -/
structure Btc where
  rows : List (Nat × Row)
  staged : List StagedCmd
  drainSince : List (Nat × Nat)
  renewed : List Nat
  dirty : List (Nat × Nat)
  frames : List (Nat × List Nat) := []
  deriving DecidableEq, Repr

/-- An armed error injection (R528). -/
structure Injection where
  ch : Nat
  symbols : Nat
  repeating : Bool
  check : Bool
  onWrite : Bool
  block : Nat
  deriving DecidableEq, Repr

/-- What a controller knows of the errors of its recent reads (R511, R525). -/
structure ChanRun where
  line : Nat
  run : Nat
  ceWindow : Nat
  stormed : Bool
  deriving DecidableEq, Repr

/-- An interleave region (R512, R513): its base, size and local base in MiB, its grain in bytes, its first channel, its
channel count, and the code of its grain. -/
structure Region where
  base : Nat
  size : Nat
  localBase : Nat
  grain : Nat
  chFirst : Nat
  chCount : Nat
  grainCode : Nat
  deriving DecidableEq, Repr

/-- What lies in channel space that no region of the map in force names (R512, R513): bytes, poisoned blocks, those of them
already logged, and blocks with erroneous symbols, each by its place in channel space. -/
structure HoldAway where
  cells : List Host.Cell := []
  poison : List Nat := []
  poisonLogged : List Nat := []
  bad : List (Nat × Nat) := []
  deriving DecidableEq, Repr

/-- Hold: its bytes, the poisoned blocks and those of them already logged, and the blocks that hold erroneous symbols with
their count, all by the addresses that `map`, the regions of the last enable, gives them; what lies outside that map; the
armed injection, the eighths not yet zeroed after Ebb (channel, eighth), each channel's run of single-line corrections, the
channels that are lost, and the time of each channel's last access. -/
structure Hold where
  cells : List Host.Cell
  poison : List Nat
  poisonLogged : List Nat
  bad : List (Nat × Nat)
  map : List Region
  away : HoldAway
  injection : Option Injection
  unzeroed : List (Nat × Nat)
  runs : List (Nat × ChanRun)
  lost : List Nat
  lastAccess : List (Nat × Nat)
  deriving DecidableEq, Repr

/-- What one unit of a kind stands at, where it is not simply in service (R117–R119, R555–R566): a fault it reports;
retired, and by management; under audit; the spare that carries its calendar, and the one that takes it at the next
boundary; the unit whose calendar a spare carries, and whether for an audit; returned as a spare, and not yet audited
since (R564); its soft reset written since its fault (R119); whether no spare was free for it (R82); and a state of its
own that it reported at the last roll-call. -/
structure UnitState where
  fault : Bool := false
  retired : Bool := false
  mgmtRetired : Bool := false
  audit : Bool := false
  carrier : Option Nat := none
  next : Option Nat := none
  carries : Option Nat := none
  forAudit : Bool := false
  returned : Bool := false
  untested : Bool := false
  softReset : Bool := false
  lost : Bool := false
  reports : Option Nat := none
  deriving DecidableEq, Repr

/-- An audit in progress (R559): the unit, the spare that carries its calendar if it has one, the slices done,
whether the last slice failed once, whether a slice has run in this Tide, whether the unit has entered AUDIT, and the
order of the slot its AUD operation holds. -/
structure Audit where
  unit : UnitId
  spare : Option Nat
  slice : Nat
  retry : Bool
  sliced : Bool
  entered : Bool
  order : Nat
  deriving DecidableEq, Repr

/-- A fuse command that runs (R568): its OP, the provider word it names, the words it burns. -/
structure FuseCmd where
  op : Nat
  word : Nat
  words : List Word
  deriving DecidableEq, Repr

/-- The Slipway: unit states that differ from service, the states of pages at the last roll-call that are not RUN,
the audits in progress, the last audit of each unit, the unit each kind's last audit was begun on and the Tide its pass
over its units began in (by kind, and by 16 plus pier for cores), the soft repairs of this run not recorded in fuses, the retirements by management not
burnt, the units that AUDIT_NOW moved to the head, the units whose late audit was counted, the Tide each kind's
AUDIT_SKIPPED was last counted in, and the fuse command that runs with what it burns. -/
structure Slipway where
  units : List (UnitId × UnitState)
  states : List (Page × Nat)
  audits : List Audit
  lastAudit : List (UnitId × Nat)
  reached : List (Nat × Nat)
  cycleStart : List (Nat × Nat)
  soft : List Word
  retirements : List Word
  first : List UnitId
  lateCounted : List UnitId
  skippedAt : List (Nat × Nat)
  fuseCmd : Option FuseCmd
  deriving DecidableEq, Repr

/-- The Gangway: disarmed vectors, vectors that are not masked, pending bits, and vectors rearmed while asserted that
wait for VEC_HOLDOFF, by function; the instant of each vector's last message; the words of the MSI-X tables that are not
zero, by address; and the FIFO of log entries. -/
structure Gangway where
  disarmed : List (Fn × Nat)
  unmasked : List (Fn × Nat)
  pendingBits : List (Fn × Nat)
  rearmWait : List (Fn × Nat)
  lastMsg : List (Fn × Nat × Nat)
  msix : List (Nat × Word)
  log : List LogEntry
  deriving DecidableEq, Repr

end Sys2Proof.Machine
end

