-- ==== Sys2Proof/Machine/Types/Quay.lean ====
section
/-!
DEFINITION. The state of the Quays: transmit queues, pauses, gate lists and transmit timestamps.
-/

namespace Sys2Proof.Machine

/-- What a transmitted frame is to its producer: nothing special, a PFC frame of the Quay's own, a PTP message, or the first
copy of a pinned leg with its receive instant (R195, R569). -/
inductive TxNote where
  | plain
  | pfc
  | ptp
  | firstCopy (rxNs : Nat)
  deriving DecidableEq, Repr

/-- A frame in a transmit queue, its FCS excluded: TS_REQ with the producer's tag, and what it is. -/
structure TxFrame where
  bytes : Bytes
  tsReq : Option Nat := none
  note : TxNote := .plain
  deriving DecidableEq, Repr

/-- A received frame on its way through the Breakwater: its logical port, its bytes without the FCS, its marks
(R167), whether it is marked errored (R30), its receive instant in ns with its fraction in 2⁻¹⁶ ns, the offset of its
UDP payload, and its entry of the packet buffer with its length there (R225). -/
structure RxFrame where
  lport : Nat
  bytes : Bytes
  trunc : Bool := false
  fcsOrig : Bool := true
  errored : Bool := false
  rxNs : Nat := 0
  frac : Nat := 0
  l4 : Nat := 0
  entry : Option (Nat × Nat) := none
  deriving DecidableEq, Repr

/-- A gate list (R179, R180): its bank, its cycle and its base in ns since the epoch as captured at ARM, which a Tide break may
take below zero (R184), and the (gate states, interval) of its entries. -/
structure GateList where
  bank : Nat
  cycle : Nat
  base : Int
  entries : List (Nat × Nat)
  deriving DecidableEq, Repr

/-- A received pause of one priority (R175, R128): when it ends, since when it has held without a break or from when it is to
hold, and whether it is no longer honoured. -/
structure Pause where
  prio : Nat
  until_ : Nat
  since : Nat
  expired : Bool
  deriving DecidableEq, Repr

/-- A logical port: its eight transmit queues, the pauses it honours, its gate lists and the instant the
pending one starts, the PFC quanta due at the next frame boundary, the priorities in XOFF, each with the instant its frame is
repeated, the bytes
in its receive buffer at an instant, and whether it asks for XOFF. -/
structure Port where
  lport : Nat
  txq : List (List TxFrame)
  pauses : List Pause
  oper : Option GateList
  pend : Option (GateList × Nat)
  pfcDue : List (Nat × Nat)
  xoff : List (Nat × Nat)
  rxBytes : Nat
  rxAt : Nat
  rxbXoff : Bool
  deriving DecidableEq, Repr

/-- An entry of a Quay's transmit timestamp FIFO (R186): logical port, tag, seconds, nanoseconds, fraction. -/
structure TxStamp where
  lport : Nat
  tag : Nat
  sec : Nat
  ns : Nat
  frac : Nat
  deriving DecidableEq, Repr

/-- The Quays: the ports that are not empty and idle, and each Quay's timestamp FIFO. -/
structure Quays where
  ports : List Port
  stamps : List (Nat × TxStamp)
  deriving DecidableEq, Repr

end Sys2Proof.Machine
end

