-- ==== Sys2Proof/Machine/Types/Net.lean ====
section
/-!
DEFINITION. The state of the packet path between the Quays: the Breakwater, the Bond, the Ferry and the Tally.
-/

namespace Sys2Proof.Machine

/-- A policer (R222): its RATE and BURST in effect and its token count in Q16.8. -/
structure Policer where
  rate : Nat
  burst : Nat
  tokens : Nat
  deriving DecidableEq, Repr

/-- The Breakwater: policers that are not at reset, the keyframe FIFO (FIR flag, row), the requests sent and
the STUN responses given in this Tide, the interval in which the consent sweep last visited each row, and the frames that have
entered the packet buffer, which number its entries (R225). -/
structure Breakwater where
  policers : List (Nat × Policer)
  kfr : List (Bool × Nat)
  kfrSent : Nat
  stunUsed : Nat
  swept : List (Nat × Nat)
  frames : Nat
  deriving DecidableEq, Repr

/-- A wrapping key slot (R260, R261). -/
structure WrapKey where
  key : Bytes
  set : Bool
  lock : Bool
  deriving DecidableEq, Repr

/-- The Bond: the wrapping key slots that are not empty, by tenant, and the rows whose next index (R254) has passed 2^48 − 1, the
largest that the row's line holds. -/
structure Bond where
  slots : List (Nat × WrapKey)
  spent : List Nat := []
  deriving DecidableEq, Repr

/-- Words 0x0, 0x4 and 0x8 of a route entry (R280). -/
structure Route where
  w0 : Word
  w1 : Word
  w2 : Word
  deriving DecidableEq, Repr

/-- A stream of a sender group (R281). -/
structure GroupStream where
  valid : Bool
  src : Nat
  rate : Nat
  deriving DecidableEq, Repr

/-- A receiver record (R281), with the stream target a change of which is pending, whether its key picture was
asked for (R287), the mask in force at the first packet of the picture in progress (R285), and whether the
picture's first packet was dropped. -/
structure RxRec where
  berth : Nat
  group : Nat
  est : Nat
  share : Nat
  stream : Nat
  cur : Nat := 0
  curValid : Bool := false
  curMask : Nat := 0
  pending : Bool := false
  wait : Nat := 0
  lastPid : Nat := 0
  target : Nat := 0
  asked : Bool := false
  picMask : Nat := 0
  deriving DecidableEq, Repr

/-- A template of an AV1 dependency structure: spatial and temporal index, whether its frames refer to others,
and its decode target indications. -/
structure Av1Template where
  s : Nat
  t : Nat
  refs : Bool
  dtis : List Nat
  deriving DecidableEq, Repr

/-- The last template dependency structure of a source (R283). -/
structure Av1Structure where
  idOffset : Nat
  targets : Nat
  templates : List Av1Template
  deriving DecidableEq, Repr

/-- What the Ferry keeps of a stream of a group: whether its last packet had the marker set, its AV1 structure,
and whether the picture in progress is a key picture. -/
structure SrcState where
  marked : Bool := true
  av1 : Option Av1Structure := none
  key : Bool := false
  deriving DecidableEq, Repr

/-- A programme packet in a fan list's FIFO or being launched: its RTP packet in clear and the timestamp
adjustment of its route (R301). -/
structure Programme where
  rtp : Bytes
  tsAdj : Nat
  deriving DecidableEq, Repr

/-- A fan list (R292): its FIFO and the Tide of its last launch instant. -/
structure FanList where
  num : Nat
  pi : Nat
  launchOfs : Nat
  tenant : Nat
  fifo : List Programme
  launched : Option Nat := none
  deriving DecidableEq, Repr

/-- The segment of a fan list on a logical port (R293, R295): its handle, its lanes, the geometry of its wheel,
its cap, the rows in its slots, and the slots left in a packet interval (slot, first Tide it is free in). -/
structure Segment where
  fan : Nat
  lport : Nat
  handle : Nat
  lanes : List Nat
  m : Nat
  pi : Nat
  cell : Nat
  maxFrame : Nat
  cap : Nat
  slots : List (Nat × Nat)
  leaving : List (Nat × Nat)
  deriving DecidableEq, Repr

/-- A copy due of a launched packet: its port, its slot, its row and its offset in tenths of a ns (R297). -/
structure FanDue where
  lport : Nat
  slot : Nat
  berth : Nat
  ofs : Nat
  deriving DecidableEq, Repr

/-- A programme packet taken at a launch instant and the copies of it not yet made. -/
structure Launch where
  fan : Nat
  tide : Nat
  packet : Programme
  due : List FanDue
  deriving DecidableEq, Repr

/-- A pending staged command of the Ferry, the Tally or the Abacus: its key, port, words and apply Tide, whether
its apply Tide had begun when it was accepted, and whether it is its port's last command (R156). -/
structure StagedWords where
  key : Nat
  port : Nat
  words : List Word
  applyTide : Nat
  late : Bool
  last : Bool
  deriving DecidableEq, Repr

/-- The Ferry. Streams are keyed by 16 × group + stream, next hops by 4,096 × Quay + index, sources by their row, or by
2^26 + 16 × group + stream inside the device. -/
structure Ferry where
  routes : List (Nat × Route)
  streams : List (Nat × GroupStream)
  recs : List (Nat × RxRec)
  sources : List (Nat × SrcState)
  fans : List FanList
  segs : List Segment
  launches : List Launch
  nextHops : List (Nat × Nat)
  staged : List StagedWords
  used : List (Nat × Nat)
  waiting : List Nat
  srSent : List (Nat × Nat)
  deriving DecidableEq, Repr

/-- A copy in the Tally: its frame, its row, the Tide it was queued in. -/
structure TallyCopy where
  frame : TxFrame
  berth : Nat
  since : Nat
  deriving DecidableEq, Repr

/-- A node of the Tally: its rate and credit in Q16.8 packets, its burst in packets, the logical port of a
subscriber, and the FIFO of a service node. -/
structure TallyNode where
  rate : Nat
  burst : Nat
  credit : Int
  lport : Nat
  fifo : List TallyCopy
  deriving DecidableEq, Repr

/-- The Tally: port nodes' credits, subscriber nodes, service nodes keyed by 8 × subscriber + service, the
order in which the service nodes with a copy waiting have their turn, and the staged node writes. -/
structure Tally where
  ports : List (Nat × Int)
  subs : List (Nat × TallyNode)
  svcs : List (Nat × TallyNode)
  robin : List Nat
  staged : List StagedWords
  deriving DecidableEq, Repr

end Sys2Proof.Machine
end

