-- ==== Sys2Proof/Machine/Types/Mrg.lean ====
section
/-!
DEFINITION. The state of the Mooring (chapter 17), the records its frames carry, and the frames.
-/

namespace Sys2Proof.Machine

/-- A record of a DELTA, BULK or ROW_REQ frame (R541, R551, R552), as the values it carries. `lines` holds the words of
the row and of the annex entry; of those only the parts in its mask count (bits 0–5: line 0, line 1 send half, line 1
receive half, line 2, line 3, annex). The last six carry the Ferry state of a bulk copy and a requested row. -/
inductive MrgRecord where
  | fan (lport fan k0 k1 ts octets launch : Nat)
  | send (berth n twseq srtcp : Nat)
  | lines (berth mask : Nat) (words annex : List Word)
  | state (berth state qcause : Nat)
  | slot (berth : Nat) (join : Bool) (k : Nat)
  | ferry (words : List Word)
  | brk (at_ next phase : Nat)
  | sweep (berth : Nat) (line1 line3 : List Word)
  | route (berth : Nat) (r : Route)
  | stream (key : Nat) (s : GroupStream)
  | receiver (r : RxRec)
  | fanList (num pi ofs tenant : Nat)
  | fanSlot (fan lport k berth : Nat)
  | row (berth : Nat)
  deriving DecidableEq, Repr

/-- The header of a Mooring frame (R532) as its receiver finds it; `intact` tells whether the FCS is good. -/
structure MrgHead where
  intact : Bool := true
  magic : Nat := 0x4D52
  version : Nat := 1
  tideLo : Nat
  claim : Nat
  fseq : Nat := 0
  count : Nat := 0
  deriving DecidableEq, Repr

/-- What a HEARTBEAT carries (R532). -/
structure MrgBeat where
  role : Nat
  sync : Nat
  skipLog2 : Nat
  ok : Bool
  tideHi : Nat
  deriving DecidableEq, Repr

/-- What a Mooring frame carries, by its TYPE (R532). -/
inductive MrgBody where
  | heartbeat (b : MrgBeat)
  | delta (rs : List MrgRecord)
  | deltaEnd
  | bulk (rs : List MrgRecord)
  | bulkEnd
  | rowReq (rs : List MrgRecord)
  | joinReq (kcvs : List Nat)
  deriving DecidableEq, Repr

/-- A Mooring frame. -/
structure MrgFrame where
  head : MrgHead
  body : MrgBody
  deriving DecidableEq, Repr

/-- What an active notes of the Tide in progress for its delta (R541): a copy of a fan list that left the Bond, the send
state a row began the Tide with once it changes (N, TX_TWSEQ, SRTCP_TX_INDEX), the parts a command wrote, a hardware
transition, a fan slot taken or left, a Ferry command applied, a Tide break. -/
inductive MrgNote where
  | copy (fan lport k berth ts octets launch : Nat)
  | send (berth n twseq srtcp : Nat)
  | lines (berth mask : Nat)
  | state (berth : Nat)
  | slot (berth : Nat) (join : Bool) (k : Nat)
  | ferry (words : List Word)
  | brk (at_ next phase : Nat)
  deriving DecidableEq, Repr

/-- Frames of a delta held until it is applied (R543): its Tide, the number and records of each frame, and the number
of frames that its DELTA_END names. -/
structure MrgDelta where
  tideLo : Nat
  frames : List (Nat × List MrgRecord)
  last : Option Nat
  deriving DecidableEq, Repr

/-- A bulk copy an active sends (R551): the first row not yet sent, the Ferry records not yet sent once the rows are done,
and the frames sent. -/
structure MrgBulk where
  next : Nat := 0
  ferry : Option (List MrgRecord) := none
  fseq : Nat := 0
  deriving DecidableEq, Repr

/-- The Mooring. Partner claims heard in this Tide and in the one before; whether a valid heartbeat came in this Tide on
the Mooring and on the wire, and for how many Tides in a row none did; the partner's last EPOCH and SYNC; the number of
the Tide before this one. Of an active: its notes, the next row of the sweep, the rows requested, the bulk copy in
progress, whether one begins at the next boundary, and the Tide the last one began in. Of a standby: the deltas it holds and
whether it found one incomplete, the frames of the bulk copy received, whether the first Tide of a copy is over (2) or in
progress (1), the rows received in bulk, the rows it asked for in this Tide, whether it asks to join.
Its frames sent, the newest first. -/
structure Mooring where
  heardNow : List Nat
  heardPrev : List Nat
  gotMrg : Bool := false
  gotWire : Bool := false
  silentMrg : Nat := 0
  silentWire : Nat := 0
  partnerEpoch : Nat := 0
  partnerSync : Nat := 0
  prevTide : Nat := 0
  notes : List MrgNote := []
  sweep : Nat := 0
  requested : List Nat := []
  bulk : Option MrgBulk := none
  bulkDue : Bool := false
  bulkTide : Nat := 0
  deltas : List MrgDelta := []
  incomplete : Bool := false
  bulkGot : Nat := 0
  copyStage : Nat := 0
  got : List Nat := []
  asked : List Nat := []
  joining : Bool := false
  sent : List MrgFrame := []
  deriving DecidableEq, Repr

end Sys2Proof.Machine
end

