-- ==== Sys2Proof/Syntax/Args.lean ====
section
/-!
DEFINITION. What commands carry besides plain numbers: the words of a port, what the pins and the clocks did,
what an engine found. A part the spec leaves to the world outside, or to an engine's inner work, is an operand.
-/

namespace Sys2Proof

/-- What one block read finds on its DQ lines: the erroneous symbols by line (line 16 where no one line is
known), and whether a pattern beyond the code's reach lies next to another codeword (R509). -/
structure ReadFlaw where
  errs : List (Nat × Nat) := []
  aliased : Bool := false
  deriving DecidableEq, Repr

/-- A frame as a logical port receives it (R161, R166–R169, R185, R226): its bytes from the destination address to the FCS;
whether the PCS marked it errored; the occupancy of the port's receive buffer, in bytes, when its first byte arrived;
codewords corrected and uncorrectable and symbols corrected on the way; the phase of its
timestamp at the balls in ns, and the fraction in 2⁻¹⁶ ns. -/
structure RxInput where
  lport : Nat
  bytes : List (BitVec 8)
  errored : Bool := false
  occupancy : Nat := 0
  fecCorr : Nat := 0
  fecUncorr : Nat := 0
  fecSyms : Nat := 0
  phase : Nat := 0
  frac : Nat := 0
  deriving DecidableEq, Repr

/-- One slot of a TDM frame, or one subframe of AES3, as received (R361, R363): its bits as a number, the validity
bit, and whether a parity or a biphase error was found in it. -/
structure AudioWord where
  value : Nat
  invalid : Bool := false
  parity : Bool := false
  biphase : Bool := false
  deriving DecidableEq, Repr

/-- What one member of an alignment group did in a Tide (R359, R366): 0–7 TDM ports, 8–11 AES3 receivers, 12–15
AES3 transmitters. The frames its receive side delivered (raw in BYPASS, converted to 48 kHz otherwise), the
frames its transmit side consumed, the phase of its first frame start, the ratio of its converter in Q8.24. -/
structure MemberTide where
  member : Nat
  frames : List (List AudioWord) := []
  consumed : Nat := 0
  fsPhase : Option Nat := none
  ratio : Option Nat := none
  deriving DecidableEq, Repr

/-- The rate of a monitored clock over a Tide (R368): the monitor, its deviation from the expected rate and from
the tracked value, both in ppm. -/
structure ClockRate where
  mon : Nat
  fromExpected : Int
  fromTracked : Int
  deriving DecidableEq, Repr

/-- A state a unit reports (R117): the kind and index of R555 and its state, in the coding of BLK_STAT. -/
structure UnitReport where
  kind : Nat
  idx : Nat
  state : Nat
  deriving DecidableEq, Repr

/-- What the world outside did in the Tide that ends (R117, R204, R366, R368): the members of the alignment groups, the rates
of monitored clocks, the rate of REF10M_IN as its deviation in ppm from the tracked value, the states units report. -/
structure TideInput where
  members : List MemberTide := []
  clocks : List ClockRate := []
  ref10m : Option Int := none
  units : List UnitReport := []
  deriving DecidableEq, Repr

/-- The parallel load of a MAC instruction: PRD, PA, PM (R382). -/
structure RkPar where
  prd : BitVec 4
  pa : BitVec 3
  pm : BitVec 3
  deriving DecidableEq, Repr

/-- The count of a LOOP: immediate, or a d register taken as unsigned (R390). -/
inductive RkCount where
  | imm (n : BitVec 9)
  | reg (r : BitVec 4)
  deriving DecidableEq, Repr

/-- What INIT_ENTRY left on a core that the model did not run it on (R408): the core (0–135 of its pier), registers
by their number of R378, and half-words of data RAM. -/
structure CoreInit where
  core : Nat
  regs : List (Nat × BitVec 16) := []
  ram : List (Nat × BitVec 16) := []
  deriving DecidableEq, Repr

/-! ### What an engine found in its work: the parts of an operation's outcome that depend on coded content -/

/-- Why a frame is not decoded (R432). -/
inductive DecFail where
  | badSyntax | size | unsupported
  deriving DecidableEq, Repr

/-- What a VDE found in a frame and made of it (R424–R437). `fail`: why it could not be decoded; `memory`: an
uncorrectable Hold error of the coded input or an output (none inside) or of a reference buffer; `key`, `shown`,
`clears`: a key picture, a picture to be shown, one that clears every mark; `skip`: a discarded RASL picture;
`existing`: the buffer of an AV1 show_existing_frame; `order`: its place in output order; `buffer`: the buffer taken
where more than one is free; `kind`, `slots`, `marks`: its own marks and the marks of other buffers that the codec's
standard gives; `refs`, `standins`: buffers referenced and references substituted; `damaged`: data of its own frame
lost or in error; `lost`: the 16 × 16 blocks (column, row) not decoded from valid data; `motion`: the motion of its
inter-coded blocks in 16ths of a luma sample; `bits`, `units`, `unitBits`: coded bits, slices or tiles, and the bits
of those past the declared number; `width`, `height`: of the decoded picture; `mono`: it has no chroma; `grain`: AV1
film grain parameters; `dropped`: payload structures dropped that only the coded content tells; `picture`, `field`:
what valid data gave of the pool buffer's picture and motion field; `cycles`: used. -/
structure DecReport where
  fail : Option DecFail := none
  memory : Option (Option Nat) := none
  key : Bool := false
  shown : Bool := true
  clears : Bool := false
  skip : Bool := false
  existing : Option Nat := none
  order : Int := 0
  buffer : Nat := 0
  kind : Nat := 0
  slots : Nat := 0
  marks : List (Nat × Nat × Nat) := []
  refs : List Nat := []
  standins : Nat := 0
  damaged : Bool := false
  lost : List (Nat × Nat) := []
  motion : List ((Nat × Nat) × (Int × Int)) := []
  bits : Nat := 0
  units : Nat := 1
  unitBits : Nat := 0
  width : Nat := 0
  height : Nat := 0
  mono : Bool := false
  grain : Option (List (BitVec 8)) := none
  dropped : Nat := 0
  picture : List (BitVec 8) := []
  field : List (BitVec 8) := []
  cycles : Nat := 0
  deriving DecidableEq, Repr

/-- What a VDE used for an SCL operation (R440): the cycles. -/
structure SclReport where
  cycles : Nat := 0
  deriving DecidableEq, Repr

/-- What a Composer knows of its instance (R485, R496): for each layer by record the size of its source picture, which no
item of the spec carries; the cycles used. -/
structure CmpReport where
  sizes : List (Nat × Nat × Nat) := []
  cycles : Nat := 0
  deriving DecidableEq, Repr

/-- What a Survey used (R472): the cycles. -/
structure SvyReport where
  cycles : Nat := 0
  deriving DecidableEq, Repr

/-- What a Lighter used (R472): the cycles. -/
structure LtrReport where
  cycles : Nat := 0
  deriving DecidableEq, Repr

/-- What the outside gave a host transfer (R595): the host's bytes, and whether PCIe completed it. -/
structure XfrReport where
  host : List (BitVec 8) := []
  pcieOk : Bool := true
  deriving DecidableEq, Repr

/-- What boot self-test found (R556, R557): the soft repair records of failing arrays; the units that fail, by the kind and
index of R555; whether something cannot be repaired. -/
structure BootReport where
  arrays : List (BitVec 32) := []
  failing : List (Nat × Nat) := []
  unrepairable : Bool := false
  deriving DecidableEq, Repr

/-- The report of an operation that ended, by the kind of its engine. -/
inductive OpReport where
  | plain
  | dec (r : DecReport)
  | scl (r : SclReport)
  | cmp (r : CmpReport)
  | svy (r : SvyReport)
  | ltr (r : LtrReport)
  | xfr (r : XfrReport)
  deriving DecidableEq, Repr

end Sys2Proof
end

