-- ==== Sys2Proof/Syntax.lean ====
section
/-!
DEFINITION. The commands of the block, one for each row of the opcode table: what software asks for, what the world outside
does, what the device does when it is due, and the instructions a Reckoner core executes. `ph` is the phase of the Tide, in
ns, that a command comes at.
-/

namespace Sys2Proof

open Machine

/-- The commands. -/
inductive Instr where
  -- Instructions of the Reckoner
  /-- ADD (R383). Adds two registers. -/
  | rkAdd (core : Nat) (rd : BitVec 4) (rs : BitVec 4) (rt : BitVec 4) (sat : Bool)
  /-- SUB (R383). Subtracts two registers. -/
  | rkSub (core : Nat) (rd : BitVec 4) (rs : BitVec 4) (rt : BitVec 4) (sat : Bool)
  /-- AND (R383). Bitwise AND of two registers. -/
  | rkAnd (core : Nat) (rd : BitVec 4) (rs : BitVec 4) (rt : BitVec 4)
  /-- OR (R383). Bitwise OR of two registers. -/
  | rkOr (core : Nat) (rd : BitVec 4) (rs : BitVec 4) (rt : BitVec 4)
  /-- XOR (R383). Bitwise XOR of two registers. -/
  | rkXor (core : Nat) (rd : BitVec 4) (rs : BitVec 4) (rt : BitVec 4)
  /-- SHL (R383). Shifts left by a register amount. -/
  | rkShl (core : Nat) (rd : BitVec 4) (rs : BitVec 4) (rt : BitVec 4) (sat : Bool)
  /-- SHRA (R383). Arithmetic shift right by a register amount. -/
  | rkShra (core : Nat) (rd : BitVec 4) (rs : BitVec 4) (rt : BitVec 4)
  /-- SHRL (R383). Logical shift right by a register amount. -/
  | rkShrl (core : Nat) (rd : BitVec 4) (rs : BitVec 4) (rt : BitVec 4)
  /-- MIN (R383). Minimum of two registers. -/
  | rkMin (core : Nat) (rd : BitVec 4) (rs : BitVec 4) (rt : BitVec 4)
  /-- MAX (R383). Maximum of two registers. -/
  | rkMax (core : Nat) (rd : BitVec 4) (rs : BitVec 4) (rt : BitVec 4)
  /-- ABS (R383). Absolute value. -/
  | rkAbs (core : Nat) (rd : BitVec 4) (rs : BitVec 4) (sat : Bool)
  /-- NEG (R383). Negation. -/
  | rkNeg (core : Nat) (rd : BitVec 4) (rs : BitVec 4) (sat : Bool)
  /-- MOV (R383). Register copy. -/
  | rkMov (core : Nat) (rd : BitVec 4) (rs : BitVec 4)
  /-- CMP (R383). Sets flags from RS minus RT. -/
  | rkCmp (core : Nat) (rs : BitVec 4) (rt : BitVec 4)
  /-- ADDI (R383). Adds a signed immediate. -/
  | rkAddi (core : Nat) (rd : BitVec 4) (rs : BitVec 4) (imm : BitVec 16)
  /-- ANDI (R383). AND with an immediate. -/
  | rkAndi (core : Nat) (rd : BitVec 4) (rs : BitVec 4) (imm : BitVec 16)
  /-- ORI (R383). OR with an immediate. -/
  | rkOri (core : Nat) (rd : BitVec 4) (rs : BitVec 4) (imm : BitVec 16)
  /-- XORI (R383). XOR with an immediate. -/
  | rkXori (core : Nat) (rd : BitVec 4) (rs : BitVec 4) (imm : BitVec 16)
  /-- MOVI (R383). Loads an immediate. -/
  | rkMovi (core : Nat) (rd : BitVec 4) (imm : BitVec 16)
  /-- CMPI (R383). Sets flags from RS minus an immediate. -/
  | rkCmpi (core : Nat) (rs : BitVec 4) (imm : BitVec 16)
  /-- SHLI (R383). Shifts left by an immediate. -/
  | rkShli (core : Nat) (rd : BitVec 4) (rs : BitVec 4) (imm : BitVec 16)
  /-- SHRAI (R383). Arithmetic shift right by an immediate. -/
  | rkShrai (core : Nat) (rd : BitVec 4) (rs : BitVec 4) (imm : BitVec 16)
  /-- SHRLI (R383). Logical shift right by an immediate. -/
  | rkShrli (core : Nat) (rd : BitVec 4) (rs : BitVec 4) (imm : BitVec 16)
  /-- AMOVI (R383). Loads an address register with an immediate. -/
  | rkAmovi (core : Nat) (rd : BitVec 3) (imm : BitVec 16)
  /-- MMOVI (R383). Loads a modify register with an immediate. -/
  | rkMmovi (core : Nat) (rd : BitVec 3) (imm : BitVec 16)
  /-- AADDI (R383). Adds an immediate to an address register. -/
  | rkAaddi (core : Nat) (rd : BitVec 3) (imm : BitVec 16)
  /-- MUL (R384). Sets an accumulator to a product. -/
  | rkMul (core : Nat) (acc : Bool) (rs : BitVec 4) (rt : BitVec 4) (fract : Bool) (sat : Bool) (par : Option RkPar)
  /-- MAC (R384). Adds a product to an accumulator, with optional parallel load. -/
  | rkMac (core : Nat) (acc : Bool) (rs : BitVec 4) (rt : BitVec 4) (fract : Bool) (sat : Bool) (par : Option RkPar)
  /-- MSU (R384). Subtracts a product from an accumulator. -/
  | rkMsu (core : Nat) (acc : Bool) (rs : BitVec 4) (rt : BitVec 4) (fract : Bool) (sat : Bool) (par : Option RkPar)
  /-- CLR (R385). Clears an accumulator. -/
  | rkClr (core : Nat) (acc : Bool)
  /-- MVA (R385). Moves a shifted accumulator to a data register. -/
  | rkMva (core : Nat) (acc : Bool) (rd : BitVec 4) (sh : BitVec 6) (sat : Bool)
  /-- MVD (R385). Moves a data register into an accumulator. -/
  | rkMvd (core : Nat) (acc : Bool) (rs : BitVec 4)
  /-- ADDA (R385). Adds the other accumulator. -/
  | rkAdda (core : Nat) (acc : Bool) (sat : Bool)
  /-- SHA (R385). Shifts an accumulator. -/
  | rkSha (core : Nat) (acc : Bool) (sh : BitVec 6) (sat : Bool)
  /-- NEGA (R385). Negates an accumulator. -/
  | rkNega (core : Nat) (acc : Bool) (sat : Bool)
  /-- LD (R386). Loads a word from data RAM. -/
  | rkLd (core : Nat) (cls : BitVec 2) (reg : BitVec 4) (a : BitVec 3) (m : BitVec 3) (pmod : Bool) (ofs : BitVec 11)
  /-- ST (R386). Stores a word to data RAM. -/
  | rkSt (core : Nat) (cls : BitVec 2) (reg : BitVec 4) (a : BitVec 3) (m : BitVec 3) (pmod : Bool) (ofs : BitVec 11)
  /-- B (R389). Unconditional branch with a delay slot. -/
  | rkB (core : Nat) (target : BitVec 13)
  /-- BEQ (R389). Branch if equal. -/
  | rkBeq (core : Nat) (target : BitVec 13)
  /-- BNE (R389). Branch if not equal. -/
  | rkBne (core : Nat) (target : BitVec 13)
  /-- BLT (R389). Branch if less than. -/
  | rkBlt (core : Nat) (target : BitVec 13)
  /-- BGE (R389). Branch if greater or equal. -/
  | rkBge (core : Nat) (target : BitVec 13)
  /-- BGT (R389). Branch if greater than. -/
  | rkBgt (core : Nat) (target : BitVec 13)
  /-- BLE (R389). Branch if less or equal. -/
  | rkBle (core : Nat) (target : BitVec 13)
  /-- BV (R389). Branch on overflow. -/
  | rkBv (core : Nat) (target : BitVec 13)
  /-- CALL (R389). Calls and sets lr. -/
  | rkCall (core : Nat) (target : BitVec 13)
  /-- RET (R389). Returns to lr. -/
  | rkRet (core : Nat)
  /-- LOOP (R390). Starts a hardware loop. -/
  | rkLoop (core : Nat) (level : Bool) (count : RkCount) (last : BitVec 13)
  /-- BREAK (R391). Clears a loop's active flag. -/
  | rkBreak (core : Nat) (level : Bool)
  /-- MOVX (R378). Moves between numbered registers. -/
  | rkMovx (core : Nat) (rd : BitVec 6) (rs : BitVec 6)
  /-- PUSHX (R400). Pushes a register onto the save stack. -/
  | rkPushx (core : Nat) (rs : BitVec 6)
  /-- POPX (R400). Pops a register from the save stack. -/
  | rkPopx (core : Nat) (rd : BitVec 6)
  /-- NOP (R383). Does nothing for one cycle. -/
  | rkNop (core : Nat)
  /-- END (R393). Ends the operation with the status in d0. -/
  | rkEnd (core : Nat)
  /-- TAKE (R399). Starts the pre-empting operation at the next nesting level. -/
  | rkTake (core : Nat)
  /-- RTI (R401). Restores the pre-empted operation's pc, sr and load-delay state. -/
  | rkRti (core : Nat)
  /-- DMA (R402). Starts a DMA transfer on a channel. -/
  | rkDma (core : Nat) (ch : BitVec 2) (a : BitVec 3)
  /-- DMAWAIT (R387). Waits until a DMA channel is idle. -/
  | rkDmawait (core : Nat) (ch : BitVec 2)
  -- Commands of software
  /-- ADMIT_STANDING (R60). A standing admission is checked and booked or refused. -/
  | admitStanding (port : Nat) (words : List Word)
  /-- ADMIT_ONESHOT (R73). A one-shot admission is checked and booked or refused. -/
  | admitOneshot (port : Nat) (words : List Word)
  /-- RESERVE_FWD (R76). A forward reservation is checked and charged to the pools. -/
  | reserveFwd (port : Nat) (words : List Word)
  /-- LDG_WITHDRAW (R65). A handle write schedules the end of an admission. -/
  | withdraw (handle : Nat)
  /-- LDG_QUERY (R92). A query selects an engine and calendar Tide for the result registers. -/
  | query (word : Word)
  /-- UNBOOKED_SUBMIT (R102). A submit port GO checks and accepts an unbooked descriptor. -/
  | unbookedSubmit (port : BtcPort) (addr : Nat)
  /-- WFG_CANCEL (R103). A slot write cancels an unbooked operation not yet started. -/
  | wfgCancel (slot : Nat)
  /-- FLOW_SKIP (R112). A flow command sets N and releases held instances below it. -/
  | flowSkip (id : Nat) (seq : Nat)
  /-- DROP_REST (R123). QCMD DROP_REST discards a lane's items to the next LAST. -/
  | dropRest (queue : Nat) (lane : Nat)
  /-- FLUSH (R129). QCMD FLUSH discards every item of a queue. -/
  | flush (queue : Nat)
  /-- CLEAR_DROP (R129). QCMD CLEAR_DROP clears QDROP. -/
  | clearDrop (queue : Nat)
  /-- QCFG_WRITE (R130). A QCFG write changes a queue's configuration and enable under its checks. -/
  | qcfgWrite (queue : Nat) (word : Word)
  /-- OPEN (R147). OPEN writes a FREE row and enters it in the classifier. -/
  | berthOpen (port : BtcPort) (words : List Word) (image : List Word)
  /-- MODIFY (R148). MODIFY writes masked parts of a row. -/
  | modify (port : BtcPort) (words : List Word) (image : List Word)
  /-- ACTIVATE (R134). ACTIVATE makes an OPENING row LIVE. -/
  | activate (port : BtcPort) (words : List Word)
  /-- DRAIN (R147). DRAIN moves a LIVE row to DRAINING. -/
  | drain (port : BtcPort) (words : List Word)
  /-- QUARANTINE (R147). QUARANTINE moves a LIVE row to QUARANTINE with QCAUSE COMMAND. -/
  | quarantine (port : BtcPort) (words : List Word)
  /-- RESUME (R135). RESUME returns a quarantined row to LIVE. -/
  | resume (port : BtcPort) (words : List Word)
  /-- CLOSE (R147). CLOSE moves a row to CLOSED. -/
  | berthClose (port : BtcPort) (words : List Word)
  /-- RELEASE (R147). RELEASE zeroes a CLOSED row and frees it. -/
  | release (port : BtcPort) (words : List Word)
  /-- BTC_READ (R147). READ copies a row to ROW_IMAGE. -/
  | btcRead (port : BtcPort) (words : List Word)
  /-- PIN (R142). PIN holds a row in the pinned partition. -/
  | pin (port : BtcPort) (words : List Word)
  /-- UNPIN (R142). UNPIN releases a row's pinned frame. -/
  | unpin (port : BtcPort) (words : List Word)
  /-- CLEAR_COUNTERS (R147). CLEAR_COUNTERS zeroes a row's counters. -/
  | clearCounters (port : BtcPort) (words : List Word)
  /-- FIND_FREE (R147). FIND_FREE returns the lowest FREE index at or above BERTH. -/
  | findFree (port : BtcPort) (words : List Word)
  /-- CANCEL_STAGED (R147). CANCEL_STAGED discards a row's pending staged command. -/
  | cancelStaged (port : BtcPort) (words : List Word)
  /-- BTC_PIN_ROWS_WRITE (R140). A write sets the pinned partition size under its checks. -/
  | btcPinRowsWrite (value : Word)
  /-- BTC_TRANGE_WRITE (R154). A tenant range write is applied or ignored as overlapping. -/
  | btcTrangeWrite (tenant : Nat) (value : Word)
  /-- QAY_MODE_WRITE (R160). A MODE write changes a quiesced Quay's port mode. -/
  | qayModeWrite (quay : Nat) (mode : Nat)
  /-- GATE_ARM (R179). ARM checks a gate list and schedules its start. -/
  | gateArm (lport : Nat) (bank : Nat) (ph : Nat)
  /-- TXTS_POP (R186). Reading TXTS_FRAC removes the head transmit timestamp entry. -/
  | txtsPop (quay : Nat)
  /-- CNT_CLEAR (R188). A CNT_CLEAR write zeroes the counters of its block or page. -/
  | cntClear (addr : Nat)
  /-- ANCHOR (R198). ANCHOR fixes Tide numbering without a source. -/
  | anchor (ph : Nat)
  /-- TIDE_BREAK (R206). TIDE_BREAK arms a Tide break after its checks. -/
  | tideBreak (breakAt : Nat) (newTide : Nat) (breakPhase : Nat)
  /-- CANCEL_BREAK (R206). CANCEL_BREAK withdraws a pending break. -/
  | cancelBreak
  /-- SRC_SEL_WRITE (R197). A SRC_SEL write selects the timing source; 0 returns to FREERUN. -/
  | srcSelWrite (word : Word)
  /-- PTP_ROLE_WRITE (R192). A port ROLE write sets its role, refusing a second SLAVE. -/
  | ptpRoleWrite (lport : Nat) (word : Word)
  /-- TEVT_POP (R211). Reading TEVT_FRAC removes the head time-event entry. -/
  | tevtPop
  /-- KFR_PLI (R240). A host keyframe command with FIR 0 requests a PLI. -/
  | kfrPli (berth : Nat)
  /-- KFR_FIR (R240). A host keyframe command with FIR 1 requests a FIR. -/
  | kfrFir (berth : Nat)
  /-- POL_BURST_WRITE (R223). A POL_BURST write applies RATE and BURST and fills the policer. -/
  | polBurstWrite (policer : Nat) (rate : Nat) (burst : Nat)
  /-- SET_SEND (R264). SET_SEND wraps a send key into the row. -/
  | setSend (fn : Fn) (words : List Word) (data : List Word)
  /-- SET_RECV (R264). SET_RECV wraps a receive key into the annex entry. -/
  | setRecv (fn : Fn) (words : List Word) (data : List Word)
  /-- SET_PAIR (R264). SET_PAIR sets both keys in one step. -/
  | setPair (fn : Fn) (words : List Word) (data : List Word)
  /-- SET_ICE_PWD (R264). SET_ICE_PWD wraps the local ICE password. -/
  | setIcePwd (fn : Fn) (words : List Word) (data : List Word)
  /-- WRAP (R264). WRAP writes a wrapped CRY key block to Hold. -/
  | wrap (fn : Fn) (words : List Word) (data : List Word)
  /-- SET (R261). SET loads a tenant wrapping key and its check value. -/
  | wrapSet (fn : Fn) (tenant : Nat) (keyWords : List Word)
  /-- LOCK (R261). LOCK locks a tenant's wrapping key slot. -/
  | wrapLock (fn : Fn) (tenant : Nat)
  /-- ZEROIZE (R261). ZEROIZE clears a tenant's wrapping key slot. -/
  | wrapZeroize (fn : Fn) (tenant : Nat)
  /-- FAN_SET (R292). FAN_SET defines a fan list's interval, offset and tenant. -/
  | fanSet (port : Nat) (words : List Word)
  /-- FAN_CLEAR (R313). FAN_CLEAR removes a fan list definition. -/
  | fanClear (port : Nat) (words : List Word)
  /-- GROUP_STREAM (R281). GROUP_STREAM sets a sender group stream. -/
  | groupStream (port : Nat) (words : List Word)
  /-- ROUTE_SET (R280). ROUTE_SET writes a source row's route entry. -/
  | routeSet (port : Nat) (words : List Word)
  /-- ROUTE_CLEAR (R313). ROUTE_CLEAR clears a route entry. -/
  | routeClear (port : Nat) (words : List Word)
  /-- RX_ADD (R282). RX_ADD adds a receiver record to a group. -/
  | rxAdd (port : Nat) (words : List Word)
  /-- RX_MOD (R313). RX_MOD changes a receiver record. -/
  | rxMod (port : Nat) (words : List Word)
  /-- RX_DEL (R313). RX_DEL deletes a receiver record. -/
  | rxDel (port : Nat) (words : List Word)
  /-- FRY_READ (R313). READ returns a route, record, group stream or fan list. -/
  | fryRead (port : Nat) (words : List Word)
  /-- NH_ENTRY_WRITE (R314). A write of the NH_VALID word stores a next-hop entry. -/
  | nhEntryWrite (quay : Nat) (index : Nat) (lo : Word) (hi : Word)
  /-- TALLY_NODE_GO (R316). GO stores or stages a Tally node write. -/
  | tallyNodeGo (words : List Word)
  /-- BASIN_SET (R352). BASIN_SET writes a Basin record and talker settings. -/
  | basinSet (port : Nat) (words : List Word)
  /-- INPUT_SET (R322). INPUT_SET writes an input record. -/
  | inputSet (port : Nat) (words : List Word)
  /-- MIX_SET (R352). MIX_SET writes a mix record. -/
  | mixSet (port : Nat) (words : List Word)
  /-- XP_SET (R327). XP_SET sets a cross-point entry and its ramp. -/
  | xpSet (port : Nat) (words : List Word)
  /-- XP_CLEAR (R340). XP_CLEAR ramps a cross-point to zero. -/
  | xpClear (port : Nat) (words : List Word)
  /-- DRESS_SET (R349). DRESS_SET reads a dressed-path parameter block. -/
  | dressSet (port : Nat) (words : List Word)
  /-- ABX_READ (R352). READ returns an Abacus record. -/
  | abxRead (port : Nat) (words : List Word)
  /-- ESS_AUDIO_FLOW_EN (R372). Setting an audio transmit flow's EN is accepted or sets CFG_BAD. -/
  | essAudioFlowEn (flow : Nat) (word : Word)
  /-- ESS_VIDEO_FLOW_EN (R500). Setting a video flow's EN is accepted or sets CFG_BAD. -/
  | essVideoFlowEn (tx : Bool) (flow : Nat) (word : Word)
  /-- RKN_LOAD (R408). GO checks and loads a firmware image into every core of a pier. -/
  | rknLoad (pier : Nat) (image : Nat)
  /-- CTX_SET (R419). CTX_SET copies a decode parameter block and marks it valid. -/
  | ctxSet (ctx : Nat) (addr : Nat)
  /-- CTX_MOD (R419). CTX_MOD takes words 5, 6 and the KFR bits. -/
  | ctxMod (ctx : Nat) (addr : Nat)
  /-- CTX_RESET (R419). CTX_RESET restarts a decode stream. -/
  | ctxReset (ctx : Nat) (addr : Nat)
  /-- CTX_READ (R419). CTX_READ copies a decode context to Hold. -/
  | ctxRead (ctx : Nat) (addr : Nat)
  /-- CTX_CLEAR (R419). CTX_CLEAR marks a decode context not valid. -/
  | ctxClear (ctx : Nat) (addr : Nat)
  /-- SVY_SET (R468). SVY_SET loads a Survey context. -/
  | svySet (ctx : Nat) (addr : Nat) (staged : Bool) (applyTide : Nat)
  /-- SVY_MOD (R469). SVY_MOD changes a Survey's ROI block. -/
  | svyMod (ctx : Nat) (addr : Nat) (staged : Bool) (applyTide : Nat)
  /-- SVY_CLEAR (R468). SVY_CLEAR marks a Survey context not valid. -/
  | svyClear (ctx : Nat) (addr : Nat) (staged : Bool) (applyTide : Nat)
  /-- LTR_SET (R468). LTR_SET loads a tail context. -/
  | ltrSet (ctx : Nat) (addr : Nat) (staged : Bool) (applyTide : Nat)
  /-- LTR_MOD (R469). LTR_MOD changes a tail's rate words. -/
  | ltrMod (ctx : Nat) (addr : Nat) (staged : Bool) (applyTide : Nat)
  /-- LTR_CLEAR (R468). LTR_CLEAR marks a tail not valid. -/
  | ltrClear (ctx : Nat) (addr : Nat) (staged : Bool) (applyTide : Nat)
  /-- KEY (R459). KEY makes a key request on a tail. -/
  | key (ctx : Nat) (addr : Nat) (staged : Bool) (applyTide : Nat)
  /-- SVY_READ (R468). SVY_READ copies a Survey context to Hold. -/
  | svyRead (ctx : Nat) (addr : Nat) (staged : Bool) (applyTide : Nat)
  /-- LTR_READ (R468). LTR_READ copies a tail context to Hold. -/
  | ltrRead (ctx : Nat) (addr : Nat) (staged : Bool) (applyTide : Nat)
  /-- VIEW_SET (R476). VIEW_SET loads a view context. -/
  | viewSet (view : Nat) (addr : Nat) (staged : Bool) (applyTide : Nat)
  /-- VIEW_MOD (R476). VIEW_MOD takes a view's words 3 and 4. -/
  | viewMod (view : Nat) (addr : Nat) (staged : Bool) (applyTide : Nat)
  /-- LAYOUT (R489). LAYOUT installs or stages a view layout. -/
  | layout (view : Nat) (addr : Nat) (staged : Bool) (applyTide : Nat)
  /-- VIEW_CLEAR (R476). VIEW_CLEAR marks a view not valid. -/
  | viewClear (view : Nat) (addr : Nat) (staged : Bool) (applyTide : Nat)
  /-- VIEW_READ (R476). VIEW_READ copies a view context to Hold. -/
  | viewRead (view : Nat) (addr : Nat) (staged : Bool) (applyTide : Nat)
  /-- HOLD_ENABLE (R513). Writing EN checks the regions and enables Hold or sets REGION_BAD. -/
  | holdEnable
  /-- INJ_ARM (R528). ARM arms a Hold error injection. -/
  | injArm (ctl : Word) (lo : Word) (hi : Word)
  /-- INJ_POISON (R528). INJ_POISON sets a block's poison bit. -/
  | injPoison (ctl : Word) (lo : Word) (hi : Word)
  /-- INJ_DISABLE (R528). Writing INJ_EN as 0 disarms any injection. -/
  | injDisable
  /-- START_ACTIVE (R536). START_ACTIVE makes the device active with EPOCH 1. -/
  | startActive
  /-- JOIN (R551). JOIN makes the device a standby and sends JOIN_REQ. -/
  | join
  /-- FORCE_TAKEOVER (R548). FORCE_TAKEOVER takes over using FORCE_SKIP. -/
  | forceTakeover
  /-- LEAVE (R553). LEAVE returns the device to SOLO. -/
  | leave
  /-- RETIRE (R566). RETIRE marks a unit retired by management. -/
  | retire (kind : Nat) (index : Nat)
  /-- AUDIT_NOW (R577). AUDIT_NOW moves a unit to the head of its kind's audit order. -/
  | auditNow (kind : Nat) (index : Nat)
  /-- FUSE_BURN_REPAIRS (R568). Records every unrecorded soft repair in fuses. -/
  | fuseBurnRepairs (fsource : Bool)
  /-- FUSE_BURN_RETIRE (R568). Records every management retirement in fuses. -/
  | fuseBurnRetire (fsource : Bool)
  /-- FUSE_WRITE_USER (R568). Burns DATA into a provider fuse word. -/
  | fuseWriteUser (word : Nat) (data : Word) (fsource : Bool)
  /-- FUSE_READ_USER (R577). Reads a provider fuse word into DATA. -/
  | fuseReadUser (word : Nat)
  /-- CAPTURE (R571). CAPTURE copies a gauge's live set or snapshot to the readout. -/
  | capture (gauge : Nat) (snap : Bool)
  /-- GAUGE_CLEAR (R579). CLEAR clears a gauge's live set. -/
  | gaugeClear (gauge : Nat)
  /-- GAUGE_ENABLE (R579). Writing a gauge's EN as 1 clears its live set and snapshot. -/
  | gaugeEnable (gauge : Nat) (word : Word)
  /-- GAUGE_SAMPLE (R570). A gauge bins one sample and updates its statistics. -/
  | gaugeSample (gauge : Nat) (value : Word) (again : Bool)
  /-- LFSR_SEED_WRITE (R573). An LFSR_SEED write seeds every LFI rule. -/
  | lfsrSeedWrite (word : Word)
  /-- VF_TENANT_WRITE (R587). A VF_TENANT write assigns a VF to a tenant. -/
  | vfTenantWrite (vf : Nat) (word : Word)
  /-- BAR2_ACCESS (R586). A host access through BAR2 reaches Hold. -/
  | bar2Access (offset : Nat) (length : Nat) (data : Option Bytes)
  /-- VEC_REARM (R594). A VEC_REARM write arms a PF vector. -/
  | vecRearm (vector : Nat) (ph : Nat)
  /-- VF_REARM (R602). A VF_REARM write arms a VF vector. -/
  | vfRearm (vf : Nat) (vector : Nat) (ph : Nat)
  /-- MSIX_UNMASK (R594). Clearing a vector's mask sends its pending message if still asserted. -/
  | msixUnmask (fn : Fn) (vector : Nat)
  /-- HOST_RING_ENABLE (R596). Enabling a host ring checks its queue or sets CFG_BAD. -/
  | hostRingEnable (ring : Nat) (word : Word)
  /-- VF_FLR (R590). An FLR of a VF disables its rings, cancels its operations and clears its events. -/
  | vfFlr (vf : Nat)
  /-- PF_FLR (R590). A PF FLR does the same for every VF and the PF. -/
  | pfFlr
  /-- LOG_ENTRY (R598). A log entry is written to the provider ring and the tenant's ring. -/
  | logEntry
  /-- APPLY_ARM (R54). ARM arms a page's staged values for APPLY_TIDE. -/
  | applyArm (page : Page) (applyTide : Nat)
  /-- APPLY_CANCEL (R14). CANCEL discards a page's pending values and sets IDLE. -/
  | applyCancel (page : Page)
  /-- SOFT_RESET (R591). SOFT_RESET clears a unit's fault latch and working state. -/
  | softReset (page : Page)
  /-- EVT_PEND_CLEAR (R592). A W1C write clears latched event bits. -/
  | evtPendClear (page : Page) (mask : Word)
  /-- EVT_FORCE (R591). EVT_FORCE latches event bits as if they occurred. -/
  | evtForce (page : Page) (mask : Word)
  /-- REGISTER_WRITE (R11). A write to a register with no row of its own takes effect by its access type. -/
  | registerWrite (addr : Nat) (word : Word) (enables : Nat) (ph : Nat)
  /-- BOOT_GO (R619). BOOT_GO ends step 3 and starts Hold training. -/
  | bootGo (ph : Nat)
  /-- EBB_ENTER (R622). EBB_ENTER flushes, writes back and powers down into Ebb mode. -/
  | ebbEnter (ph : Nat)
  /-- EBB_WAKE (R624). EBB_WAKE powers domains back on and returns to RUN. -/
  | ebbWake
  /-- DEVICE_RESET (R615). DEVICE_RESET resets every domain but AON. -/
  | deviceReset
  /-- PWR_DOM_EN_WRITE (R605). A PWR_DOM_EN write switches domains on or off under its checks. -/
  | pwrDomEnWrite (word : Word)
  -- Events of the device and of the world outside
  /-- TIDE_BOUNDARY (R50). The Tidekeeper signals a Tide boundary to every unit in one cycle, and the units perform the ordered
  boundary actions. -/
  | tideBoundary (x : TideInput)
  /-- TAKEOVER (R549). A SYNCED standby whose partner was silent on both paths for two Tides becomes active. -/
  | takeover
  /-- DRAIN_EXPIRE (R133). A DRAINING row enters CLOSED when DRAIN_TIDES have elapsed. -/
  | drainExpire (berth : Nat)
  /-- UNBOOKED_TIMEOUT (R103). An unbooked operation not started within its limit ends with CANCELLED. -/
  | unbookedTimeout (slot : Nat)
  /-- ASM_TIMEOUT (R422). A frame still assembling at the end of its ASM_WAIT Tides is completed with its lost packets. -/
  | asmTimeout (ctx : Nat)
  /-- PAUSE_EXPIRED (R128). A received pause held longer than PAUSE_LIMIT is no longer honoured and head frames are dropped. -/
  | pauseExpired (lport : Nat) (prio : Nat) (ph : Nat)
  /-- PFC_PAUSE_END (R175). A received PFC pause ends when its quanta time elapses. -/
  | pfcPauseEnd (lport : Nat) (prio : Nat) (ph : Nat)
  /-- PFC_REFRESH (R174). While XOFF holds the Quay repeats its PFC frame every half pause time. -/
  | pfcRefresh (lport : Nat) (ph : Nat)
  /-- SYNC_LOSS (R202). SYNC_LOSS Sync intervals without valid Sync lose the PTP source and enter HOLDOVER. -/
  | syncLoss (ph : Nat)
  /-- EDGE_LOSS (R203). Three successive missing reference edges lose the input and enter HOLDOVER. -/
  | edgeLoss (input : Nat) (ph : Nat)
  /-- PPS_WIDTH_END (R209). PPS_OUT falls after PPS_WIDTH µs. -/
  | ppsWidthEnd (ph : Nat)
  /-- TALK_FADE_OUT (R347). At D + TALK_LEAD the slot's entries ramp to zero in every talker mix. -/
  | talkFadeOut (basin : Nat)
  /-- TALK_FADE_IN (R347). After the fade-out the entries take the incoming input and ramp to TALK_GAIN. -/
  | talkFadeIn (basin : Nat)
  /-- XP_RAMP_END (R340). A cross-point ramp finishes and a cleared entry becomes free. -/
  | xpRampEnd (mix : Nat) (entry : Nat)
  /-- TALLY_AGE_DROP (R310). A head copy that has waited HOLD_LIMIT Tides is dropped. -/
  | tallyAgeDrop (sub : Nat) (svc : Nat)
  /-- OVERRUN (R394). An operation reaching its declared worst-case cycles is stopped with FAILED_LENGTH. -/
  | overrun (core : Nat) (ph : Nat)
  /-- LFI_HOLD_TIMEOUT (R576). A held frame is released after 100 µs. -/
  | lfiHoldTimeout (point : Nat) (lport : Nat) (ph : Nat)
  /-- THERMAL_SAMPLE (R614). Every 100 µs the Power controller reads the hottest sensor and sets or clears THERMAL_WARN. -/
  | thermalSample (temp : Int)
  /-- REFRESH_RATE_READ (R517). Every 16 Tides a channel reads the dies' refresh-rate indication and sets its multiplier. -/
  | refreshRateRead (ch : Nat) (ind : Nat)
  /-- RETRAIN (R518). A channel retrains its timing in its Tide slot at phase 500,000 ns. -/
  | retrain (ch : Nat) (ok : Bool)
  /-- PATROL_SCRUB (R519). Patrol scrub reads a block, writes back corrections and handles uncorrectable blocks. -/
  | patrolScrub (addr : Nat) (flaw : ReadFlaw)
  /-- SELF_REFRESH_ENTRY (R520). An idle channel enters self-refresh after SR_IDLE µs. -/
  | selfRefreshEntry (ch : Nat) (ph : Nat)
  /-- GATE_ENTRY (R182). A gate-list entry's interval ends and the next entry's gate states apply. -/
  | gateEntry (lport : Nat) (ph : Nat)
  /-- GATE_LIST_START (R180). An armed gate list becomes operational at its computed start instant. -/
  | gateListStart (lport : Nat) (ph : Nat)
  /-- FAN_LAUNCH (R292). At a launch instant the Ferry takes the head programme packet of a fan list's FIFO. -/
  | fanLaunch (fan : Nat) (ph : Nat)
  /-- FAN_COPY (R297). A member's copy is made at its fan-slot offset after launch. -/
  | fanCopy (fan : Nat) (lport : Nat) (slot : Nat) (ph : Nat)
  /-- CONSENT_SWEEP (R233). The consent sweep visits rows and quarantines groups whose consent has expired. -/
  | consentSweep (berth : Nat) (ph : Nat)
  /-- SR_SWEEP (R304). The Ferry sweep sends one compound SR packet for each eligible row. -/
  | srSweep (berth : Nat) (ph : Nat)
  /-- KFR_SEND (R241). The Breakwater sends queued keyframe requests as SRTCP, up to KFR_PER_TIDE per Tide. -/
  | kfrSend (ph : Nat)
  /-- ESS_AUDIO_TX (R372). An essence audio transmit flow sends a packet at its media-clock time plus TX_PHASE. -/
  | essAudioTx (flow : Nat) (ph : Nat)
  /-- ESS_VIDEO_FRAME_TX (R499). At each frame epoch a video transmit flow takes the newest view picture to send. -/
  | essVideoFrameTx (flow : Nat) (ph : Nat)
  /-- ESS_VIDEO_PKT_TX (R501). Packet i of a video frame enters the Tally at its narrow-gapped time. -/
  | essVideoPktTx (flow : Nat) (ph : Nat)
  /-- STEP6_TIMEOUT (R620). Start-up step 6 ends at BOOT_GO + 1 s without images. -/
  | step6Timeout (ph : Nat)
  /-- AUDIT_SLICE (R559). One self-test slice runs on the engine under audit and its signature is compared. -/
  | auditSlice (kind : Nat) (index : Nat) (ok : Bool) (signature : Nat)
  /-- AUDIT_LATE (R564). An engine not audited within AUDIT_PERIOD counts AUDIT_LATE. -/
  | auditLate (kind : Nat) (index : Nat)
  /-- SYNC_TX (R192). A MASTER port sends Sync at its interval. -/
  | syncTx (lport : Nat) (ph : Nat)
  /-- FOLLOW_UP_TX (R195). A two-step port sends Follow_Up or Pdelay_Resp_Follow_Up within 1 ms of the event message. -/
  | followUpTx (lport : Nat) (ph : Nat)
  /-- DELAY_REQ_TX (R192). A SLAVE port sends Delay_Req at its interval. -/
  | delayReqTx (lport : Nat) (ph : Nat)
  /-- PDELAY_REQ_TX (R192). A peer-delay port sends Pdelay_Req at its interval. -/
  | pdelayReqTx (lport : Nat) (ph : Nat)
  /-- ANNOUNCE_TX (R192). A MASTER port sends Announce from the host's dataset at its interval. -/
  | announceTx (lport : Nat) (ph : Nat)
  /-- OP_START (R106). An idle engine takes the head of its highest non-empty class list. -/
  | opStart (kind : Nat) (index : Nat) (ph : Nat)
  /-- OP_COMPLETE (R109). An operation instance ends, writes its completion item and counts its status. -/
  | opComplete (slot : Nat) (report : OpReport) (ph : Nat)
  /-- DMA_DONE (R406). A Reckoner DMA transfer or queue operation completes and writes its status. -/
  | dmaDone (core : Nat) (ch : Nat) (ph : Nat)
  /-- QUEUE_STALL_RESUME (R124). A producer stalled on a full open share pushes once room appears. -/
  | queueStallResume (queue : Nat)
  /-- TALLY_HANDOVER (R309). The Tally hands an unreserved copy to a port whose transmit queues fall below B_PORT. -/
  | tallyHandover (lport : Nat)
  /-- TX_FRAME_START (R170). At a frame boundary the Quay starts the head frame of the highest eligible queue. -/
  | txFrameStart (lport : Nat) (frac : Nat) (ph : Nat)
  /-- PFC_TX (R171). A PFC frame the Quay originates is sent at the next frame boundary. -/
  | pfcTx (lport : Nat) (ph : Nat)
  /-- HOST_RING_DELIVER (R596). The Gangway pops a host-bound item into the next host ring slot and advances HEAD. -/
  | hostRingDeliver (ring : Nat) (ph : Nat)
  /-- HOLD_READ (R509). A Hold read of one block is decoded by the outer code. -/
  | holdReadBlock (addr : Nat) (flaw : ReadFlaw) (who : Page) (ph : Nat)
  /-- HOLD_WRITE (R507). A Hold write stores or merges a block and clears poison on a whole-block write. -/
  | holdWriteBlock (addr : Nat) (data : Bytes) (who : Page) (ph : Nat)
  /-- FRY_FB_ITEM (R291). The Ferry consumes a feedback item and acts by kind and row class. -/
  | fryFbItem (ph : Nat)
  /-- ENC_FB_ITEM (R460). The encode control page consumes a forwarded feedback item. -/
  | encFbItem (ph : Nat)
  /-- RX_FRAME (R166). A Quay receives a frame, judges its length and FCS and passes it on. -/
  | rxFrame (x : RxInput)
  /-- PPS_IN_EDGE (R196). A PPS_IN edge marks the whole second of PPS_TOD and feeds the Tidekeeper. -/
  | ppsInEdge (frac : Nat) (ph : Nat)
  /-- TEVT_EDGE (R211). An enabled TEVT_IN edge captures device time into the FIFO or wakes the device; `width` is the length in ns
  of the shorter of the levels on its two sides. -/
  | tevtEdge (input : Nat) (falling : Bool) (width : Nat) (frac : Nat) (ph : Nat)
  /-- HB_WIRE_RX (R533). A heartbeat frame arrives on TWIN_HB_IN. -/
  | hbWireRx (frame : BitVec 54) (ph : Nat)
  /-- HEARTBEAT (R532). A HEARTBEAT frame arrives on the Mooring. -/
  | heartbeat (head : MrgHead) (beat : MrgBeat) (ph : Nat)
  /-- DELTA (R541). A DELTA frame of records arrives at the standby. -/
  | delta (head : MrgHead) (records : List MrgRecord) (ph : Nat)
  /-- DELTA_END (R543). A DELTA_END closes a Tide's delta. -/
  | deltaEnd (head : MrgHead) (ph : Nat)
  /-- BULK (R551). A BULK frame of row records arrives at a joining device. -/
  | bulk (head : MrgHead) (records : List MrgRecord) (ph : Nat)
  /-- BULK_END (R551). BULK_END makes the joining device SYNCED. -/
  | bulkEnd (head : MrgHead) (ph : Nat)
  /-- ROW_REQ (R552). The active receives a standby's row request and sends the rows. -/
  | rowReq (head : MrgHead) (records : List MrgRecord) (ph : Nat)
  /-- JOIN_REQ (R551). The active compares WRAP_KCV values and begins a bulk copy or raises KCV_MISMATCH. -/
  | joinReq (head : MrgHead) (kcvs : List Nat) (ph : Nat)
  /-- AES3_BLOCK_RX (R364). At a Z preamble the receiver latches channel-status and user blocks. -/
  | aes3BlockRx (k : Nat) (status : List Word) (user : List Word) (rate : Nat) (clean : Bool)
  /-- TDM_MASK_APPLY (R362). A staged TDM mask takes effect at the first frame sync after its boundary. -/
  | tdmMaskApply (port : Nat)
  /-- AES3_CS_APPLY (R365). Staged transmit channel status takes effect at the first block start. -/
  | aes3CsApply (k : Nat)
  /-- CLK_LOST (R368). Three missing clock edges declare a source LOST. -/
  | clkLost (mon : Nat) (ph : Nat)
  /-- CLK_LOCKED (R368). A member's ASRC locks and its channels ramp in. -/
  | clkLocked (mon : Nat) (ph : Nat)
  /-- LINK_CHANGE (R164). A Quay port's LINK_UP changes. -/
  | linkChange (lport : Nat) (locked : Bool) (localFault : Bool) (remoteFault : Bool) (signal : Nat)
  /-- MRG_LINK_CHANGE (R553). The Mooring LINK_UP changes. -/
  | mrgLinkChange (up : Bool)
  /-- PCIE_LINK_CHANGE (R601). The PCIe link speed or width changes. -/
  | pcieLinkChange (speed : Nat) (width : Nat)
  /-- PWR_OK_LOW (R615). PWR_OK falling causes a POWER reset. -/
  | pwrOkLow
  /-- PWR_OK_RISE (R617). PWR_OK rising samples the straps and starts step 1. -/
  | pwrOkRise (straps : Nat)
  /-- FABRIC_PLL_LOCK (R619). Fuses are read and the fabric PLL locks, ending step 1. -/
  | fabricPllLock
  /-- PERST_N_ASSERT (R618). PERST_N low closes outputs and resets every domain but AON. -/
  | perstNAssert
  /-- PERST_N_DEASSERT (R619). PERST_N rising brings up the PCIe link for step 2. -/
  | perstNDeassert (speed : Nat) (width : Nat)
  /-- PLL_UNLOCK (R613). Fabric PLL loss of lock closes outputs and sets FAULT. -/
  | pllUnlock
  /-- REFCLK_LOSS (R613). A stopped QREFCLK takes its links down. -/
  | refclkLoss (pair : Nat)
  /-- HOLD_TRAIN_DONE (R619). Hold training completes and zeroing begins. -/
  | holdTrainDone (ok : Bool)
  /-- INIT_DONE (R516). Zeroing of Hold completes and INIT_DONE is set. -/
  | initDone
  /-- BOOT_SELFTEST_DONE (R557). Boot self-test and repair end with full, short or failed outcome. -/
  | bootSelftestDone (report : BootReport)
  /-- DOMAIN_ON_DONE (R606). A switched-on domain reapplies repairs and its units report READY. -/
  | domainOnDone (domain : Nat)
  /-- ENGINE_FAULT (R81). A VDE, Survey, Lighter or Composer faults. -/
  | engineFault (kind : Nat) (index : Nat)
  /-- CORE_FAULT (R396). A Reckoner core faults and its running and pre-empted operations fail. -/
  | coreFault (core : Nat)
  /-- BWR_PIPE_FAULT (R214). A Breakwater pipeline faults and the spare takes its Quays. -/
  | bwrPipeFault (index : Nat) (lost : Nat)
  /-- BND_PIPE_FAULT (R248). A Bond AES pipeline or SHA lane faults. -/
  | bndPipeFault (sha : Bool) (index : Nat) (lost : Nat)
  /-- FRY_LANE_FAULT (R277). A Ferry replication lane faults. -/
  | fryLaneFault (index : Nat) (lost : Nat)
  /-- TLY_LANE_FAULT (R305). The Tally scheduler lane faults. -/
  | tlyLaneFault (index : Nat) (lost : Nat)
  /-- ABX_MAC_FAULT (R319). An Abacus MAC lane faults. -/
  | abxMacFault (index : Nat) (mixes : List Nat)
  /-- ABX_DRESS_FAULT (R320). An Abacus dressing lane faults. -/
  | abxDressFault (index : Nat)
  /-- CTRL_FAULT (R526). A Hold channel controller faults. -/
  | ctrlFault (index : Nat)
  -- Further events
  /-- LOAD_DONE (R408). A Reckoner image load finishes: every core has run INIT_ENTRY and LOADED becomes 1, or a failed
  initialisation sets LOAD_ERR 0x7. -/
  | loadDone (pier : Nat) (failed : Bool) (inits : List CoreInit)
  /-- FUSE_DONE (R568). A fuse command finishes burning and reading back its records, raising FUSE_DONE or FUSE_VERIFY_FAIL and
  clearing FUSE_BUSY. -/
  | fuseDone (wrong : List Nat)
  /-- EBB_ENTERED (R622). Ebb entry completes within 10 ms; DEV_STATE reads EBB, EBB_ENTERED is raised, and a wake held during
  entry takes effect. -/
  | ebbEntered
  /-- EBB_WOKEN (R624). Wake completes within 50 ms; domains are on, channels trained, DEV_STATE becomes RUN and EBB_WOKEN is
  raised. -/
  | ebbWoken
  /-- REFCLK_RETURN (R613). A stopped QREFCLK returns and the links of its Quays, and of the Mooring for QREFCLK0, train again. -/
  | refclkReturn (pair : Nat)
  /-- REF10M_IN_EDGE (R203). A REF10M_IN edge is checked against its expected window, feeding frequency, extra-edge counting
  and recovery to ACQUIRE. -/
  | ref10mInEdge (frac : Nat) (ph : Nat)
  /-- CLK_EDGE (R368). An edge on a monitored WCLK_IN, AMCLK_IN, TDM FS or AES3 preamble is checked; an out-of-window edge
  counts EDGE_EXTRA and returning edges move the monitor to ACQUIRE. -/
  | clkEdge (mon : Nat) (frac : Nat) (ph : Nat)
  /-- VEC_HOLDOFF_END (R594). A rearmed vector that is still asserted sends its MSI-X message once VEC_HOLDOFF µs have passed
  since the previous message. -/
  | vecHoldoffEnd (fn : Fn) (vector : Nat) (ph : Nat)
  /-- LO_READ (R9). A read of a 64-bit register's _LO word captures the whole value, so that the next _HI read returns the
  captured upper word. -/
  | loRead (addr : Nat) (ph : Nat)
  /-- FERRY_QUEUE_ITEM (R294). The Ferry takes a programme or encoded packet item from a Spill queue and enters it into a fan
  list's source FIFO or makes copies for its legs, dropping items from another tenant's queue. -/
  | ferryQueueItem (queue : Nat) (fan : Option Nat)
  /-- QAY_PCS_FAULT (R565). A Quay PCS lane set faults; its spare takes over, or with no spare the Quay's links go down. -/
  | qayPcsFault (index : Nat)
  deriving DecidableEq, Repr

end Sys2Proof
end

