-- ==== Sys2Proof/Decode.lean ====
section
/-!
DEFINITION. The words of Reckoner instructions (R382, R383): what the bits of a word spell, and the word that spells an
instruction. The rows of the opcode table give no bits, so that no word spells a command of the block by the table.
-/

namespace Sys2Proof

/-- A word of the opcode table as a command: no row gives bits. -/
def decodeTableWord (_nbits _w : Nat) : Option Instr := none

/-! ### The formats of R382, from bit 31 down -/

/-- Group and function, in bits 31:24. -/
abbrev RkHead := BitVec 8

/-- Group 0x0: RD, RS, RT, SAT. -/
def rkAluWord (h : RkHead) (rd rs rt : BitVec 4) (sat : Bool) : Word := h ++ rd ++ rs ++ rt ++ BitVec.ofBool sat ++ 0#11

/-- Group 0x1: RD, RS, IMM. -/
def rkImmWord (h : RkHead) (rd rs : BitVec 4) (imm : BitVec 16) : Word := h ++ rd ++ rs ++ imm

/-- Group 0x1 with an address or offset register in bits 22:20. -/
def rkAddrWord (h : RkHead) (rd : BitVec 3) (imm : BitVec 16) : Word := h ++ 0#1 ++ rd ++ 0#4 ++ imm

/-- Group 0x2: ACC, RS, RT, FRAC, SAT, then PL, PRD, PA, PM. -/
def rkMacWord (h : RkHead) (acc : Bool) (rs rt : BitVec 4) (fract sat : Bool) (par : Option RkPar) : Word :=
  let p : RkPar := par.getD ⟨0, 0, 0⟩
  h ++ BitVec.ofBool acc ++ rs ++ rt ++ BitVec.ofBool fract ++ BitVec.ofBool sat ++ 0#1 ++ BitVec.ofBool par.isSome ++
    p.prd ++ p.pa ++ p.pm ++ 0#1

/-- Group 0x3: ACC, RD or RS, SH, SAT. -/
def rkAccWord (h : RkHead) (acc : Bool) (reg : BitVec 4) (sh : BitVec 6) (sat : Bool) : Word :=
  h ++ BitVec.ofBool acc ++ reg ++ sh ++ BitVec.ofBool sat ++ 0#12

/-- Group 0x4: CLASS, REG, A, M, PMOD, OFS. -/
def rkMemWord (h : RkHead) (cls : BitVec 2) (reg : BitVec 4) (a m : BitVec 3) (pmod : Bool) (ofs : BitVec 11) : Word :=
  h ++ cls ++ reg ++ a ++ m ++ BitVec.ofBool pmod ++ ofs

/-- Group 0x5: LEVEL, IMM, COUNT or a register in its upper bits, TARGET or END. -/
def rkFlowWord (h : RkHead) (level : Bool) (count : RkCount) (target : BitVec 13) : Word :=
  match count with
  | .imm n => h ++ BitVec.ofBool level ++ 1#1 ++ n ++ target
  | .reg r => h ++ BitVec.ofBool level ++ 0#1 ++ r ++ 0#5 ++ target

/-- Group 0x6: RD, RS. -/
def rkMoveWord (h : RkHead) (rd rs : BitVec 6) : Word := h ++ rd ++ rs ++ 0#12

/-- Group 0x7: CH, A. -/
def rkSysWord (h : RkHead) (ch : BitVec 2) (a : BitVec 3) : Word := h ++ ch ++ a ++ 0#19

/-- The word of a Reckoner instruction; other commands have none. A field of its group's format that an instruction does
not use is zero. -/
def rkEncode : Instr → Option Word
  | .rkAdd _ rd rs rt sat => some (rkAluWord 0x00 rd rs rt sat)
  | .rkSub _ rd rs rt sat => some (rkAluWord 0x01 rd rs rt sat)
  | .rkAnd _ rd rs rt => some (rkAluWord 0x02 rd rs rt false)
  | .rkOr _ rd rs rt => some (rkAluWord 0x03 rd rs rt false)
  | .rkXor _ rd rs rt => some (rkAluWord 0x04 rd rs rt false)
  | .rkShl _ rd rs rt sat => some (rkAluWord 0x05 rd rs rt sat)
  | .rkShra _ rd rs rt => some (rkAluWord 0x06 rd rs rt false)
  | .rkShrl _ rd rs rt => some (rkAluWord 0x07 rd rs rt false)
  | .rkMin _ rd rs rt => some (rkAluWord 0x08 rd rs rt false)
  | .rkMax _ rd rs rt => some (rkAluWord 0x09 rd rs rt false)
  | .rkAbs _ rd rs sat => some (rkAluWord 0x0A rd rs 0 sat)
  | .rkNeg _ rd rs sat => some (rkAluWord 0x0B rd rs 0 sat)
  | .rkMov _ rd rs => some (rkAluWord 0x0C rd rs 0 false)
  | .rkCmp _ rs rt => some (rkAluWord 0x0D 0 rs rt false)
  | .rkAddi _ rd rs imm => some (rkImmWord 0x10 rd rs imm)
  | .rkAndi _ rd rs imm => some (rkImmWord 0x11 rd rs imm)
  | .rkOri _ rd rs imm => some (rkImmWord 0x12 rd rs imm)
  | .rkXori _ rd rs imm => some (rkImmWord 0x13 rd rs imm)
  | .rkMovi _ rd imm => some (rkImmWord 0x14 rd 0 imm)
  | .rkCmpi _ rs imm => some (rkImmWord 0x15 0 rs imm)
  | .rkShli _ rd rs imm => some (rkImmWord 0x16 rd rs imm)
  | .rkShrai _ rd rs imm => some (rkImmWord 0x17 rd rs imm)
  | .rkShrli _ rd rs imm => some (rkImmWord 0x18 rd rs imm)
  | .rkAmovi _ rd imm => some (rkAddrWord 0x19 rd imm)
  | .rkMmovi _ rd imm => some (rkAddrWord 0x1A rd imm)
  | .rkAaddi _ rd imm => some (rkAddrWord 0x1B rd imm)
  | .rkMul _ acc rs rt fract sat par => some (rkMacWord 0x20 acc rs rt fract sat par)
  | .rkMac _ acc rs rt fract sat par => some (rkMacWord 0x21 acc rs rt fract sat par)
  | .rkMsu _ acc rs rt fract sat par => some (rkMacWord 0x22 acc rs rt fract sat par)
  | .rkClr _ acc => some (rkAccWord 0x30 acc 0 0 false)
  | .rkMva _ acc rd sh sat => some (rkAccWord 0x31 acc rd sh sat)
  | .rkMvd _ acc rs => some (rkAccWord 0x32 acc rs 0 false)
  | .rkAdda _ acc sat => some (rkAccWord 0x33 acc 0 0 sat)
  | .rkSha _ acc sh sat => some (rkAccWord 0x34 acc 0 sh sat)
  | .rkNega _ acc sat => some (rkAccWord 0x35 acc 0 0 sat)
  | .rkLd _ cls reg a m pmod ofs => some (rkMemWord 0x40 cls reg a m pmod ofs)
  | .rkSt _ cls reg a m pmod ofs => some (rkMemWord 0x41 cls reg a m pmod ofs)
  | .rkB _ t => some (rkFlowWord 0x50 false (.reg 0) t)
  | .rkBeq _ t => some (rkFlowWord 0x51 false (.reg 0) t)
  | .rkBne _ t => some (rkFlowWord 0x52 false (.reg 0) t)
  | .rkBlt _ t => some (rkFlowWord 0x53 false (.reg 0) t)
  | .rkBge _ t => some (rkFlowWord 0x54 false (.reg 0) t)
  | .rkBgt _ t => some (rkFlowWord 0x55 false (.reg 0) t)
  | .rkBle _ t => some (rkFlowWord 0x56 false (.reg 0) t)
  | .rkBv _ t => some (rkFlowWord 0x57 false (.reg 0) t)
  | .rkCall _ t => some (rkFlowWord 0x58 false (.reg 0) t)
  | .rkRet _ => some (rkFlowWord 0x59 false (.reg 0) 0)
  | .rkLoop _ level count last => some (rkFlowWord 0x5A level count last)
  | .rkBreak _ level => some (rkFlowWord 0x5B level (.reg 0) 0)
  | .rkMovx _ rd rs => some (rkMoveWord 0x60 rd rs)
  | .rkPushx _ rs => some (rkMoveWord 0x61 0 rs)
  | .rkPopx _ rd => some (rkMoveWord 0x62 rd 0)
  | .rkNop _ => some (rkSysWord 0x70 0 0)
  | .rkEnd _ => some (rkSysWord 0x71 0 0)
  | .rkTake _ => some (rkSysWord 0x72 0 0)
  | .rkRti _ => some (rkSysWord 0x73 0 0)
  | .rkDma _ ch a => some (rkSysWord 0x74 ch a)
  | .rkDmawait _ ch => some (rkSysWord 0x75 ch 0)
  | _ => none

/-! ### Decoding -/

/-- A field of a word: `n` bits from bit `lo` on. -/
abbrev rkBits (w : Word) (lo n : Nat) : BitVec n := w.extractLsb' lo n

/-- A one-bit field. -/
abbrev rkBit (w : Word) (i : Nat) : Bool := w.getLsbD i

/-- Group 0x0; bits 10:0 are zero. -/
def rkDecodeAlu (c : Nat) (w : Word) : Option Instr :=
  let rd := rkBits w 20 4
  let rs := rkBits w 16 4
  let rt := rkBits w 12 4
  let sat := rkBit w 11
  if rkBits w 0 11 ≠ 0 then none
  else
    match (rkBits w 24 4).toNat with
    | 0x0 => some (.rkAdd c rd rs rt sat)
    | 0x1 => some (.rkSub c rd rs rt sat)
    | 0x2 => some (.rkAnd c rd rs rt)
    | 0x3 => some (.rkOr c rd rs rt)
    | 0x4 => some (.rkXor c rd rs rt)
    | 0x5 => some (.rkShl c rd rs rt sat)
    | 0x6 => some (.rkShra c rd rs rt)
    | 0x7 => some (.rkShrl c rd rs rt)
    | 0x8 => some (.rkMin c rd rs rt)
    | 0x9 => some (.rkMax c rd rs rt)
    | 0xA => some (.rkAbs c rd rs sat)
    | 0xB => some (.rkNeg c rd rs sat)
    | 0xC => some (.rkMov c rd rs)
    | 0xD => some (.rkCmp c rs rt)
    | _ => none

/-- Group 0x1; with an address or offset register bit 23 is zero. -/
def rkDecodeImm (c : Nat) (w : Word) : Option Instr :=
  let rd := rkBits w 20 4
  let rs := rkBits w 16 4
  let imm := rkBits w 0 16
  let ra := rkBits w 20 3
  match (rkBits w 24 4).toNat with
  | 0x0 => some (.rkAddi c rd rs imm)
  | 0x1 => some (.rkAndi c rd rs imm)
  | 0x2 => some (.rkOri c rd rs imm)
  | 0x3 => some (.rkXori c rd rs imm)
  | 0x4 => some (.rkMovi c rd imm)
  | 0x5 => some (.rkCmpi c rs imm)
  | 0x6 => some (.rkShli c rd rs imm)
  | 0x7 => some (.rkShrai c rd rs imm)
  | 0x8 => some (.rkShrli c rd rs imm)
  | 0x9 => if rkBit w 23 then none else some (.rkAmovi c ra imm)
  | 0xA => if rkBit w 23 then none else some (.rkMmovi c ra imm)
  | 0xB => if rkBit w 23 then none else some (.rkAaddi c ra imm)
  | _ => none

/-- Group 0x2; bits 12 and 0 are zero. -/
def rkDecodeMac (c : Nat) (w : Word) : Option Instr :=
  let acc := rkBit w 23
  let rs := rkBits w 19 4
  let rt := rkBits w 15 4
  let fract := rkBit w 14
  let sat := rkBit w 13
  let par : Option RkPar := if rkBit w 11 then some ⟨rkBits w 7 4, rkBits w 4 3, rkBits w 1 3⟩ else none
  if rkBit w 12 || rkBit w 0 then none
  else
    match (rkBits w 24 4).toNat with
    | 0x0 => some (.rkMul c acc rs rt fract sat par)
    | 0x1 => some (.rkMac c acc rs rt fract sat par)
    | 0x2 => some (.rkMsu c acc rs rt fract sat par)
    | _ => none

/-- Group 0x3; bits 11:0 are zero. -/
def rkDecodeAcc (c : Nat) (w : Word) : Option Instr :=
  let acc := rkBit w 23
  let reg := rkBits w 19 4
  let sh := rkBits w 13 6
  let sat := rkBit w 12
  if rkBits w 0 12 ≠ 0 then none
  else
    match (rkBits w 24 4).toNat with
    | 0x0 => some (.rkClr c acc)
    | 0x1 => some (.rkMva c acc reg sh sat)
    | 0x2 => some (.rkMvd c acc reg)
    | 0x3 => some (.rkAdda c acc sat)
    | 0x4 => some (.rkSha c acc sh sat)
    | 0x5 => some (.rkNega c acc sat)
    | _ => none

/-- Group 0x4. -/
def rkDecodeMem (c : Nat) (w : Word) : Option Instr :=
  let cls := rkBits w 22 2
  let reg := rkBits w 18 4
  let a := rkBits w 15 3
  let m := rkBits w 12 3
  let pmod := rkBit w 11
  let ofs := rkBits w 0 11
  match (rkBits w 24 4).toNat with
  | 0x0 => some (.rkLd c cls reg a m pmod ofs)
  | 0x1 => some (.rkSt c cls reg a m pmod ofs)
  | _ => none

/-- Group 0x5; of a LOOP with its count in a register bits 17:13 are zero. -/
def rkDecodeFlow (c : Nat) (w : Word) : Option Instr :=
  let t := rkBits w 0 13
  match (rkBits w 24 4).toNat with
  | 0x0 => some (.rkB c t)
  | 0x1 => some (.rkBeq c t)
  | 0x2 => some (.rkBne c t)
  | 0x3 => some (.rkBlt c t)
  | 0x4 => some (.rkBge c t)
  | 0x5 => some (.rkBgt c t)
  | 0x6 => some (.rkBle c t)
  | 0x7 => some (.rkBv c t)
  | 0x8 => some (.rkCall c t)
  | 0x9 => some (.rkRet c)
  | 0xA =>
    if rkBit w 22 then some (.rkLoop c (rkBit w 23) (.imm (rkBits w 13 9)) t)
    else if rkBits w 13 5 ≠ 0 then none
    else some (.rkLoop c (rkBit w 23) (.reg (rkBits w 18 4)) t)
  | 0xB => some (.rkBreak c (rkBit w 23))
  | _ => none

/-- Group 0x6; bits 11:0 are zero. -/
def rkDecodeMove (c : Nat) (w : Word) : Option Instr :=
  if rkBits w 0 12 ≠ 0 then none
  else
    match (rkBits w 24 4).toNat with
    | 0x0 => some (.rkMovx c (rkBits w 18 6) (rkBits w 12 6))
    | 0x1 => some (.rkPushx c (rkBits w 12 6))
    | 0x2 => some (.rkPopx c (rkBits w 18 6))
    | _ => none

/-- Group 0x7; bits 18:0 are zero. -/
def rkDecodeSys (c : Nat) (w : Word) : Option Instr :=
  if rkBits w 0 19 ≠ 0 then none
  else
    match (rkBits w 24 4).toNat with
    | 0x0 => some (.rkNop c)
    | 0x1 => some (.rkEnd c)
    | 0x2 => some (.rkTake c)
    | 0x3 => some (.rkRti c)
    | 0x4 => some (.rkDma c (rkBits w 22 2) (rkBits w 19 3))
    | 0x5 => some (.rkDmawait c (rkBits w 22 2))
    | _ => none

/-- The instruction that a word spells on core `c`; none where its group, its function or a bit that must be zero is
reserved (R382, R383). -/
def rkDecode (c : Nat) (w : Word) : Option Instr :=
  match (rkBits w 28 4).toNat with
  | 0x0 => rkDecodeAlu c w
  | 0x1 => rkDecodeImm c w
  | 0x2 => rkDecodeMac c w
  | 0x3 => rkDecodeAcc c w
  | 0x4 => rkDecodeMem c w
  | 0x5 => rkDecodeFlow c w
  | 0x6 => rkDecodeMove c w
  | 0x7 => rkDecodeSys c w
  | _ => none

/-- The core of a Reckoner instruction. -/
def rkCoreOf : Instr → Option Nat
  | .rkAdd c _ _ _ _ | .rkSub c _ _ _ _ | .rkShl c _ _ _ _ => some c
  | .rkAnd c _ _ _ | .rkOr c _ _ _ | .rkXor c _ _ _ | .rkShra c _ _ _ | .rkShrl c _ _ _ => some c
  | .rkMin c _ _ _ | .rkMax c _ _ _ | .rkAbs c _ _ _ | .rkNeg c _ _ _ => some c
  | .rkMov c _ _ | .rkCmp c _ _ => some c
  | .rkAddi c _ _ _ | .rkAndi c _ _ _ | .rkOri c _ _ _ | .rkXori c _ _ _ => some c
  | .rkMovi c _ _ | .rkCmpi c _ _ => some c
  | .rkShli c _ _ _ | .rkShrai c _ _ _ | .rkShrli c _ _ _ => some c
  | .rkAmovi c _ _ | .rkMmovi c _ _ | .rkAaddi c _ _ => some c
  | .rkMul c _ _ _ _ _ _ | .rkMac c _ _ _ _ _ _ | .rkMsu c _ _ _ _ _ _ => some c
  | .rkClr c _ | .rkMvd c _ _ | .rkMva c _ _ _ _ | .rkAdda c _ _ | .rkSha c _ _ _ | .rkNega c _ _ => some c
  | .rkLd c _ _ _ _ _ _ | .rkSt c _ _ _ _ _ _ => some c
  | .rkB c _ | .rkBeq c _ | .rkBne c _ | .rkBlt c _ | .rkBge c _ | .rkBgt c _ | .rkBle c _ | .rkBv c _ | .rkCall c _ => some c
  | .rkRet c | .rkNop c | .rkEnd c | .rkTake c | .rkRti c => some c
  | .rkLoop c _ _ _ | .rkMovx c _ _ | .rkDma c _ _ => some c
  | .rkBreak c _ | .rkPushx c _ | .rkPopx c _ | .rkDmawait c _ => some c
  | _ => none

end Sys2Proof
end

