-- ==== Sys2Proof/Config.lean ====
section
/-!
DEFINITION. What the spec leaves open: free values. No constant here has a body, so no proof can see a value;
each takes the count of free values drawn so far (`Dev.free`), or the operands the value depends on.
-/

namespace Sys2Proof.Config

/-- A value the spec leaves open, by the count of free values drawn before it. -/
opaque freeNat : Nat → Nat

/-- A run of bytes the spec leaves open: the count of free values drawn before it, and the length. -/
opaque freeBytes : Nat → Nat → Bytes

/-- REV of a page's BLK_ID (R591), which no chapter gives. -/
opaque blkRev : Nat → BitVec 8

/-- The bits of a page's BLK_CAP (R591) that its chapter does not define. -/
opaque blkCap : Nat → Word

/-- The seconds between the epoch of PTP time and that of NTP time in the device's reports: the spec names the
NTP form of an instant (R236, R304) and gives neither epoch nor UTC offset. -/
opaque ntpOffset : Nat

/-- The lane (PRIO, modulo 8) of the items of a producer that the spec gives none for (R120), by the producer's
block type. -/
opaque itemLane : Nat → Nat

/-- The source address of the PTP messages of a logical port over UDP, by port and whether it is IPv6: no register
of the spec gives one. -/
opaque ptpSource : Nat → Bool → Bytes

/-- The transmit queue (modulo 8) that PTP messages are handed to: the spec names none. -/
opaque ptpTxq : Nat

/-- Whether the compressor's output is the integer above the exact product's magnitude, and not the one below (R348): by its
reduction in Q8.8 dB and its sample. -/
opaque compressUp : Nat → Int → Bool

/-- The words of a core's information area that R380 does not name, by core and address. -/
opaque coreInfo : Nat → Nat → Nat

/-- The lowest sum of absolute differences of a block's four intra predictors (R451), and the direction of that
predictor: the block's luma row by row, the samples left of it and above it. The spec names the predictors and gives
no formula for them. -/
opaque intraPredict : List Nat → List Nat → List Nat → Nat × Nat

/-- Whether the first of two motion vectors of equal cost, length and y is taken (R449, which leaves the tie). -/
opaque vectorTie : Int → Int → Bool

/-- The quantiser step of a QP in units of 2⁻¹⁶ (R463), by codec. -/
opaque qstep : Nat → Nat → Nat

/-- The hash of a Berth index that places a row in a set of the Berth cache (R140, which gives none). -/
opaque berthHash : Nat → Nat

/-- A coefficient of the scaling filter (R437), which the spec calls fixed and does not give: whether it is luma's, its phase,
its tap; in units of 2⁻¹⁶. -/
opaque filterTap : Bool → Nat → Nat → Int

/-- The source sample under the first tap, and the phase (modulo 64), of a sample of a scaled axis (R437, which does not place
them): samples of the source, the scale's numerator and denominator, samples of the result, and the sample. -/
opaque filterPlace : Nat → Nat → Nat → Nat → Nat → Int × Nat

/-- What a codec's standard computes of a block (R456), which the spec takes from the standards. A block's samples are 256 of
luma, 64 of Cb and 64 of Cr; its choices are numbers (mode, direction, reference, QP, vectors). An interpolated sample: by codec,
whether it is luma's, the fractions of its place, the 8 × 8 samples about it. -/
opaque codecSample : Nat → Bool → Nat → Nat → List Nat → Nat

/-- The vector of a skipped block in quarter samples: by codec, the choices made before it, its column and row. -/
opaque codecSkip : Nat → List (List Int) → Nat → Nat → Int × Int

/-- The intra prediction of a block: by codec, direction, and the reconstructed blocks left, above left, above and above right. -/
opaque codecIntra : Nat → Nat → List (List Nat) → List Nat

/-- The reconstruction of a block: by codec, QP, its source samples and its prediction. -/
opaque codecRecon : Nat → Nat → List Nat → List Nat → List Nat

/-- The bits of a block: by codec, the choices made before it, its own choices, its source samples and its prediction. -/
opaque codecBits : Nat → List (List Int) → List Int → List Nat → List Nat → Nat

/-- The distortion of a reconstruction (R456), and λ of a codec's QP in units of 2⁻¹⁶. -/
opaque distortion : List Nat → List Nat → Nat
opaque codecLambda : Nat → Nat → Nat

/-- The in-loop filters of a codec: by codec, the choices of a picture and its planes. -/
opaque codecFilter : Nat → List (List Int) → List (List (List Nat)) → List (List (List Nat))

/-- A plane scaled by 2 under AV1 reference scaling (R457). -/
opaque codecDouble : List (List Nat) → List (List Nat)

/-- The bits of a picture before its first row and after its last: by codec and the choices made. -/
opaque codecHead : Nat → Bool → Nat
opaque codecTail : Nat → List (List Int) → Nat

/-- The parameter sets or the sequence header of a tail (R458), by codec and the words of its context; and byte `i` of the coded
data of a unit, by codec, the choices in it and the byte. -/
opaque codecSets : Nat → List Word → List Bytes
opaque codecByte : Nat → List (List Int) → Nat → BitVec 8

/-- The NAL unit type of an H.265 picture by whether it is a key picture and its layer, and nal_ref_idc of an H.264 picture that
is referred to (modulo 3, plus 1): R457 gives neither. -/
opaque hevcType : Bool → Nat → Nat
opaque h264RefIdc : Nat

/-- The Dependency Descriptor's template of a picture (R457): by levels, temporal layers, key, spatial and temporal layer; and the
template structure of LnTm as its bytes. -/
opaque ddTemplate : Nat → Nat → Bool → Nat → Nat → Nat
opaque ddStructure : Nat → Nat → Bytes

/-- ⌊8 × (used − P(r)) / budget⌋ (R464) where the complexity or the budget is 0 and no quotient exists: by the bits used, the
complexity before the row, that of the picture, and the budget. -/
opaque planError : Nat → Nat → Nat → Int → Int

/-- The factor K of R463 before the first picture of a class, in units of 2⁻¹⁶. -/
opaque rateInit : Nat

/-- Which register form a Link Fault Injector's LFSR has (R573): the spec gives its polynomial alone. -/
opaque lfsrForm : Nat

/-- Which of 2^SAMPLE_LOG2 events of a gauge's source passes (R569). -/
opaque gaugePhase : Nat

/-- What XTS makes of a data unit of less than one block (R270, R271): IEEE 1619 does not define it; by its first tweak and its
bytes. -/
opaque xtsShort : Nat → Bytes → Bytes

/-- What a CRY in an XTS mode makes of its bytes under a key of 16 bytes (R270, R271), which no XTS of IEEE 1619 has; by whether it
decrypts, its key, its first tweak, its unit and its bytes. -/
opaque xtsHalfKey : Bool → Bytes → Nat → Nat → Bytes → Bytes

/-- Which of the AES pipelines carries a row in a direction (R247): by row, whether it is egress, and how many there are. -/
opaque bondPipe : Nat → Bool → Nat → Nat

/-- The clock rate in Hz of the RTP timestamps of the programme of a fan list (R304): no register gives it. -/
opaque fanClock : Nat → Nat

/-- The address in the packet buffer of an entry (R225), by the count of frames that entered before it. -/
opaque bufferAddress : Nat → BitVec 26

/-- Whether logical port `l`, on Layer 2 with peer delay, is an 802.1AS port (R190, R191, R193): no register says so. -/
opaque gptpPort : Nat → Bool

end Sys2Proof.Config
end

