-- ==== Sys2Proof/Machine/Bits.lean ====
section
/-!
DEFINITION. Bit fields, byte order, signed values and saturation: the helpers every unit reads words with (R8).
-/

namespace Sys2Proof.Machine

/-- Bits `hi`..`lo` of a number, as a number (R8). -/
def bits (n hi lo : Nat) : Nat := n / 2 ^ lo % 2 ^ (hi + 1 - lo)

/-- `n` with bits `hi`..`lo` set to the low bits of `v`. -/
def putBits (n hi lo v : Nat) : Nat :=
  n / 2 ^ (hi + 1) * 2 ^ (hi + 1) + v % 2 ^ (hi + 1 - lo) * 2 ^ lo + n % 2 ^ lo

/-- Bits `hi`..`lo` of a word. -/
def Word.fld (w : Word) (hi lo : Nat) : Nat := bits w.toNat hi lo

/-- A word with bits `hi`..`lo` set to `v`. -/
def Word.withFld (w : Word) (hi lo v : Nat) : Word := BitVec.ofNat 32 (putBits w.toNat hi lo v)

/-- The word mask with bits `hi`..`lo` set. -/
def maskOf (hi lo : Nat) : Word := BitVec.ofNat 32 ((2 ^ (hi + 1 - lo) - 1) * 2 ^ lo)

/-- A number as a bit. -/
def bitOf (b : Bool) : Nat := if b then 1 else 0

/-- Bit `i` of a number. -/
def bitAt (n i : Nat) : Bool := n / 2 ^ i % 2 == 1

/-- A two's complement number of `w` bits, read as an integer. -/
def toSigned (w n : Nat) : Int := if n % 2 ^ w < 2 ^ (w - 1) then (n % 2 ^ w : Nat) else (n % 2 ^ w : Nat) - (2 ^ w : Nat)

/-- An integer as a two's complement number of `w` bits. -/
def ofSigned (w : Nat) (i : Int) : Nat := (i % (2 ^ w : Nat)).toNat

/-- An integer held within `lo`..`hi`. -/
def clampI (lo hi i : Int) : Int := if i < lo then lo else if hi < i then hi else i

/-- A number held within `lo`..`hi`; values outside act as the nearer limit. -/
def clampN (lo hi n : Nat) : Nat := if n < lo then lo else if hi < n then hi else n

/-- `n` with 0 acting as 1. -/
def atLeast1 (n : Nat) : Nat := if n = 0 then 1 else n

/-- The ceiling of `a / b`. -/
def ceilDiv (a b : Nat) : Nat := (a + b - 1) / b

/-- The last elements of a list: all but the first `n`, kept to `k` of them. -/
def slice {α : Type} (l : List α) (n k : Nat) : List α := (l.drop n).take k

/-- A list with `new` in place of the elements from `n` on. -/
def splice {α : Type} (l : List α) (n : Nat) (new : List α) : List α := l.take n ++ new ++ l.drop (n + new.length)

/-- A run of bytes padded with zeros, or cut, to `n` bytes. -/
def padTo (n : Nat) (b : Bytes) : Bytes := b.take n ++ List.replicate (n - b.length) 0

/-- The number that bytes spell, the first byte lowest (register and descriptor fields in Hold, R8). -/
def leNat : Bytes → Nat
  | [] => 0
  | b :: t => b.toNat + 256 * leNat t

/-- The `k` bytes of a number, the lowest first. -/
def leBytes : Nat → Nat → Bytes
  | 0, _ => []
  | k + 1, n => BitVec.ofNat 8 n :: leBytes k (n / 256)

/-- The number that bytes spell in network order (packet fields, R8). -/
def beNat (b : Bytes) : Nat := b.foldl (fun n x => 256 * n + x.toNat) 0

/-- The `k` bytes of a number in network order. -/
def beBytes (k n : Nat) : Bytes := (leBytes k n).reverse

/-- Byte `i` of a run, zero past its end. -/
def byteAt (b : Bytes) (i : Nat) : Nat := (b.getD i 0).toNat

/-- The network-order number of `k` bytes from byte `i` on. -/
def beAt (b : Bytes) (i k : Nat) : Nat := beNat (padTo k (slice b i k))

/-- The little-endian words of a run of bytes, `n` of them. -/
def wordsOf : Nat → Bytes → List Word
  | 0, _ => []
  | n + 1, b => BitVec.ofNat 32 (leNat (padTo 4 (b.take 4))) :: wordsOf n (b.drop 4)

/-- The bytes of a list of words, little-endian. -/
def bytesOfWords (ws : List Word) : Bytes := ws.flatMap fun w => leBytes 4 w.toNat

/-- Word `i` of a descriptor or of a parameter block, zero past its end. -/
def wordAt (ws : List Word) (i : Nat) : Word := ws.getD i 0

/-- Bits `hi`..`lo` of word `i` of a descriptor. -/
def wfld (ws : List Word) (i hi lo : Nat) : Nat := Word.fld (wordAt ws i) hi lo

/-- A descriptor with bits `hi`..`lo` of its word `i` set to `v`. -/
def putWfld (ws : List Word) (i hi lo v : Nat) : List Word := ws.set i (Word.withFld (wordAt ws i) hi lo v)

/-- A 32-bit counter advanced by `k`, saturating (R10). -/
def satAdd (w n k : Nat) : Nat := if n + k < 2 ^ w then n + k else 2 ^ w - 1

/-- Sequence-number arithmetic: the distance from `b` to `a` modulo `2 ^ w`, as an integer of half range. -/
def seqDiff (w a b : Nat) : Int := toSigned w (a + 2 ^ w - b % 2 ^ w)

/-- A table kept by key: the value of `k`, if any. -/
def assoc? {α : Type} (k : Nat) : List (Nat × α) → Option α
  | [] => none
  | (j, v) :: t => if j = k then some v else assoc? k t

/-- A table with the value of `k` set, its keys rising. -/
def assocSet {α : Type} (k : Nat) (v : α) : List (Nat × α) → List (Nat × α)
  | [] => [(k, v)]
  | (j, w) :: t => if k < j then (k, v) :: (j, w) :: t else if k = j then (k, v) :: t else (j, w) :: assocSet k v t

/-- A table without the key `k`. -/
def assocDel {α : Type} (k : Nat) (l : List (Nat × α)) : List (Nat × α) := l.filter fun p => p.1 != k

/-- A table with the value of `k` set, where `dflt` is what an unlisted key holds: setting it removes the key. -/
def assocPut {α : Type} [DecidableEq α] (dflt : α) (k : Nat) (v : α) (l : List (Nat × α)) : List (Nat × α) :=
  if v = dflt then assocDel k l else assocSet k v l

/-- The keys of a table rise strictly. -/
def keysRise {α : Type} : List (Nat × α) → Bool
  | [] => true
  | [_] => true
  | p :: q :: t => decide (p.1 < q.1) && keysRise (q :: t)

/-- An element put before the first that does not come ahead of it. -/
def insertBy {α : Type} (le : α → α → Bool) (x : α) : List α → List α
  | [] => [x]
  | y :: t => if le x y then x :: y :: t else y :: insertBy le x t

/-- A list in order, equals as they stood. -/
def sortBy {α : Type} (le : α → α → Bool) (l : List α) : List α := l.foldr (insertBy le) []

/-- The smallest power of two not less than `n` (R53). -/
def pow2Ge (n : Nat) : Nat := ((List.range 33).map (2 ^ ·)).find? (fun p => n ≤ p) |>.getD (2 ^ 32)

/-- The rotated order of requesters 0..n−1 in the Tide numbered `tide` (R53). -/
def rotated (n tide : Nat) : List Nat :=
  let p := pow2Ge n
  let r := tide % p
  ((List.range p).map fun i => (i + r) % p).filter (· < n)

/-- The rotated index of requester `i` of `n` (R53). -/
def rotIdx (n tide i : Nat) : Nat :=
  let p := pow2Ge n
  (i + p - tide % p) % p

/-- The median of three numbers. -/
def median3 (a b c : Int) : Int := max (min a b) (min (max a b) c)

end Sys2Proof.Machine
end

