-- ==== Sys2Proof/Machine/Types/Abx.lean ====
section
/-!
DEFINITION. The state of the Abacus (chapter 10): Basins and talker slots, inputs, mixes, cross-point entries,
dressed paths, and the commands that wait for a boundary.
-/

namespace Sys2Proof.Machine

/-- A slot of talker selection that an input holds: since when, and for how many Tides in a row its level has been
below TALK_FLOOR (R346). -/
structure TalkSlot where
  slot : Nat
  input : Nat
  since : Nat
  below : Nat
  deriving DecidableEq, Repr

/-- A swap in progress (R347): its slot, the inputs coming and going, its Tide, and how far it has come: 0 decided,
1 fading out, 2 fading in. -/
structure Swap where
  slot : Nat
  incoming : Option Nat
  outgoing : Option Nat
  at_ : Nat
  stage : Nat
  deriving DecidableEq, Repr

/-- A Basin record (R343, R352): the arguments as written and the talker settings in effect. -/
structure Basin where
  args : List Word
  tenant : Nat
  k : Nat
  mixBase : Nat
  hyst : Int
  floor : Int
  lead : Nat
  hold : Nat
  ramp : Nat
  gain : Nat
  slots : List TalkSlot := []
  swaps : List Swap := []
  deriving DecidableEq, Repr

/-- An input record (R322): the arguments as written, whether it is muted and since which boundary it has stood as
it stands (R342), its ring of four blocks of 64 words (R323) with the blocks that word 48 has not
ended yet, the block taken at the last boundary, and the energies and peaks of its last ten Tides (R345), the newest first. -/
structure Input where
  args : List Word
  mute : Bool := false
  muteAt : Option Nat := none
  ring : List (Nat × List Word) := []
  fill : List (Nat × List Word) := []
  block : List Int := []
  energies : List Nat := []
  peaks : List Nat := []
  deriving DecidableEq, Repr

/-- A cross-point entry in use (R327, R340): the arguments as written, its input and inversion, the gain its ramp
started from and goes to, the boundary it started at and its length in Tides, and whether an XP_CLEAR runs. -/
structure Entry where
  args : List Word
  input : Nat
  invert : Bool
  g0 : Nat
  g1 : Nat
  start : Nat
  ramp : Nat
  clearing : Bool
  deriving DecidableEq, Repr

/-- A block accumulated and not yet put out (R336): its input Tide, its samples a[n], whether a fault silenced it
(R319), the OUT_QUEUE and the slot order of the mix's operation, and the mix's record as it stood (R338). -/
structure AccBlock where
  tide : Nat
  samples : List Int
  silent : Bool
  outQueue : Option Nat
  order : Option Nat := none
  args : Option (List Word) := none
  deriving DecidableEq, Repr

/-- An output block: its input Tide, its samples, and the record of its mix that its accumulation was made with. -/
structure OutBlock where
  tide : Nat
  samples : List Int
  args : Option (List Word) := none
  deriving DecidableEq, Repr

/-- A mix: its record as written (none where no MIX_SET has been made), its limiter's gain in Q1.23 (R333), the
block awaiting its output stage, the last four output blocks the newest first, its
energies and peaks, its limiter's reduction, the factor c of R335 with its ramp, n of R335, and whether a fault
silences the block it is computing. -/
structure Mix where
  args : Option (List Word) := none
  r : Nat := 8388608
  acc : Option AccBlock := none
  outs : List OutBlock := []
  energies : List Nat := []
  peaks : List Nat := []
  gr : Nat := 0
  c0 : Nat := 65536
  c1 : Nat := 65536
  cStart : Nat := 0
  cRamp : Nat := 1
  active : Nat := 0
  faulted : Bool := false
  deriving DecidableEq, Repr

/-- The history of a biquad stage: x₁, x₂, y₁, y₂. -/
structure Biquad where
  x1 : Int := 0
  x2 : Int := 0
  y1 : Int := 0
  y2 : Int := 0
  deriving DecidableEq, Repr

/-- A dressed path (R348, R349): its parameter block, the history of its stages, the last 24 samples before the
compressor, its envelope in Q8.8 dBFS, and the write position of its delay ring. -/
structure DressPath where
  params : List Word
  stages : List Biquad := List.replicate 8 {}
  look : List Int := List.replicate 24 0
  env : Int := -32768
  pos : Nat := 0
  deriving DecidableEq, Repr

/-- The Abacus: its records by number, entries by 64 × mix + entry, the immediate changes held for the next
boundary and the staged ones (R338, R339), the dressing lanes silent in this Tide, and those lost (R320) with
the Tide they were lost in. -/
structure Abacus where
  basins : List (Nat × Basin)
  inputs : List (Nat × Input)
  mixes : List (Nat × Mix)
  entries : List (Nat × Entry)
  paths : List (Nat × DressPath)
  held : List StagedWords
  staged : List StagedWords
  dressSilent : List Nat
  dressLost : List (Nat × Nat)
  deriving DecidableEq, Repr

end Sys2Proof.Machine
end

