-- ==== Sys2Proof/Machine/Audio.lean ====
section
/-!
DEFINITION. The arithmetic of the Abacus: levels (R345), ramps (R340), the limiter (R333), dressed paths (R348).
-/

namespace Sys2Proof.Machine

/-- 24-bit full scale, and one in Q1.23. -/
def fullScale : Nat := 8388608

/-- A number held to signed 24 bits. -/
def sat24 (x : Int) : Int := clampI (-8388608) 8388607 x

/-- The 48 zero samples of a silent block. -/
def silence : List Int := List.replicate 48 0

/-- The 48 samples of a block (R323): bits 23:0 of its words as two's complement. -/
def samplesOf (ws : List Word) : List Int := (List.range 48).map fun i => toSigned 24 (wordAt ws i).toNat

/-- The words of a block for an input Tide (R323). -/
def blockWords (samples : List Int) (tide : Nat) : List Word :=
  (List.range 48).map (fun i => BitVec.ofNat 32 (ofSigned 24 (samples.getD i 0))) ++ [BitVec.ofNat 32 tide] ++
    List.replicate 15 0

/-! ### Levels -/

/-- Whether n / 256 dB, as a ratio of energies, is at most e / f. -/
def dbAtMost (e f : Nat) (n : Int) : Bool :=
  if 0 ≤ n then decide (10 ^ n.toNat * f ^ 2560 ≤ e ^ 2560) else decide (f ^ 2560 ≤ e ^ 2560 * 10 ^ n.natAbs)

/-- The greatest n = lo + m, m below 2^k, that is at most the ratio, where `lo` is. -/
def dbSearch (e f : Nat) : Nat → Int → Int
  | 0, lo => lo
  | k + 1, lo => if dbAtMost e f (lo + 2 ^ k) then dbSearch e f k (lo + 2 ^ k) else dbSearch e f k lo

/-- 10 × log₁₀(e / f) in signed Q8.8 dB rounded down, −128 dB where it is lower or `e` is zero (R345). -/
def dbOf (e f : Nat) : Int := if e = 0 ∨ !dbAtMost e f (-32768) then -32768 else dbSearch e f 16 (-32768)

/-- The sum of the squares of a block. -/
def energy (x : List Int) : Nat := (x.map fun v => v.natAbs * v.natAbs).sum

/-- The greatest magnitude of a block. -/
def peakOf (x : List Int) : Nat := x.foldl (fun m v => max m v.natAbs) 0

/-- The level of R345 from the energies of the last ten Tides. -/
def levelOf (energies : List Nat) : Int := dbOf energies.sum (480 * 2 ^ 46)

/-- The reduction of a limiter gain in Q1.23, in unsigned Q8.8 dB rounded down (R333, R353). -/
def gainReduction (r : Nat) : Nat := if r = 0 then 65535 else min 65535 (dbOf (fullScale * fullScale) (r * r)).toNat

/-- A peak magnitude in dBFS Q8.8 (R351). -/
def peakLevel (p : Nat) : Int := dbOf (p * p) (2 ^ 46)

/-- A history of ten with a new first value. -/
def pushTen (l : List Nat) (v : Nat) : List Nat := v :: l.take 9

/-! ### Ramps (R340) -/

/-- Division that truncates towards zero. -/
def truncDiv (a : Int) (b : Nat) : Int := Int.tdiv a b

/-- The gain of a ramp from g0 to g1 over `total` samples at its sample `k`; the end value from there on. -/
def rampAt (g0 g1 total k : Nat) : Nat :=
  if k < total then ((g0 : Int) + truncDiv (((g1 : Int) - g0) * (k + 1)) total).toNat else g1

/-- The ramped gain of an entry at sample n of Tide `tide`. -/
def Entry.gainAt (e : Entry) (tide n : Nat) : Nat :=
  if tide < e.start then e.g0 else rampAt e.g0 e.g1 (48 * e.ramp) (48 * (tide - e.start) + n)

/-- The gain in effect when a Tide begins: that of the last sample of the Tide before. -/
def Entry.gainNow (e : Entry) (tide : Nat) : Nat :=
  if tide ≤ e.start then e.g0 else e.gainAt (tide - 1) 47

/-- A gain under a mute that began or ended at a boundary (R342): to zero, or back, over 48 samples. -/
def muted (mute : Bool) (since : Option Nat) (tide n g : Nat) : Nat :=
  match since with
  | none => if mute then 0 else g
  | some t =>
    if tide = t then (if mute then rampAt g 0 48 n else rampAt 0 g 48 n) else if mute then 0 else g

/-! ### The limiter (R333, R334) -/

/-- need[k] for a sample and a threshold. -/
def limNeed (thresh : Nat) (a : Int) : Nat := if a.natAbs ≤ thresh then fullScale else thresh * fullScale / a.natAbs

/-- target at the head of a list of needs. -/
def limTarget (need : List Nat) : Nat :=
  (List.range 25).foldl (fun m k =>
    let n := need.getD k fullScale
    min m (n + (fullScale - n) * k / 25)) fullScale

/-- The samples y[n], the last gain, and the samples with r[n] below one: `need` runs from sample n on. -/
def limit (rel : Nat) : List Int → List Nat → Nat → List Int × Nat × Nat
  | [], _, r => ([], r, 0)
  | a :: t, need, r =>
    let r := min (limTarget need) (r + (fullScale - r) * rel / 65536)
    let (y, last, n) := limit rel t (need.drop 1) r
    (a * r / (fullScale : Int) :: y, last, n + (if r < fullScale then 1 else 0))

/-! ### Dressed paths (R348) -/

/-- One sample through a biquad stage: coefficients b0, b1, b2, a1, a2 in Q4.28; the output and whether it
saturated. -/
def Biquad.step (s : Biquad) (c : List Int) (x : Int) : Biquad × Int × Bool :=
  let g := fun i => c.getD i 0
  let y := (g 0 * x + g 1 * s.x1 + g 2 * s.x2 - g 3 * s.y1 - g 4 * s.y2) / 268435456
  let z := clampI (-2147483648) 2147483647 y
  (⟨x, s.x1, z, s.y1⟩, z, z != y)

/-- The coefficients of stage `i` of a parameter block (R349). -/
def stageCoeffs (p : List Word) (i : Nat) : List Int := (List.range 5).map fun j => toSigned 32 (wordAt p (5 * i + j)).toNat

/-- One sample through the eight stages, the first of them numbered `i`: a disabled stage passes it unchanged. -/
def biquads (p : List Word) : Nat → List Biquad → Int → List Biquad × Int × Nat
  | _, [], x => ([], x, 0)
  | i, s :: t, x =>
    if wfld p 40 i i = 1 then
      let (s, y, sat) := s.step (stageCoeffs p i) x
      let (t, z, n) := biquads p (i + 1) t y
      (s :: t, z, n + bitOf sat)
    else
      let (t, z, n) := biquads p (i + 1) t x
      (s :: t, z, n)

/-- A block through the stages. -/
def biquadBlock (p : List Word) : List Biquad → List Int → List Biquad × List Int × Nat
  | st, [] => (st, [], 0)
  | st, x :: t =>
    let (st, y, n) := biquads p 0 st x
    let (st, ys, k) := biquadBlock p st t
    (st, y :: ys, n + k)

/-- The compressor's envelope after one sample with this level. -/
def envelope (p : List Word) (e level : Int) : Int :=
  if e < level then e + (level - e) * wfld p 42 31 16 / 65536 else e + (level - e) * wfld p 42 15 0 / 65536

/-- The steps of a Q8.8 reduction in dB that make a factor of ten. -/
def decade : Nat := 20 * 256

/-- Whether n × 65,536 is at most a × 10^(−g / 5,120). -/
def reducedTo (a g n : Nat) : Bool := decide ((65536 * n) ^ decade * 10 ^ g ≤ a ^ decade)

/-- floor(a × 10^(−g / 5,120) / 65,536), for a reduction of g / 256 dB: the greatest n below 2^k that the product reaches. -/
def reduce (a g : Nat) : Nat → Nat → Nat
  | 0, n => n
  | k + 1, n => if reducedTo a g (n + 2 ^ k) then reduce a g k (n + 2 ^ k) else reduce a g k n

/-- The reduction of R348 in Q8.8 dB, for an envelope that is `excess` above COMP_THRESH and a RATIO in Q4.4. -/
def compGr (excess : Int) (ratio : Nat) : Nat := excess.toNat * (ratio - 16) / ratio

/-- One sample through the compressor, its envelope already moved on: x × 10^(−gr/20) × MAKEUP. Of the two integers next to the
product, which the spec does not say, a constant without a body names one. -/
def compressed (p : List Word) (e x : Int) : Int :=
  let thresh := toSigned 16 (wfld p 41 31 16)
  let g := if thresh < e then compGr (e - thresh) (wfld p 41 7 0) else 0
  let a := x.natAbs * wfld p 43 17 0
  let n := reduce a g 34 0
  let exact := decide ((65536 * n) ^ decade * 10 ^ g = a ^ decade)
  let m : Int := if !exact && Config.compressUp g x then n + 1 else n
  clampI (-2147483648) 2147483647 (if x < 0 then -m else m)

/-- Samples through the compressor (R348): `win` begins at the sample put out, and reaches 24 samples on. -/
def compressor (p : List Word) : Nat → List Int → Int → List Int × Int
  | 0, _, e => ([], e)
  | n + 1, win, e =>
    let x := win.getD 0 0
    if wfld p 40 8 8 = 1 then
      let e := envelope p e (peakLevel (peakOf (win.take 25)))
      let (t, last) := compressor p n (win.drop 1) e
      (compressed p e x :: t, last)
    else
      let (t, last) := compressor p n (win.drop 1) e
      (x :: t, last)

end Sys2Proof.Machine
end

