-- ==== Sys2Proof/Machine/Desc.lean ====
section
/-!
DEFINITION. The operation descriptor (R96, R97): its fields, its kinds, and what it puts into OUT_QUEUE.
-/

namespace Sys2Proof.Machine

/-! ### The operation descriptor (R96) -/

namespace Desc

/-- KIND, CLASS, ORDERED, OP_INDEX, WINDOW and CADENCE of word 0. -/
def kind (w : List Word) : Nat := wfld w 0 31 28
def cls (w : List Word) : Nat := wfld w 0 27 26
def ordered (w : List Word) : Bool := wfld w 0 25 25 == 1
def opIndex (w : List Word) : Nat := wfld w 0 23 16
def window (w : List Word) : Nat := wfld w 0 15 8
def cadence (w : List Word) : Nat := wfld w 0 7 0

/-- The predecessors named in word 1. -/
def preds (w : List Word) : List Nat :=
  [wfld w 1 7 0, wfld w 1 15 8, wfld w 1 23 16, wfld w 1 31 24].filter (· != 0xFF)

/-- FLOW_ID and FLOW_SEQ. -/
def flowId (w : List Word) : Nat := wfld w 2 31 16
def flowSeq (w : List Word) : Nat := wfld w 2 15 0

/-- The output queue, the input queue and what is reserved in them, in items. -/
def outQueue (w : List Word) : Option Nat := if wfld w 3 31 31 = 1 then some (wfld w 3 27 16) else none
def inQueue (w : List Word) : Option Nat := if wfld w 3 15 15 = 1 then some (wfld w 3 11 0) else none
def outReserve (w : List Word) : Nat := 32 * wfld w 4 30 16
def inReserve (w : List Word) : Nat := 32 * wfld w 4 14 0

/-- TAG, CTX, BERTH. -/
def tag (w : List Word) : Nat := wfld w 5 31 16
def ctx (w : List Word) : Nat := wfld w 5 15 0
def berth (w : List Word) : Nat := wfld w 6 25 0

/-- The Hold addresses of the input, the output and the kind-specific block. -/
def inAddr (w : List Word) : Nat := 256 * wfld w 7 31 0
def outAddr (w : List Word) : Nat := 256 * wfld w 8 31 0
def auxAddr (w : List Word) : Nat := 256 * wfld w 9 31 0

/-- PARAMi. -/
def param (w : List Word) (i : Nat) : Nat := wfld w (10 + i) 31 0

/-- COMPL_PRIO, and COMPL_QUEUE where COMPL_EN is 1. -/
def complPrio (w : List Word) : Nat := wfld w 15 15 13
def complQueue (w : List Word) : Option Nat := if wfld w 15 12 12 = 1 then some (wfld w 15 11 0) else none

/-- The queues a descriptor names. -/
def queues (w : List Word) : List Nat := (inQueue w).toList ++ (outQueue w).toList ++ (complQueue w).toList

end Desc

/-- KIND values of R96. -/
def opDEC : Nat := 0x0
def opSCL : Nat := 0x1
def opCMP : Nat := 0x2
def opSVY : Nat := 0x3
def opLTR : Nat := 0x4
def opADEC : Nat := 0x5
def opAENC : Nat := 0x6
def opMIX : Nat := 0x7
def opDSP : Nat := 0x8
def opXFR : Nat := 0x9
def opCRY : Nat := 0xA

/-- Whether a KIND is a task of a Reckoner core. -/
def isTask (k : Nat) : Bool := k == opADEC || k == opAENC || k == opDSP

/-- The kind k of R89 whose engines run a KIND: VDE 0, Survey 1, Lighter 2, Composer 3, Abacus 4, core 5, DMA
channel 6, Bond 7. -/
def unitKindOf (k : Nat) : Nat :=
  match k with
  | 0x0 => 0 | 0x1 => 0 | 0x2 => 3 | 0x3 => 1 | 0x4 => 2 | 0x7 => 4 | 0x9 => 6 | 0xA => 7
  | _ => 5

/-- The most items that an instance puts into OUT_QUEUE at its end, or that a task is given space for when it takes input
(R108): a picture for each output size of a DEC or SCL, a view's picture, an item of a task. -/
def outItems (w : List Word) : Nat :=
  match Desc.kind w with
  | 0x0 => ([3, 4].filter fun o => Desc.param w o != 0).length
  | 0x1 => ([1, 2, 3, 4].filter fun o => Desc.param w o != 0).length
  | 0x2 | 0x5 | 0x6 | 0x8 => 1
  | _ => 0

end Sys2Proof.Machine
end

