-- ==== Sys2Proof/Machine/RegMap.lean ====
section
/-!
DEFINITION. The registers of the PF windows and of the VF windows (R584, R585, R588), one `RegField` for
each field of the register tables: its address, the strides of its arrays, its bits, its access type and its
reset value. The number after each line is the rule of the spec whose table gives it. A field whose table
gives no reset value (a fuse, a strap or a variant decides it) holds zero here; `Machine/Regs.lean` computes it.
The VF windows have no address in PF BAR0: VF v's BAR0 stands at 0x1000_0000 + 0x1_0000 × v.
-/

namespace Sys2Proof.Machine.Reg

/-! ### Page `dev` -/

def dev_VARIANT : RegField := ⟨0x40, [], 7, 0, .ro, 0x0⟩  -- R599
def dev_DEV_STATE : RegField := ⟨0x44, [], 31, 30, .ro, 0x0⟩  -- R599
def dev_STEP : RegField := ⟨0x44, [], 3, 0, .ro, 0x1⟩  -- R599
def dev_DIE_ID_LO : RegField := ⟨0x48, [], 31, 0, .ro, 0x0⟩  -- R599
def dev_DIE_ID_HI : RegField := ⟨0x4C, [], 31, 0, .ro, 0x0⟩  -- R599
def dev_PRESENT : RegField := ⟨0x80, [(10, 0x4)], 31, 0, .ro, 0x0⟩  -- R599
def dev_EVT_SUMMARY : RegField := ⟨0x100, [(10, 0x4)], 31, 0, .ro, 0x0⟩  -- R599

/-! ### Page `gwy` -/

def gwy_BAR2_BASE : RegField := ⟨0x10040, [], 6, 0, .rw, 0x0⟩  -- R600
def gwy_LINK_SPEED : RegField := ⟨0x10044, [], 19, 16, .ro, 0x0⟩  -- R600
def gwy_LINK_WIDTH : RegField := ⟨0x10044, [], 5, 0, .ro, 0x0⟩  -- R600
def gwy_VEC_HOLDOFF : RegField := ⟨0x10048, [], 9, 0, .rw, 0x0⟩  -- R600
def gwy_VEC_REARM : RegField := ⟨0x1004C, [], 10, 0, .wo, 0x0⟩  -- R600
def gwy_BAR2_ERR : RegField := ⟨0x10080, [], 31, 0, .ctr, 0x0⟩  -- R600
def gwy_HOST_DMA_ERR : RegField := ⟨0x10084, [], 31, 0, .ctr, 0x0⟩  -- R600
def gwy_LOG_DROP : RegField := ⟨0x10088, [], 31, 0, .ctr, 0x0⟩  -- R600
def gwy_VF_IGNORED : RegField := ⟨0x1008C, [], 31, 0, .ctr, 0x0⟩  -- R600
def gwy_CNT_CLEAR : RegField := ⟨0x100FC, [], 0, 0, .wo, 0x0⟩  -- R600
def gwy_VF_TENANT : RegField := ⟨0x10410, [(64, 0x10)], 5, 0, .rw, 0x0⟩  -- R600
def gwy_VF_QBASE : RegField := ⟨0x10414, [(64, 0x10)], 27, 16, .rw, 0x0⟩  -- R600
def gwy_VF_QCOUNT : RegField := ⟨0x10414, [(64, 0x10)], 10, 0, .rw, 0x0⟩  -- R600
def gwy_VF_REARM : RegField := ⟨0x10418, [(64, 0x10)], 4, 0, .wo, 0x0⟩  -- R600
def gwy_DMA_BUSY : RegField := ⟨0x11000, [(16, 0x20)], 31, 31, .ro, 0x0⟩  -- R600
def gwy_DMA_LAST_STATUS : RegField := ⟨0x11000, [(16, 0x20)], 7, 0, .ro, 0x0⟩  -- R600
def gwy_DMA_SLOT : RegField := ⟨0x11004, [(16, 0x20)], 14, 0, .ro, 0x0⟩  -- R600
def gwy_RING_EN : RegField := ⟨0x12000, [(64, 0x20)], 31, 31, .rw, 0x0⟩  -- R600
def gwy_RING_CFG_BAD : RegField := ⟨0x12000, [(64, 0x20)], 30, 30, .ro, 0x0⟩  -- R600
def gwy_RING_OWNER : RegField := ⟨0x12000, [(64, 0x20)], 22, 16, .rw, 0x0⟩  -- R600
def gwy_RING_SLOT_BYTES : RegField := ⟨0x12000, [(64, 0x20)], 13, 12, .rw, 0x0⟩  -- R600
def gwy_RING_QUEUE : RegField := ⟨0x12000, [(64, 0x20)], 11, 0, .rw, 0x0⟩  -- R600
def gwy_RING_HOST_ADDR_LO : RegField := ⟨0x12004, [(64, 0x20)], 31, 0, .rw, 0x0⟩  -- R600
def gwy_RING_HOST_ADDR_HI : RegField := ⟨0x12008, [(64, 0x20)], 31, 0, .rw, 0x0⟩  -- R600
def gwy_RING_LOG2_SLOTS : RegField := ⟨0x1200C, [(64, 0x20)], 20, 16, .rw, 0x6⟩  -- R600
def gwy_RING_VECTOR : RegField := ⟨0x1200C, [(64, 0x20)], 10, 0, .rw, 0x0⟩  -- R600
def gwy_RING_HEAD : RegField := ⟨0x12010, [(64, 0x20)], 31, 0, .ro, 0x0⟩  -- R600
def gwy_RING_RD : RegField := ⟨0x12014, [(64, 0x20)], 31, 0, .rw, 0x0⟩  -- R600
def gwy_LOGR_MIRROR_EN : RegField := ⟨0x13000, [(65, 0x20)], 31, 31, .rw, 0x0⟩  -- R600
def gwy_LOGR_LOG2_ENTRIES : RegField := ⟨0x13000, [(65, 0x20)], 20, 16, .rw, 0x6⟩  -- R600
def gwy_LOGR_VECTOR : RegField := ⟨0x13000, [(65, 0x20)], 10, 0, .rw, 0x0⟩  -- R600
def gwy_LOGR_LOG_BASE : RegField := ⟨0x13004, [(65, 0x20)], 31, 0, .rw, 0x0⟩  -- R600
def gwy_LOGR_MIRROR_ADDR_LO : RegField := ⟨0x13008, [(65, 0x20)], 31, 0, .rw, 0x0⟩  -- R600
def gwy_LOGR_MIRROR_ADDR_HI : RegField := ⟨0x1300C, [(65, 0x20)], 31, 0, .rw, 0x0⟩  -- R600
def gwy_LOGR_WR_SEQ : RegField := ⟨0x13010, [(65, 0x20)], 31, 0, .ro, 0x0⟩  -- R600
def gwy_LOGR_RD_SEQ : RegField := ⟨0x13014, [(65, 0x20)], 31, 0, .rw, 0x0⟩  -- R600
def gwy_LOGR_LOG_LOST : RegField := ⟨0x13018, [(65, 0x20)], 31, 0, .ro, 0x0⟩  -- R600
def gwy_VEC_MAP : RegField := ⟨0x14000, [(320, 0x4)], 10, 0, .rw, 0x0⟩  -- R600

/-! ### Page `tkp` -/

def tkp_SLEW_PPM : RegField := ⟨0x20040, [], 24, 16, .rw, 0x64⟩  -- R212
def tkp_DOMAIN : RegField := ⟨0x20040, [], 15, 8, .rw, 0x0⟩  -- R212
def tkp_PPS_SQUELCH : RegField := ⟨0x20040, [], 3, 3, .rw, 0x1⟩  -- R212
def tkp_SRC_SEL : RegField := ⟨0x20040, [], 1, 0, .rw, 0x0⟩  -- R212
def tkp_ANCHORED : RegField := ⟨0x20044, [], 31, 31, .ro, 0x0⟩  -- R212
def tkp_TK_STATE : RegField := ⟨0x20044, [], 30, 28, .ro, 0x0⟩  -- R212
def tkp_SRC_OK : RegField := ⟨0x20044, [], 27, 25, .ro, 0x0⟩  -- R212
def tkp_TIDE_LO : RegField := ⟨0x20048, [], 31, 0, .ro, 0x0⟩  -- R212
def tkp_TIDE_HI : RegField := ⟨0x2004C, [], 31, 0, .ro, 0x0⟩  -- R212
def tkp_TIDE_PHASE : RegField := ⟨0x20050, [], 20, 0, .ro, 0x0⟩  -- R212
def tkp_SEC_LO : RegField := ⟨0x20054, [], 31, 0, .ro, 0x0⟩  -- R212
def tkp_SEC_HI : RegField := ⟨0x20058, [], 31, 0, .ro, 0x0⟩  -- R212
def tkp_NS : RegField := ⟨0x2005C, [], 29, 0, .ro, 0x0⟩  -- R212
def tkp_FRAC : RegField := ⟨0x20060, [], 15, 0, .ro, 0x0⟩  -- R212
def tkp_OFFSET_NS : RegField := ⟨0x20064, [], 31, 0, .ro, 0x0⟩  -- R212
def tkp_FREQ_ADJ : RegField := ⟨0x20068, [], 31, 0, .ro, 0x0⟩  -- R212
def tkp_MEAN_PATH_NS : RegField := ⟨0x2006C, [], 31, 0, .ro, 0x0⟩  -- R212
def tkp_LOCK_THRESH_NS : RegField := ⟨0x20070, [], 31, 16, .rw, 0x64⟩  -- R212
def tkp_LOCK_COUNT : RegField := ⟨0x20070, [], 7, 0, .rw, 0x8⟩  -- R212
def tkp_OUTLIER_NS : RegField := ⟨0x20074, [], 31, 0, .rw, 0x2710⟩  -- R212
def tkp_OUTLIER_CNT : RegField := ⟨0x20078, [], 31, 16, .ctr, 0x0⟩  -- R212
def tkp_SYNC_LOSS : RegField := ⟨0x20078, [], 7, 0, .rw, 0x3⟩  -- R212
def tkp_SEC_HI16 : RegField := ⟨0x2007C, [], 15, 0, .rw, 0x0⟩  -- R212
def tkp_CMD_OP : RegField := ⟨0x20080, [], 31, 28, .wo, 0x0⟩  -- R212
def tkp_BREAK_PENDING : RegField := ⟨0x20084, [], 31, 31, .ro, 0x0⟩  -- R212
def tkp_CMD_STATUS : RegField := ⟨0x20084, [], 7, 0, .ro, 0x0⟩  -- R212
def tkp_BREAK_AT_LO : RegField := ⟨0x20088, [], 31, 0, .rw, 0x0⟩  -- R212
def tkp_BREAK_AT_HI : RegField := ⟨0x2008C, [], 31, 0, .rw, 0x0⟩  -- R212
def tkp_NEW_TIDE_LO : RegField := ⟨0x20090, [], 31, 0, .rw, 0x0⟩  -- R212
def tkp_NEW_TIDE_HI : RegField := ⟨0x20094, [], 31, 0, .rw, 0x0⟩  -- R212
def tkp_BREAK_PHASE : RegField := ⟨0x20098, [], 19, 0, .rw, 0x0⟩  -- R212
def tkp_PPS_TOD_LO : RegField := ⟨0x200A0, [], 31, 0, .rw, 0x0⟩  -- R212
def tkp_PPS_TOD_HI : RegField := ⟨0x200A4, [], 31, 0, .rw, 0x0⟩  -- R212
def tkp_PPS_WIDTH : RegField := ⟨0x200C0, [], 19, 0, .rw, 0x186A0⟩  -- R212
def tkp_TCLK_EN : RegField := ⟨0x200C4, [], 31, 31, .rw, 0x0⟩  -- R212
def tkp_TCLK_SEL : RegField := ⟨0x200C4, [], 2, 0, .rw, 0x0⟩  -- R212
def tkp_EDGE_WIN_NS : RegField := ⟨0x200C8, [], 15, 0, .rw, 0x3E8⟩  -- R212
def tkp_EDGE_EXTRA : RegField := ⟨0x200CC, [], 31, 16, .ctr, 0x0⟩  -- R212
def tkp_EDGE_MISS : RegField := ⟨0x200CC, [], 15, 0, .ctr, 0x0⟩  -- R212
def tkp_TEVT_EN : RegField := ⟨0x200D0, [], 3, 0, .rw, 0x0⟩  -- R212
def tkp_TEVT_VALID : RegField := ⟨0x200D4, [], 31, 31, .ro, 0x0⟩  -- R212
def tkp_TEVT_LEVEL : RegField := ⟨0x200D4, [], 20, 16, .ro, 0x0⟩  -- R212
def tkp_TEVT_SRC : RegField := ⟨0x200D4, [], 1, 0, .ro, 0x0⟩  -- R212
def tkp_TEVT_SEC : RegField := ⟨0x200D8, [], 31, 0, .ro, 0x0⟩  -- R212
def tkp_TEVT_NS : RegField := ⟨0x200DC, [], 29, 0, .ro, 0x0⟩  -- R212
def tkp_TEVT_FRAC : RegField := ⟨0x200E0, [], 15, 0, .ro, 0x0⟩  -- R212
def tkp_TEVT_OVF : RegField := ⟨0x200E4, [], 31, 0, .ctr, 0x0⟩  -- R212
def tkp_CLOCK_ID_LO : RegField := ⟨0x20100, [], 31, 0, .rw, 0x0⟩  -- R212
def tkp_CLOCK_ID_HI : RegField := ⟨0x20104, [], 31, 0, .rw, 0x0⟩  -- R212
def tkp_ANNOUNCE : RegField := ⟨0x20140, [(16, 0x4)], 31, 0, .rw, 0x0⟩  -- R212
def tkp_PTP_EN : RegField := ⟨0x20200, [(16, 0x40)], 31, 31, .rw, 0x0⟩  -- R212
def tkp_PTP_ROLE : RegField := ⟨0x20200, [(16, 0x40)], 29, 28, .rw, 0x0⟩  -- R212
def tkp_PTP_P2P : RegField := ⟨0x20200, [(16, 0x40)], 27, 27, .rw, 0x0⟩  -- R212
def tkp_PTP_ONE_STEP : RegField := ⟨0x20200, [(16, 0x40)], 26, 26, .rw, 0x0⟩  -- R212
def tkp_PTP_TRANSPORT : RegField := ⟨0x20200, [(16, 0x40)], 25, 24, .rw, 0x0⟩  -- R212
def tkp_PTP_LOG_SYNC : RegField := ⟨0x20204, [(16, 0x40)], 31, 24, .rw, 0xFD⟩  -- R212
def tkp_PTP_LOG_DELAY : RegField := ⟨0x20204, [(16, 0x40)], 23, 16, .rw, 0x0⟩  -- R212
def tkp_PTP_LOG_ANNOUNCE : RegField := ⟨0x20204, [(16, 0x40)], 15, 8, .rw, 0x1⟩  -- R212
def tkp_PTP_LINK_DELAY_NS : RegField := ⟨0x20210, [(16, 0x40)], 31, 0, .ro, 0x0⟩  -- R212
def tkp_PTP_RATE_RATIO : RegField := ⟨0x20214, [(16, 0x40)], 31, 0, .ro, 0x0⟩  -- R212
def tkp_PTP_RX_EVENT : RegField := ⟨0x20220, [(16, 0x40)], 31, 0, .ctr, 0x0⟩  -- R212
def tkp_PTP_TX_EVENT : RegField := ⟨0x20224, [(16, 0x40)], 31, 0, .ctr, 0x0⟩  -- R212
def tkp_PTP_BAD_MSG : RegField := ⟨0x20228, [(16, 0x40)], 31, 0, .ctr, 0x0⟩  -- R212

/-! ### Page `ldg` -/

def ldg_DERATE_PCT : RegField := ⟨0x30040, [], 15, 8, .rw, 0x19⟩  -- R88
def ldg_WARN_DERATE_EN : RegField := ⟨0x30040, [], 1, 1, .rw, 0x1⟩  -- R88
def ldg_ADMIT_EN : RegField := ⟨0x30040, [], 0, 0, .rw, 0x0⟩  -- R88
def ldg_THERMAL_WARN : RegField := ⟨0x30044, [], 31, 31, .ro, 0x0⟩  -- R88
def ldg_DERATED : RegField := ⟨0x30044, [], 30, 30, .ro, 0x0⟩  -- R88
def ldg_ACTIVE_ADMISSIONS : RegField := ⟨0x30044, [], 15, 0, .ro, 0x0⟩  -- R88
def ldg_SLOTS_FREE : RegField := ⟨0x30048, [], 15, 0, .ro, 0x8000⟩  -- R88
def ldg_HORIZON_LO : RegField := ⟨0x3004C, [], 31, 0, .ro, 0x0⟩  -- R88
def ldg_HORIZON_HI : RegField := ⟨0x30050, [], 31, 0, .ro, 0x0⟩  -- R88
def ldg_CAP : RegField := ⟨0x30100, [(12, 0x8)], 31, 0, .ro, 0x0⟩  -- R89
def ldg_COUNT : RegField := ⟨0x30104, [(12, 0x8)], 15, 0, .ro, 0x0⟩  -- R89
def ldg_ADMIT_CMD : RegField := ⟨0x30200, [(4, 0x40), (8, 0x4)], 31, 0, .rw, 0x0⟩  -- R90
def ldg_ADMIT_GO : RegField := ⟨0x30220, [(4, 0x40)], 0, 0, .wo, 0x0⟩  -- R90
def ldg_ADMIT_BUSY : RegField := ⟨0x30224, [(4, 0x40)], 31, 31, .ro, 0x0⟩  -- R90
def ldg_ADMIT_VALID : RegField := ⟨0x30224, [(4, 0x40)], 30, 30, .ro, 0x0⟩  -- R90
def ldg_ADMIT_FAIL_OP : RegField := ⟨0x30224, [(4, 0x40)], 27, 20, .ro, 0x0⟩  -- R90
def ldg_ADMIT_FAIL_KIND : RegField := ⟨0x30224, [(4, 0x40)], 19, 16, .ro, 0x0⟩  -- R90
def ldg_ADMIT_STATUS : RegField := ⟨0x30224, [(4, 0x40)], 7, 0, .ro, 0x0⟩  -- R90
def ldg_ADMIT_HANDLE : RegField := ⟨0x30228, [(4, 0x40)], 15, 0, .ro, 0x0⟩  -- R90
def ldg_ADMIT_FIRST_TIDE_LO : RegField := ⟨0x3022C, [(4, 0x40)], 31, 0, .ro, 0x0⟩  -- R90
def ldg_ADMIT_FIRST_TIDE_HI : RegField := ⟨0x30230, [(4, 0x40)], 31, 0, .ro, 0x0⟩  -- R90
def ldg_ADMIT_SPAN : RegField := ⟨0x30234, [(4, 0x40)], 15, 0, .ro, 0x0⟩  -- R90
def ldg_WITHDRAW_HANDLE : RegField := ⟨0x30300, [], 15, 0, .wo, 0x0⟩  -- R91
def ldg_WITHDRAW_BUSY : RegField := ⟨0x30304, [], 31, 31, .ro, 0x0⟩  -- R91
def ldg_WITHDRAW_STATUS : RegField := ⟨0x30304, [], 7, 0, .ro, 0x0⟩  -- R91
def ldg_LOST_HANDLE : RegField := ⟨0x30308, [], 15, 0, .ro, 0x0⟩  -- R91
def ldg_QUERY_KIND : RegField := ⟨0x30380, [], 31, 28, .rw, 0x0⟩  -- R92
def ldg_QUERY_INDEX : RegField := ⟨0x30380, [], 26, 16, .rw, 0x0⟩  -- R92
def ldg_QUERY_TIDE_OFS : RegField := ⟨0x30380, [], 6, 0, .rw, 0x0⟩  -- R92
def ldg_QUERY_BOOKED : RegField := ⟨0x30384, [], 31, 0, .ro, 0x0⟩  -- R92
def ldg_QUERY_STANDING : RegField := ⟨0x30388, [], 31, 0, .ro, 0x0⟩  -- R92

/-! ### Page `wfg` -/

def wfg_UNBOOKED_MAX : RegField := ⟨0x40040, [], 31, 16, .rw, 0x800⟩  -- R129
def wfg_UNBOOKED_TIMEOUT : RegField := ⟨0x40040, [], 7, 0, .rw, 0x3F⟩  -- R129
def wfg_UNBOOKED_USE : RegField := ⟨0x40044, [], 31, 16, .ro, 0x0⟩  -- R129
def wfg_SLOTS_ACTIVE : RegField := ⟨0x40044, [], 15, 0, .ro, 0x0⟩  -- R129
def wfg_PAUSE_LIMIT : RegField := ⟨0x40048, [], 7, 0, .rw, 0x2⟩  -- R129
def wfg_SUBMIT_DESC_LO : RegField := ⟨0x40080, [(4, 0x10)], 31, 0, .rw, 0x0⟩  -- R129
def wfg_SUBMIT_DESC_HI : RegField := ⟨0x40084, [(4, 0x10)], 7, 0, .rw, 0x0⟩  -- R129
def wfg_SUBMIT_GO : RegField := ⟨0x40088, [(4, 0x10)], 0, 0, .wo, 0x0⟩  -- R129
def wfg_SUBMIT_BUSY : RegField := ⟨0x4008C, [(4, 0x10)], 31, 31, .ro, 0x0⟩  -- R129
def wfg_SUBMIT_VALID : RegField := ⟨0x4008C, [(4, 0x10)], 30, 30, .ro, 0x0⟩  -- R129
def wfg_SUBMIT_SLOT : RegField := ⟨0x4008C, [(4, 0x10)], 23, 8, .ro, 0x0⟩  -- R129
def wfg_SUBMIT_RESULT : RegField := ⟨0x4008C, [(4, 0x10)], 7, 0, .ro, 0x0⟩  -- R129
def wfg_CANCEL_SLOT : RegField := ⟨0x400C0, [], 14, 0, .wo, 0x0⟩  -- R129
def wfg_DISAGREE_COUNT : RegField := ⟨0x400C4, [], 31, 16, .ro, 0x0⟩  -- R129
def wfg_ROLLCALL_KIND : RegField := ⟨0x400C4, [], 15, 12, .ro, 0x0⟩  -- R129
def wfg_ROLLCALL_INDEX : RegField := ⟨0x400C4, [], 10, 0, .ro, 0x0⟩  -- R129
def wfg_FLOW_ID : RegField := ⟨0x400D0, [], 31, 16, .wo, 0x0⟩  -- R129
def wfg_FLOW_SEQ : RegField := ⟨0x400D0, [], 15, 0, .wo, 0x0⟩  -- R129
def wfg_FLOW_LIVE : RegField := ⟨0x400D4, [], 31, 31, .ro, 0x0⟩  -- R129
def wfg_FLOW_HELD : RegField := ⟨0x400D4, [], 24, 16, .ro, 0x0⟩  -- R129
def wfg_FLOW_NEXT : RegField := ⟨0x400D4, [], 15, 0, .ro, 0x0⟩  -- R129
def wfg_BOOKED_READY : RegField := ⟨0x40100, [(8, 0x4)], 31, 16, .ro, 0x0⟩  -- R129
def wfg_UNBOOKED_READY : RegField := ⟨0x40100, [(8, 0x4)], 15, 0, .ro, 0x0⟩  -- R129
def wfg_STATUS_COUNT : RegField := ⟨0x40140, [(64, 0x4)], 31, 0, .ctw, 0x0⟩  -- R129
def wfg_Q_EN : RegField := ⟨0x60000, [(4096, 0x20)], 31, 31, .rw, 0x0⟩  -- R129
def wfg_Q_HOST_BOUND : RegField := ⟨0x60000, [(4096, 0x20)], 30, 30, .rw, 0x0⟩  -- R129
def wfg_PFC_EN : RegField := ⟨0x60000, [(4096, 0x20)], 29, 29, .rw, 0x0⟩  -- R129
def wfg_PFC_LPORT : RegField := ⟨0x60000, [(4096, 0x20)], 28, 25, .rw, 0x0⟩  -- R129
def wfg_PFC_PRIO : RegField := ⟨0x60000, [(4096, 0x20)], 24, 22, .rw, 0x0⟩  -- R129
def wfg_TMARK_EN : RegField := ⟨0x60000, [(4096, 0x20)], 21, 21, .rw, 0x0⟩  -- R129
def wfg_TMARK_PIN : RegField := ⟨0x60000, [(4096, 0x20)], 20, 18, .rw, 0x0⟩  -- R129
def wfg_Q_TENANT : RegField := ⟨0x60000, [(4096, 0x20)], 17, 12, .rw, 0x0⟩  -- R129
def wfg_HIGH_WM : RegField := ⟨0x60004, [(4096, 0x20)], 31, 16, .rw, 0x0⟩  -- R129
def wfg_LOW_WM : RegField := ⟨0x60004, [(4096, 0x20)], 15, 0, .rw, 0x0⟩  -- R129
def wfg_QSPILL_BASE : RegField := ⟨0x60008, [(4096, 0x20)], 31, 0, .rw, 0x0⟩  -- R129
def wfg_QSPILL_SIZE : RegField := ⟨0x6000C, [(4096, 0x20)], 20, 0, .rw, 0x0⟩  -- R129
def wfg_QRESERVED : RegField := ⟨0x60010, [(4096, 0x20)], 20, 0, .ro, 0x0⟩  -- R129
def wfg_ABOVE_HIGH : RegField := ⟨0x60014, [(4096, 0x20)], 31, 31, .ro, 0x0⟩  -- R129
def wfg_QCFG_BAD : RegField := ⟨0x60014, [(4096, 0x20)], 30, 30, .ro, 0x0⟩  -- R129
def wfg_QDEPTH : RegField := ⟨0x60014, [(4096, 0x20)], 20, 0, .ro, 0x0⟩  -- R129
def wfg_QDROP : RegField := ⟨0x60018, [(4096, 0x20)], 31, 0, .ro, 0x0⟩  -- R129
def wfg_QCMD : RegField := ⟨0x6001C, [(4096, 0x20)], 31, 28, .wo, 0x0⟩  -- R129
def wfg_QEGRESS_RESERVE : RegField := ⟨0x6001C, [(4096, 0x20)], 23, 16, .rw, 0x0⟩  -- R129
def wfg_QCMD_LANE : RegField := ⟨0x6001C, [(4096, 0x20)], 2, 0, .wo, 0x0⟩  -- R129

/-! ### Page `btc` -/

def btc_DRAIN_TIDES : RegField := ⟨0x1D0040, [], 15, 8, .rw, 0x8⟩  -- R155
def btc_EN : RegField := ⟨0x1D0040, [], 0, 0, .rw, 0x0⟩  -- R155
def btc_ROW_BASE : RegField := ⟨0x1D0044, [], 23, 0, .rw, 0x0⟩  -- R155
def btc_ANNEX_BASE : RegField := ⟨0x1D0048, [], 23, 0, .rw, 0x0⟩  -- R155
def btc_ROWS : RegField := ⟨0x1D004C, [], 25, 0, .ro, 0x2000000⟩  -- R155
def btc_PIN_ROWS : RegField := ⟨0x1D0050, [], 18, 0, .rw, 0x3C000⟩  -- R155
def btc_PIN_USED : RegField := ⟨0x1D0054, [], 18, 0, .ro, 0x0⟩  -- R155
def btc_STATE_COUNT : RegField := ⟨0x1D0060, [(6, 0x4)], 25, 0, .ro, 0x0⟩  -- R155
def btc_HIT : RegField := ⟨0x1D0080, [], 31, 0, .ctw, 0x0⟩  -- R155
def btc_MISS : RegField := ⟨0x1D0084, [], 31, 0, .ctw, 0x0⟩  -- R155
def btc_STAGED_USED : RegField := ⟨0x1D0088, [], 14, 0, .ro, 0x0⟩  -- R155
def btc_CMD : RegField := ⟨0x1D0200, [(4, 0x40), (8, 0x4)], 31, 0, .rw, 0x0⟩  -- R156
def btc_CMD_GO : RegField := ⟨0x1D0220, [(4, 0x40)], 0, 0, .wo, 0x0⟩  -- R156
def btc_CMD_BUSY : RegField := ⟨0x1D0224, [(4, 0x40)], 31, 31, .ro, 0x0⟩  -- R156
def btc_CMD_VALID : RegField := ⟨0x1D0224, [(4, 0x40)], 30, 30, .ro, 0x0⟩  -- R156
def btc_CMD_APPLY : RegField := ⟨0x1D0224, [(4, 0x40)], 29, 27, .ro, 0x0⟩  -- R156
def btc_CMD_FOUND_STATE : RegField := ⟨0x1D0224, [(4, 0x40)], 26, 24, .ro, 0x0⟩  -- R156
def btc_CMD_STATUS : RegField := ⟨0x1D0224, [(4, 0x40)], 7, 0, .ro, 0x0⟩  -- R156
def btc_CMD_RESULT_BERTH : RegField := ⟨0x1D0228, [(4, 0x40)], 24, 0, .ro, 0x0⟩  -- R156
def btc_ROW_IMAGE : RegField := ⟨0x1D0800, [(4, 0x100), (64, 0x4)], 31, 0, .rw, 0x0⟩  -- R156
def btc_TRANGE_LIMIT : RegField := ⟨0x1D0400, [(64, 0x4)], 29, 16, .rw, 0x0⟩  -- R156
def btc_TRANGE_BASE : RegField := ⟨0x1D0400, [(64, 0x4)], 12, 0, .rw, 0x0⟩  -- R156

/-! ### Page `qay` -/

def qay_MODE : RegField := ⟨0x80040, [(4, 0x10000)], 1, 0, .rw, 0x0⟩  -- R187
def qay_RX_POL : RegField := ⟨0x80044, [(4, 0x10000)], 23, 20, .rw, 0x0⟩  -- R187
def qay_TX_POL : RegField := ⟨0x80044, [(4, 0x10000)], 19, 16, .rw, 0x0⟩  -- R187
def qay_RX_MAP : RegField := ⟨0x80044, [(4, 0x10000)], 15, 8, .rw, 0xE4⟩  -- R187
def qay_TX_MAP : RegField := ⟨0x80044, [(4, 0x10000)], 7, 0, .rw, 0xE4⟩  -- R187
def qay_SIGNAL : RegField := ⟨0x80048, [(4, 0x10000)], 15, 12, .ro, 0x0⟩  -- R187
def qay_REMOTE_FAULT : RegField := ⟨0x80048, [(4, 0x10000)], 11, 8, .ro, 0x0⟩  -- R187
def qay_LOCAL_FAULT : RegField := ⟨0x80048, [(4, 0x10000)], 7, 4, .ro, 0x0⟩  -- R187
def qay_LINK_UP : RegField := ⟨0x80048, [(4, 0x10000)], 3, 0, .ro, 0x0⟩  -- R187
def qay_POST1 : RegField := ⟨0x80050, [(4, 0x10000), (4, 0x4)], 29, 24, .rw, 0x0⟩  -- R187
def qay_MAIN : RegField := ⟨0x80050, [(4, 0x10000), (4, 0x4)], 21, 16, .rw, 0x1C⟩  -- R187
def qay_PRE1 : RegField := ⟨0x80050, [(4, 0x10000), (4, 0x4)], 13, 8, .rw, 0x3C⟩  -- R187
def qay_PRE2 : RegField := ⟨0x80050, [(4, 0x10000), (4, 0x4)], 5, 0, .rw, 0x0⟩  -- R187
def qay_QAY_NO_PORT : RegField := ⟨0x80060, [(4, 0x10000)], 31, 0, .ctr, 0x0⟩  -- R187
def qay_TXTS_VALID : RegField := ⟨0x80080, [(4, 0x10000)], 31, 31, .ro, 0x0⟩  -- R187
def qay_TXTS_LEVEL : RegField := ⟨0x80080, [(4, 0x10000)], 22, 16, .ro, 0x0⟩  -- R187
def qay_TXTS_TAG : RegField := ⟨0x80084, [(4, 0x10000)], 31, 16, .ro, 0x0⟩  -- R187
def qay_TXTS_LPORT : RegField := ⟨0x80084, [(4, 0x10000)], 3, 0, .ro, 0x0⟩  -- R187
def qay_TXTS_SEC : RegField := ⟨0x80088, [(4, 0x10000)], 31, 0, .ro, 0x0⟩  -- R187
def qay_TXTS_NS : RegField := ⟨0x8008C, [(4, 0x10000)], 29, 0, .ro, 0x0⟩  -- R187
def qay_TXTS_FRAC : RegField := ⟨0x80090, [(4, 0x10000)], 15, 0, .ro, 0x0⟩  -- R187
def qay_TXTS_OVF : RegField := ⟨0x80094, [(4, 0x10000)], 31, 0, .ctr, 0x0⟩  -- R187
def qay_FEC_CORR_CW : RegField := ⟨0x80100, [(4, 0x10000), (4, 0x10)], 31, 0, .ctr, 0x0⟩  -- R187
def qay_FEC_UNCORR_CW : RegField := ⟨0x80104, [(4, 0x10000), (4, 0x10)], 31, 0, .ctr, 0x0⟩  -- R187
def qay_FEC_SYM_ERR : RegField := ⟨0x80108, [(4, 0x10000), (4, 0x10)], 31, 0, .ctr, 0x0⟩  -- R187
def qay_PORT_EN : RegField := ⟨0x80400, [(4, 0x10000), (4, 0x100)], 31, 31, .rw, 0x0⟩  -- R187
def qay_PFC_RX_EN : RegField := ⟨0x80400, [(4, 0x10000), (4, 0x100)], 30, 30, .rw, 0x0⟩  -- R187
def qay_PFC_TX_EN : RegField := ⟨0x80400, [(4, 0x10000), (4, 0x100)], 29, 29, .rw, 0x0⟩  -- R187
def qay_GATE_EN : RegField := ⟨0x80400, [(4, 0x10000), (4, 0x100)], 28, 28, .rw, 0x0⟩  -- R187
def qay_MAX_FRAME : RegField := ⟨0x80400, [(4, 0x10000), (4, 0x100)], 13, 0, .st, 0x5F2⟩  -- R187
def qay_RXB_PFC_MASK : RegField := ⟨0x80404, [(4, 0x10000), (4, 0x100)], 23, 16, .rw, 0x0⟩  -- R187
def qay_PFC_QUANTA : RegField := ⟨0x80404, [(4, 0x10000), (4, 0x100)], 15, 0, .rw, 0xFFFF⟩  -- R187
def qay_TXQ_PRIO : RegField := ⟨0x80408, [(4, 0x10000), (4, 0x100)], 23, 0, .rw, 0xFAC688⟩  -- R187
def qay_RXB_XOFF : RegField := ⟨0x8040C, [(4, 0x10000), (4, 0x100)], 31, 16, .rw, 0x0⟩  -- R187
def qay_RXB_XON : RegField := ⟨0x8040C, [(4, 0x10000), (4, 0x100)], 15, 0, .rw, 0x0⟩  -- R187
def qay_TS_RX_ADJ : RegField := ⟨0x80410, [(4, 0x10000), (4, 0x100)], 31, 0, .rw, 0x0⟩  -- R187
def qay_TS_TX_ADJ : RegField := ⟨0x80414, [(4, 0x10000), (4, 0x100)], 31, 0, .rw, 0x0⟩  -- R187
def qay_GATE_BANK : RegField := ⟨0x80420, [(4, 0x10000), (4, 0x100)], 1, 1, .rw, 0x0⟩  -- R187
def qay_GATE_ARM : RegField := ⟨0x80420, [(4, 0x10000), (4, 0x100)], 0, 0, .wo, 0x0⟩  -- R187
def qay_GATE_PENDING : RegField := ⟨0x80424, [(4, 0x10000), (4, 0x100)], 31, 31, .ro, 0x0⟩  -- R187
def qay_GATE_OPER_BANK : RegField := ⟨0x80424, [(4, 0x10000), (4, 0x100)], 30, 30, .ro, 0x0⟩  -- R187
def qay_GATE_CFG_BAD : RegField := ⟨0x80424, [(4, 0x10000), (4, 0x100)], 29, 29, .ro, 0x0⟩  -- R187
def qay_GATE_LATE : RegField := ⟨0x80424, [(4, 0x10000), (4, 0x100)], 28, 28, .ro, 0x0⟩  -- R187
def qay_GATE_CYCLE : RegField := ⟨0x80428, [(4, 0x10000), (4, 0x100)], 31, 0, .rw, 0x0⟩  -- R187
def qay_GATE_COUNT : RegField := ⟨0x8042C, [(4, 0x10000), (4, 0x100)], 8, 0, .rw, 0x0⟩  -- R187
def qay_GATE_BASE_TIDE_LO : RegField := ⟨0x80430, [(4, 0x10000), (4, 0x100)], 31, 0, .rw, 0x0⟩  -- R187
def qay_GATE_BASE_TIDE_HI : RegField := ⟨0x80434, [(4, 0x10000), (4, 0x100)], 31, 0, .rw, 0x0⟩  -- R187
def qay_GATE_BASE_PHASE : RegField := ⟨0x80438, [(4, 0x10000), (4, 0x100)], 19, 0, .rw, 0x0⟩  -- R187
def qay_GATE_GUARD : RegField := ⟨0x8043C, [(4, 0x10000), (4, 0x100)], 7, 0, .rw, 0x10⟩  -- R187
def qay_LONGEST_WIN : RegField := ⟨0x80440, [(4, 0x10000), (4, 0x100), (8, 0x4)], 31, 0, .ro, 0xFFFFFFFF⟩  -- R187
def qay_RX_FRAMES : RegField := ⟨0x80480, [(4, 0x10000), (4, 0x100)], 31, 0, .ctr, 0x0⟩  -- R188
def qay_RX_OCTETS_LO : RegField := ⟨0x80484, [(4, 0x10000), (4, 0x100)], 31, 0, .ctr, 0x0⟩  -- R188
def qay_RX_OCTETS_HI : RegField := ⟨0x80488, [(4, 0x10000), (4, 0x100)], 31, 0, .ctr, 0x0⟩  -- R188
def qay_RX_RUNT : RegField := ⟨0x8048C, [(4, 0x10000), (4, 0x100)], 31, 0, .ctr, 0x0⟩  -- R188
def qay_RX_FCS_ERR : RegField := ⟨0x80490, [(4, 0x10000), (4, 0x100)], 31, 0, .ctr, 0x0⟩  -- R188
def qay_RX_TRUNC : RegField := ⟨0x80494, [(4, 0x10000), (4, 0x100)], 31, 0, .ctr, 0x0⟩  -- R188
def qay_RX_OVERFLOW : RegField := ⟨0x80498, [(4, 0x10000), (4, 0x100)], 31, 0, .ctr, 0x0⟩  -- R188
def qay_RX_PFC : RegField := ⟨0x8049C, [(4, 0x10000), (4, 0x100)], 31, 0, .ctr, 0x0⟩  -- R188
def qay_RX_PAUSE_8023X : RegField := ⟨0x804A0, [(4, 0x10000), (4, 0x100)], 31, 0, .ctr, 0x0⟩  -- R188
def qay_TX_FRAMES : RegField := ⟨0x804A4, [(4, 0x10000), (4, 0x100)], 31, 0, .ctr, 0x0⟩  -- R188
def qay_TX_OCTETS_LO : RegField := ⟨0x804A8, [(4, 0x10000), (4, 0x100)], 31, 0, .ctr, 0x0⟩  -- R188
def qay_TX_OCTETS_HI : RegField := ⟨0x804AC, [(4, 0x10000), (4, 0x100)], 31, 0, .ctr, 0x0⟩  -- R188
def qay_TX_OVERSIZE : RegField := ⟨0x804B0, [(4, 0x10000), (4, 0x100)], 31, 0, .ctr, 0x0⟩  -- R188
def qay_TX_LINK_DOWN : RegField := ⟨0x804B4, [(4, 0x10000), (4, 0x100)], 31, 0, .ctr, 0x0⟩  -- R188
def qay_TX_PAUSE_DROP : RegField := ⟨0x804B8, [(4, 0x10000), (4, 0x100)], 31, 0, .ctr, 0x0⟩  -- R188
def qay_TX_PFC : RegField := ⟨0x804BC, [(4, 0x10000), (4, 0x100)], 31, 0, .ctr, 0x0⟩  -- R188
def qay_TX_NEVER_FITS : RegField := ⟨0x804C0, [(4, 0x10000), (4, 0x100), (8, 0x4)], 31, 0, .ctr, 0x0⟩  -- R188
def qay_PORT_CNT_CLEAR : RegField := ⟨0x804FC, [(4, 0x10000), (4, 0x100)], 0, 0, .wo, 0x0⟩  -- R188
def qay_GATE_STATES : RegField := ⟨0x84000, [(4, 0x10000), (4, 0x1000), (2, 0x800), (256, 0x8)], 7, 0, .rw, 0x0⟩  -- R178
def qay_GATE_INTERVAL : RegField := ⟨0x84004, [(4, 0x10000), (4, 0x1000), (2, 0x800), (256, 0x8)], 31, 0, .rw, 0x0⟩  -- R178

/-! ### Page `bwr` -/

def bwr_CONSENT_CLASS_MASK : RegField := ⟨0xC0040, [], 13, 8, .rw, 0x7⟩  -- R242
def bwr_SWEEP_EN : RegField := ⟨0xC0040, [], 4, 4, .rw, 0x1⟩  -- R242
def bwr_RTCP_PARSE_EN : RegField := ⟨0xC0040, [], 3, 3, .rw, 0x1⟩  -- R242
def bwr_STUN_COPY_EN : RegField := ⟨0xC0040, [], 2, 2, .rw, 0x0⟩  -- R242
def bwr_FP_REQUIRED : RegField := ⟨0xC0040, [], 1, 1, .rw, 0x1⟩  -- R242
def bwr_STUN_EN : RegField := ⟨0xC0040, [], 0, 0, .rw, 0x1⟩  -- R242
def bwr_CONSENT_TIMEOUT : RegField := ⟨0xC0044, [], 31, 16, .rw, 0x7530⟩  -- R242
def bwr_CONSENT_SWEEP : RegField := ⟨0xC0044, [], 15, 0, .rw, 0x400⟩  -- R242
def bwr_STUN_PER_TIDE : RegField := ⟨0xC0048, [], 15, 0, .rw, 0x4000⟩  -- R242
def bwr_KFR_MIN_TIDES : RegField := ⟨0xC004C, [], 31, 16, .rw, 0xC8⟩  -- R242
def bwr_KFR_PER_TIDE : RegField := ⟨0xC004C, [], 15, 0, .rw, 0x100⟩  -- R242
def bwr_KFR_FIR : RegField := ⟨0xC0050, [], 31, 31, .wo, 0x0⟩  -- R242
def bwr_KFR_BERTH : RegField := ⟨0xC0050, [], 24, 0, .wo, 0x0⟩  -- R242
def bwr_KFR_LEVEL : RegField := ⟨0xC0054, [], 28, 16, .ro, 0x0⟩  -- R242
def bwr_KFR_STATUS : RegField := ⟨0xC0054, [], 7, 0, .ro, 0x0⟩  -- R242
def bwr_EST_WINDOW : RegField := ⟨0xC0058, [], 31, 24, .rw, 0x64⟩  -- R242
def bwr_EST_UP_PCT : RegField := ⟨0xC0058, [], 23, 16, .rw, 0x8⟩  -- R242
def bwr_EST_HIGH_PCT : RegField := ⟨0xC0058, [], 15, 8, .rw, 0xA⟩  -- R242
def bwr_EST_LOW_PCT : RegField := ⟨0xC0058, [], 7, 0, .rw, 0x2⟩  -- R242
def bwr_EST_INIT : RegField := ⟨0xC005C, [], 31, 0, .rw, 0xF4240⟩  -- R242
def bwr_EST_MIN : RegField := ⟨0xC0060, [], 31, 0, .rw, 0x7530⟩  -- R242
def bwr_EST_MAX : RegField := ⟨0xC0064, [], 31, 0, .rw, 0x2FAF080⟩  -- R242
def bwr_FB_EN : RegField := ⟨0xC0068, [], 12, 12, .rw, 0x0⟩  -- R242
def bwr_FB_QUEUE : RegField := ⟨0xC0068, [], 11, 0, .rw, 0x0⟩  -- R242
def bwr_HOST_MASK : RegField := ⟨0xC006C, [], 31, 0, .rw, 0xFFFE⟩  -- R242
def bwr_SPARE_FOR : RegField := ⟨0xC0070, [], 1, 0, .ro, 0x0⟩  -- R242
def bwr_HOSTQ : RegField := ⟨0xC0080, [(16, 0x4)], 11, 0, .rw, 0x0⟩  -- R242
def bwr_LMAC_LO : RegField := ⟨0xC00C0, [(16, 0x8)], 31, 0, .rw, 0x0⟩  -- R242
def bwr_LMAC_HI : RegField := ⟨0xC00C4, [(16, 0x8)], 15, 0, .rw, 0x0⟩  -- R242
def bwr_POL_SEL : RegField := ⟨0xC0140, [], 15, 0, .rw, 0x0⟩  -- R242
def bwr_POL_RATE : RegField := ⟨0xC0144, [], 23, 0, .rw, 0x0⟩  -- R242
def bwr_POL_BURST : RegField := ⟨0xC0148, [], 15, 0, .rw, 0x0⟩  -- R242
def bwr_POL_TOKENS : RegField := ⟨0xC014C, [], 23, 0, .ro, 0x0⟩  -- R242
def bwr_STUN_RESP : RegField := ⟨0xC0160, [], 31, 0, .ctr, 0x0⟩  -- R242
def bwr_RTCP_IGNORED : RegField := ⟨0xC0164, [], 31, 0, .ctr, 0x0⟩  -- R242
def bwr_KFR_SUPPRESSED : RegField := ⟨0xC0168, [], 31, 0, .ctr, 0x0⟩  -- R242
def bwr_KFR_OVF : RegField := ⟨0xC016C, [], 31, 0, .ctr, 0x0⟩  -- R242
def bwr_KFR_INVALID : RegField := ⟨0xC0170, [], 31, 0, .ctr, 0x0⟩  -- R242
def bwr_REASON_COUNT : RegField := ⟨0xC0200, [(64, 0x4)], 31, 0, .ctr, 0x0⟩  -- R242
def bwr_CNT_CLEAR : RegField := ⟨0xC0300, [], 0, 0, .wo, 0x0⟩  -- R242
def bwr_LADDR_VALID : RegField := ⟨0xC2000, [(4, 0x2000), (256, 0x20)], 31, 31, .rw, 0x0⟩  -- R243
def bwr_LADDR_IPV6 : RegField := ⟨0xC2000, [(4, 0x2000), (256, 0x20)], 30, 30, .rw, 0x0⟩  -- R243
def bwr_LADDR_ADDR : RegField := ⟨0xC2010, [(4, 0x2000), (256, 0x20), (4, 0x4)], 31, 0, .rw, 0x0⟩  -- R243

/-! ### Page `bnd` -/

def bnd_EN : RegField := ⟨0xD0040, [], 0, 0, .rw, 0x0⟩  -- R273
def bnd_AES_SPARE_USED : RegField := ⟨0xD0044, [], 31, 31, .ro, 0x0⟩  -- R273
def bnd_SHA_SPARE_USED : RegField := ⟨0xD0044, [], 30, 30, .ro, 0x0⟩  -- R273
def bnd_AES_SPARE_FOR : RegField := ⟨0xD0044, [], 20, 16, .ro, 0x1F⟩  -- R273
def bnd_SHA_SPARE_FOR : RegField := ⟨0xD0044, [], 10, 8, .ro, 0x7⟩  -- R273
def bnd_SRTP_LIMIT_LO : RegField := ⟨0xD0048, [], 31, 0, .rw, 0xFFFFFFFF⟩  -- R273
def bnd_SRTP_LIMIT_HI : RegField := ⟨0xD004C, [], 15, 0, .rw, 0xFFFF⟩  -- R273
def bnd_SRTCP_LIMIT : RegField := ⟨0xD0050, [], 30, 0, .rw, 0x7FFFFFFF⟩  -- R273
def bnd_KEY_WARN : RegField := ⟨0xD0054, [], 31, 0, .rw, 0x100000⟩  -- R273
def bnd_PIPE_FAULT_DROP : RegField := ⟨0xD0080, [], 31, 0, .ctr, 0x0⟩  -- R273
def bnd_UNWRAP_FAIL : RegField := ⟨0xD0084, [], 31, 0, .ctr, 0x0⟩  -- R273
def bnd_TX_ORDER_DROP : RegField := ⟨0xD0088, [], 31, 0, .ctr, 0x0⟩  -- R273
def bnd_TX_LEN_DROP : RegField := ⟨0xD008C, [], 31, 0, .ctr, 0x0⟩  -- R273
def bnd_KEY_EXHAUST_DROP : RegField := ⟨0xD0090, [], 31, 0, .ctr, 0x0⟩  -- R273
def bnd_RX_AUTH_FAIL : RegField := ⟨0xD0094, [], 31, 0, .ctr, 0x0⟩  -- R273
def bnd_RX_REPLAY : RegField := ⟨0xD0098, [], 31, 0, .ctr, 0x0⟩  -- R273
def bnd_RX_SHORT : RegField := ⟨0xD009C, [], 31, 0, .ctr, 0x0⟩  -- R273
def bnd_BND_OFF_DROP : RegField := ⟨0xD00A0, [], 31, 0, .ctr, 0x0⟩  -- R273
def bnd_CNT_CLEAR : RegField := ⟨0xD00FC, [], 0, 0, .wo, 0x0⟩  -- R273
def bnd_WRAP_TENANT : RegField := ⟨0xD0200, [], 5, 0, .rw, 0x0⟩  -- R273
def bnd_WRAP_CMD : RegField := ⟨0xD0204, [], 1, 0, .wo, 0x0⟩  -- R273
def bnd_WRAP_RESULT : RegField := ⟨0xD0208, [], 7, 0, .ro, 0x0⟩  -- R273
def bnd_WRAP_KEY : RegField := ⟨0xD0240, [(16, 0x4)], 31, 0, .wo, 0x0⟩  -- R273
def bnd_SLOT_SET : RegField := ⟨0xD0300, [(64, 0x4)], 31, 31, .ro, 0x0⟩  -- R273
def bnd_SLOT_LOCK : RegField := ⟨0xD0300, [(64, 0x4)], 30, 30, .ro, 0x0⟩  -- R273
def bnd_WRAP_KCV : RegField := ⟨0xD0400, [(64, 0x4)], 31, 0, .ro, 0x0⟩  -- R273
def bnd_KEY_OP : RegField := ⟨0xD0100, [], 31, 28, .rw, 0x0⟩  -- R274
def bnd_KEY_ICE_LEN : RegField := ⟨0xD0100, [], 21, 16, .rw, 0x0⟩  -- R274
def bnd_KEY_PROFILE : RegField := ⟨0xD0100, [], 7, 0, .rw, 0x0⟩  -- R274
def bnd_KEY_BERTH : RegField := ⟨0xD0104, [], 24, 0, .rw, 0x0⟩  -- R274
def bnd_KEY_OUT_ADDR : RegField := ⟨0xD0108, [], 31, 0, .rw, 0x0⟩  -- R274
def bnd_KEY_GO : RegField := ⟨0xD0110, [], 0, 0, .wo, 0x0⟩  -- R274
def bnd_KEY_BUSY : RegField := ⟨0xD0114, [], 31, 31, .ro, 0x0⟩  -- R274
def bnd_KEY_VALID : RegField := ⟨0xD0114, [], 30, 30, .ro, 0x0⟩  -- R274
def bnd_KEY_KEY_GEN : RegField := ⟨0xD0114, [], 15, 8, .ro, 0x0⟩  -- R274
def bnd_KEY_STATUS : RegField := ⟨0xD0114, [], 7, 0, .ro, 0x0⟩  -- R274
def bnd_KEY_DATA : RegField := ⟨0xD0140, [(24, 0x4)], 31, 0, .wo, 0x0⟩  -- R274

/-! ### Page `fry` -/

def fry_TTL : RegField := ⟨0xE0040, [], 15, 8, .rw, 0x40⟩  -- R314
def fry_FB_EN : RegField := ⟨0xE0040, [], 3, 3, .rw, 0x0⟩  -- R314
def fry_SR_EN : RegField := ⟨0xE0040, [], 2, 2, .rw, 0x0⟩  -- R314
def fry_UDP4_CSUM : RegField := ⟨0xE0040, [], 1, 1, .rw, 0x0⟩  -- R314
def fry_EN : RegField := ⟨0xE0040, [], 0, 0, .rw, 0x0⟩  -- R314
def fry_ROUTE_BASE : RegField := ⟨0xE0044, [], 23, 0, .rw, 0x0⟩  -- R314
def fry_GROUP_BASE : RegField := ⟨0xE0048, [], 23, 0, .rw, 0x0⟩  -- R314
def fry_FAN_SLOT_BASE : RegField := ⟨0xE004C, [], 23, 0, .rw, 0x0⟩  -- R314
def fry_FAN_SLOT_SIZE : RegField := ⟨0xE0050, [], 15, 0, .rw, 0x0⟩  -- R314
def fry_FM_ID : RegField := ⟨0xE0054, [], 11, 8, .rw, 0x0⟩  -- R314
def fry_DD_ID : RegField := ⟨0xE0054, [], 7, 4, .rw, 0x0⟩  -- R314
def fry_TWSEQ_ID : RegField := ⟨0xE0054, [], 3, 0, .rw, 0x0⟩  -- R314
def fry_FAN_PEAK_MAX : RegField := ⟨0xE0058, [], 10, 0, .rw, 0x4E2⟩  -- R314
def fry_AUTO_HYST : RegField := ⟨0xE005C, [], 15, 8, .rw, 0xA⟩  -- R314
def fry_SWITCH_WAIT : RegField := ⟨0xE005C, [], 7, 0, .rw, 0x32⟩  -- R314
def fry_SR_CLASS_MASK : RegField := ⟨0xE0060, [], 21, 16, .rw, 0xF⟩  -- R314
def fry_SR_INTERVAL : RegField := ⟨0xE0060, [], 15, 0, .rw, 0x1388⟩  -- R314
def fry_FB_FWD_QUEUE : RegField := ⟨0xE0064, [], 11, 0, .rw, 0x0⟩  -- R314
def fry_SPARE_FOR : RegField := ⟨0xE0068, [], 2, 0, .ro, 0x7⟩  -- R314
def fry_LANES_FREE : RegField := ⟨0xE0080, [(16, 0x4)], 31, 16, .ro, 0xFFFF⟩  -- R314
def fry_FAN_TXQ : RegField := ⟨0xE0080, [(16, 0x4)], 14, 12, .rw, 0x7⟩  -- R314
def fry_CELL : RegField := ⟨0xE0080, [(16, 0x4)], 9, 0, .rw, 0x0⟩  -- R314
def fry_DSCP : RegField := ⟨0xE00C0, [(8, 0x4)], 5, 0, .rw, 0x0⟩  -- R314
def fry_NH_QUAY : RegField := ⟨0xE00E0, [], 13, 12, .rw, 0x0⟩  -- R314
def fry_NH_INDEX : RegField := ⟨0xE00E0, [], 11, 0, .rw, 0x0⟩  -- R314
def fry_NH_MAC_LO : RegField := ⟨0xE00E4, [], 31, 0, .rw, 0x0⟩  -- R314
def fry_NH_VALID : RegField := ⟨0xE00E8, [], 31, 31, .rw, 0x0⟩  -- R314
def fry_NH_MAC_HI : RegField := ⟨0xE00E8, [], 15, 0, .rw, 0x0⟩  -- R314
def fry_CNAME : RegField := ⟨0xE0200, [(64, 0x10), (4, 0x4)], 31, 0, .rw, 0x0⟩  -- R314
def fry_PIPE_FAULT_DROP : RegField := ⟨0xE0600, [], 31, 0, .ctr, 0x0⟩  -- R314
def fry_NH_INVALID : RegField := ⟨0xE0604, [], 31, 0, .ctr, 0x0⟩  -- R314
def fry_FAN_MISS : RegField := ⟨0xE0608, [], 31, 0, .ctr, 0x0⟩  -- R314
def fry_FAN_SRC_DROP : RegField := ⟨0xE060C, [], 31, 0, .ctr, 0x0⟩  -- R314
def fry_FAN_OVERSIZE : RegField := ⟨0xE0610, [], 31, 0, .ctr, 0x0⟩  -- R314
def fry_SWITCH_DONE : RegField := ⟨0xE0614, [], 31, 0, .ctr, 0x0⟩  -- R314
def fry_SWITCH_KFR : RegField := ⟨0xE0618, [], 31, 0, .ctr, 0x0⟩  -- R314
def fry_SR_SENT : RegField := ⟨0xE061C, [], 31, 0, .ctr, 0x0⟩  -- R314
def fry_OFF_DROP : RegField := ⟨0xE0620, [], 31, 0, .ctr, 0x0⟩  -- R314
def fry_CNT_CLEAR : RegField := ⟨0xE06FC, [], 0, 0, .wo, 0x0⟩  -- R314
def fry_CMD : RegField := ⟨0xE0100, [(2, 0x40), (8, 0x4)], 31, 0, .rw, 0x0⟩  -- R314
def fry_CMD_GO : RegField := ⟨0xE0120, [(2, 0x40)], 0, 0, .wo, 0x0⟩  -- R314
def fry_CMD_BUSY : RegField := ⟨0xE0124, [(2, 0x40)], 31, 31, .ro, 0x0⟩  -- R314
def fry_CMD_VALID : RegField := ⟨0xE0124, [(2, 0x40)], 30, 30, .ro, 0x0⟩  -- R314
def fry_CMD_APPLY : RegField := ⟨0xE0124, [(2, 0x40)], 29, 27, .ro, 0x0⟩  -- R314
def fry_CMD_FOUND_STATE : RegField := ⟨0xE0124, [(2, 0x40)], 26, 24, .ro, 0x0⟩  -- R314
def fry_CMD_STATUS : RegField := ⟨0xE0124, [(2, 0x40)], 7, 0, .ro, 0x0⟩  -- R314
def fry_CMD_RESULT_BERTH : RegField := ⟨0xE0128, [(2, 0x40)], 24, 0, .ro, 0x0⟩  -- R314
def fry_CMD_RESULT : RegField := ⟨0xE0130, [(2, 0x40), (4, 0x4)], 31, 0, .ro, 0x0⟩  -- R314

/-! ### Page `tly` -/

def tly_IDLE_CREDIT : RegField := ⟨0xF0040, [], 31, 24, .rw, 0x1⟩  -- R316
def tly_QMAX : RegField := ⟨0xF0040, [], 23, 16, .rw, 0x20⟩  -- R316
def tly_HOLD_LIMIT : RegField := ⟨0xF0040, [], 15, 8, .rw, 0x4⟩  -- R316
def tly_EN : RegField := ⟨0xF0040, [], 0, 0, .rw, 0x0⟩  -- R316
def tly_SPARE_FOR : RegField := ⟨0xF0044, [], 1, 0, .ro, 0x0⟩  -- R316
def tly_PORT_RATE : RegField := ⟨0xF0080, [(16, 0x8)], 23, 0, .rw, 0x0⟩  -- R316
def tly_B_PORT : RegField := ⟨0xF0084, [(16, 0x8)], 31, 16, .ro, 0x0⟩  -- R316
def tly_PORT_BURST : RegField := ⟨0xF0084, [(16, 0x8)], 15, 0, .rw, 0x0⟩  -- R316
def tly_TXQ_MAP : RegField := ⟨0xF0100, [(16, 0x4)], 23, 0, .rw, 0xFAC688⟩  -- R316
def tly_NODE_LEVEL : RegField := ⟨0xF0200, [], 31, 31, .rw, 0x0⟩  -- R316
def tly_NODE_SVC : RegField := ⟨0xF0200, [], 22, 20, .rw, 0x0⟩  -- R316
def tly_NODE_SUB : RegField := ⟨0xF0200, [], 17, 0, .rw, 0x0⟩  -- R316
def tly_NODE_RATE : RegField := ⟨0xF0204, [], 23, 0, .rw, 0x0⟩  -- R316
def tly_NODE_BURST : RegField := ⟨0xF0208, [], 15, 0, .rw, 0x0⟩  -- R316
def tly_NODE_LPORT : RegField := ⟨0xF020C, [], 3, 0, .rw, 0x0⟩  -- R316
def tly_NODE_STAGED : RegField := ⟨0xF0210, [], 16, 16, .rw, 0x0⟩  -- R316
def tly_NODE_APPLY_TIDE_LO : RegField := ⟨0xF0214, [], 31, 0, .rw, 0x0⟩  -- R316
def tly_NODE_APPLY_TIDE_HI : RegField := ⟨0xF0218, [], 31, 0, .rw, 0x0⟩  -- R316
def tly_NODE_GO : RegField := ⟨0xF021C, [], 0, 0, .wo, 0x0⟩  -- R316
def tly_NODE_APPLY : RegField := ⟨0xF0220, [], 29, 27, .ro, 0x0⟩  -- R316
def tly_NODE_STATUS : RegField := ⟨0xF0220, [], 7, 0, .ro, 0x0⟩  -- R316
def tly_DROP_FULL : RegField := ⟨0xF0300, [], 31, 0, .ctr, 0x0⟩  -- R316
def tly_DROP_AGE : RegField := ⟨0xF0304, [], 31, 0, .ctr, 0x0⟩  -- R316
def tly_PORT_MISMATCH : RegField := ⟨0xF0308, [], 31, 0, .ctr, 0x0⟩  -- R316
def tly_PIPE_FAULT_DROP : RegField := ⟨0xF030C, [], 31, 0, .ctr, 0x0⟩  -- R316
def tly_CNT_CLEAR : RegField := ⟨0xF03FC, [], 0, 0, .wo, 0x0⟩  -- R316

/-! ### Page `abx` -/

def abx_EN : RegField := ⟨0x100040, [], 0, 0, .rw, 0x0⟩  -- R353
def abx_MAC_SPARE_USED : RegField := ⟨0x100044, [], 31, 31, .ro, 0x0⟩  -- R353
def abx_DRESS_SPARE_USED : RegField := ⟨0x100044, [], 30, 30, .ro, 0x0⟩  -- R353
def abx_MAC_SPARE_FOR : RegField := ⟨0x100044, [], 20, 16, .ro, 0x1F⟩  -- R353
def abx_DRESS_SPARE_FOR : RegField := ⟨0x100044, [], 10, 8, .ro, 0x7⟩  -- R353
def abx_DRESS_DELAY_BASE : RegField := ⟨0x100048, [], 23, 0, .rw, 0x0⟩  -- R353
def abx_OUT_BASE : RegField := ⟨0x10004C, [], 23, 0, .rw, 0x0⟩  -- R353
def abx_STAGED_USED : RegField := ⟨0x100050, [], 13, 0, .ro, 0x0⟩  -- R353
def abx_TALK_QUEUE : RegField := ⟨0x100054, [], 11, 0, .rw, 0x0⟩  -- R353
def abx_COMPAT_FLOOR : RegField := ⟨0x100058, [], 15, 0, .rw, 0xC400⟩  -- R353
def abx_IN_MISSING : RegField := ⟨0x100080, [], 31, 0, .ctr, 0x0⟩  -- R353
def abx_IN_LATE : RegField := ⟨0x100084, [], 31, 0, .ctr, 0x0⟩  -- R353
def abx_IN_EARLY : RegField := ⟨0x100088, [], 31, 0, .ctr, 0x0⟩  -- R353
def abx_CLIP : RegField := ⟨0x10008C, [], 31, 0, .ctr, 0x0⟩  -- R353
def abx_LIMITED : RegField := ⟨0x100090, [], 31, 0, .ctr, 0x0⟩  -- R353
def abx_TALK_SWAP : RegField := ⟨0x100094, [], 31, 0, .ctr, 0x0⟩  -- R353
def abx_DRESS_SAT : RegField := ⟨0x100098, [], 31, 0, .ctr, 0x0⟩  -- R353
def abx_FAULT_SILENT : RegField := ⟨0x10009C, [], 31, 0, .ctr, 0x0⟩  -- R353
def abx_CNT_CLEAR : RegField := ⟨0x1000FC, [], 0, 0, .wo, 0x0⟩  -- R353
def abx_MON_IS_MIX : RegField := ⟨0x100200, [], 31, 31, .rw, 0x0⟩  -- R353
def abx_MON_INDEX : RegField := ⟨0x100200, [], 12, 0, .rw, 0x0⟩  -- R353
def abx_MON_PEAK : RegField := ⟨0x100204, [], 31, 16, .ro, 0x8000⟩  -- R353
def abx_MON_RMS : RegField := ⟨0x100204, [], 15, 0, .ro, 0x8000⟩  -- R353
def abx_MON_ACTIVE_N : RegField := ⟨0x100208, [], 23, 16, .ro, 0x0⟩  -- R353
def abx_MON_GR : RegField := ⟨0x100208, [], 15, 0, .ro, 0x0⟩  -- R353
def abx_TALK_SEL : RegField := ⟨0x100210, [], 11, 0, .rw, 0x0⟩  -- R353
def abx_TALK_SWAP_PENDING : RegField := ⟨0x100214, [], 31, 31, .ro, 0x0⟩  -- R353
def abx_TALK_PENDING_SLOT : RegField := ⟨0x100214, [], 27, 24, .ro, 0x0⟩  -- R353
def abx_TALK_VALID : RegField := ⟨0x100240, [(16, 0x4)], 31, 31, .ro, 0x0⟩  -- R353
def abx_TALK_RAMPING : RegField := ⟨0x100240, [(16, 0x4)], 30, 30, .ro, 0x0⟩  -- R353
def abx_TALK_INPUT : RegField := ⟨0x100240, [(16, 0x4)], 11, 0, .ro, 0x0⟩  -- R353
def abx_DRESS_IN_USE : RegField := ⟨0x100800, [(512, 0x4)], 31, 31, .ro, 0x0⟩  -- R353
def abx_DRESS_LAT : RegField := ⟨0x100800, [(512, 0x4)], 15, 0, .ro, 0x0⟩  -- R353
def abx_CMD : RegField := ⟨0x100100, [(2, 0x40), (8, 0x4)], 31, 0, .rw, 0x0⟩  -- R353
def abx_CMD_GO : RegField := ⟨0x100120, [(2, 0x40)], 0, 0, .wo, 0x0⟩  -- R353
def abx_CMD_BUSY : RegField := ⟨0x100124, [(2, 0x40)], 31, 31, .ro, 0x0⟩  -- R353
def abx_CMD_VALID : RegField := ⟨0x100124, [(2, 0x40)], 30, 30, .ro, 0x0⟩  -- R353
def abx_CMD_APPLY : RegField := ⟨0x100124, [(2, 0x40)], 29, 27, .ro, 0x0⟩  -- R353
def abx_CMD_FOUND_STATE : RegField := ⟨0x100124, [(2, 0x40)], 26, 24, .ro, 0x0⟩  -- R353
def abx_CMD_STATUS : RegField := ⟨0x100124, [(2, 0x40)], 7, 0, .ro, 0x0⟩  -- R353
def abx_CMD_RESULT_BERTH : RegField := ⟨0x100128, [(2, 0x40)], 24, 0, .ro, 0x0⟩  -- R353
def abx_CMD_RESULT : RegField := ⟨0x100130, [(2, 0x40), (4, 0x4)], 31, 0, .ro, 0x0⟩  -- R353

/-! ### Page `apu` -/

def apu_WCLK_OUT_GROUP : RegField := ⟨0x140040, [], 18, 16, .rw, 0x0⟩  -- R373
def apu_WCLK_OUT_EN : RegField := ⟨0x140040, [], 12, 12, .rw, 0x0⟩  -- R373
def apu_AMCLK_IN_SEL : RegField := ⟨0x140040, [], 9, 8, .rw, 0x0⟩  -- R373
def apu_AMCLK_OUT_SEL : RegField := ⟨0x140040, [], 5, 4, .rw, 0x0⟩  -- R373
def apu_AMCLK_OUT_EN : RegField := ⟨0x140040, [], 1, 1, .rw, 0x0⟩  -- R373
def apu_EN : RegField := ⟨0x140040, [], 0, 0, .rw, 0x0⟩  -- R373
def apu_WCLK_IN1_RATE : RegField := ⟨0x140044, [], 6, 4, .rw, 0x2⟩  -- R373
def apu_WCLK_IN0_RATE : RegField := ⟨0x140044, [], 2, 0, .rw, 0x2⟩  -- R373
def apu_MON_STATE : RegField := ⟨0x140080, [(15, 0x8)], 31, 30, .ro, 0x0⟩  -- R373
def apu_MON_RATE_DEV : RegField := ⟨0x140080, [(15, 0x8)], 15, 0, .ro, 0x0⟩  -- R373
def apu_MON_EDGE_EXTRA : RegField := ⟨0x140084, [(15, 0x8)], 31, 16, .ctr, 0x0⟩  -- R373
def apu_MON_EDGE_MISS : RegField := ⟨0x140084, [(15, 0x8)], 15, 0, .ctr, 0x0⟩  -- R373
def apu_CNT_CLEAR : RegField := ⟨0x1401FC, [], 0, 0, .wo, 0x0⟩  -- R373
def apu_GRP_EN : RegField := ⟨0x140200, [(8, 0x40)], 31, 31, .rw, 0x0⟩  -- R373
def apu_GRP_ASRC_MODE : RegField := ⟨0x140200, [(8, 0x40)], 29, 28, .rw, 0x0⟩  -- R373
def apu_GRP_RATE : RegField := ⟨0x140200, [(8, 0x40)], 26, 24, .rw, 0x2⟩  -- R373
def apu_GRP_CLK_SRC : RegField := ⟨0x140200, [(8, 0x40)], 22, 20, .rw, 0x0⟩  -- R373
def apu_GRP_CLK_AES : RegField := ⟨0x140200, [(8, 0x40)], 17, 16, .rw, 0x0⟩  -- R373
def apu_GRP_ASRC_BW : RegField := ⟨0x140200, [(8, 0x40)], 7, 0, .rw, 0x14⟩  -- R373
def apu_GRP_SLIP_WIN : RegField := ⟨0x140204, [(8, 0x40)], 5, 0, .rw, 0x18⟩  -- R373
def apu_GRP_LOCK : RegField := ⟨0x140208, [(8, 0x40)], 31, 31, .ro, 0x0⟩  -- R373
def apu_GRP_CFG_BAD : RegField := ⟨0x140208, [(8, 0x40)], 30, 30, .ro, 0x0⟩  -- R373
def apu_GRP_HOLD : RegField := ⟨0x140208, [(8, 0x40)], 29, 29, .ro, 0x0⟩  -- R373
def apu_GRP_RX_FILL : RegField := ⟨0x140208, [(8, 0x40)], 23, 16, .ro, 0x0⟩  -- R373
def apu_GRP_TX_FILL : RegField := ⟨0x140208, [(8, 0x40)], 7, 0, .ro, 0x0⟩  -- R373
def apu_GRP_RATIO : RegField := ⟨0x14020C, [(8, 0x40)], 31, 0, .ro, 0x0⟩  -- R373
def apu_GRP_RX_SLIP_INS : RegField := ⟨0x140210, [(8, 0x40)], 31, 16, .ctr, 0x0⟩  -- R373
def apu_GRP_RX_SLIP_DROP : RegField := ⟨0x140210, [(8, 0x40)], 15, 0, .ctr, 0x0⟩  -- R373
def apu_GRP_TX_SLIP_INS : RegField := ⟨0x140214, [(8, 0x40)], 31, 16, .ctr, 0x0⟩  -- R373
def apu_GRP_TX_SLIP_DROP : RegField := ⟨0x140214, [(8, 0x40)], 15, 0, .ctr, 0x0⟩  -- R373
def apu_GRP_SLIP_TIDE : RegField := ⟨0x140218, [(8, 0x40)], 31, 0, .ro, 0x0⟩  -- R373
def apu_GRP_SLIP_TX : RegField := ⟨0x14021C, [(8, 0x40)], 31, 31, .ro, 0x0⟩  -- R373
def apu_GRP_SLIP_INSERT : RegField := ⟨0x14021C, [(8, 0x40)], 30, 30, .ro, 0x0⟩  -- R373
def apu_GRP_SLIP_PHASE : RegField := ⟨0x14021C, [(8, 0x40)], 20, 0, .ro, 0x0⟩  -- R373
def apu_GRP_TX_LAT : RegField := ⟨0x140220, [(8, 0x40)], 31, 16, .ro, 0x0⟩  -- R373
def apu_GRP_RX_LAT : RegField := ⟨0x140220, [(8, 0x40)], 15, 0, .ro, 0x0⟩  -- R373
def apu_TDM_EN : RegField := ⟨0x140400, [(8, 0x40)], 31, 31, .rw, 0x0⟩  -- R373
def apu_TDM_MASTER : RegField := ⟨0x140400, [(8, 0x40)], 30, 30, .rw, 0x0⟩  -- R373
def apu_TDM_FORMAT : RegField := ⟨0x140400, [(8, 0x40)], 29, 28, .rw, 0x0⟩  -- R373
def apu_TDM_DELAY : RegField := ⟨0x140400, [(8, 0x40)], 27, 27, .rw, 0x0⟩  -- R373
def apu_TDM_FS_PULSE : RegField := ⟨0x140400, [(8, 0x40)], 26, 26, .rw, 0x0⟩  -- R373
def apu_TDM_BCLK_INV : RegField := ⟨0x140400, [(8, 0x40)], 25, 25, .rw, 0x0⟩  -- R373
def apu_TDM_FS_INV : RegField := ⟨0x140400, [(8, 0x40)], 24, 24, .rw, 0x0⟩  -- R373
def apu_TDM_WIDTH : RegField := ⟨0x140400, [(8, 0x40)], 21, 20, .rw, 0x2⟩  -- R373
def apu_TDM_SLOTS : RegField := ⟨0x140400, [(8, 0x40)], 12, 8, .rw, 0x1⟩  -- R373
def apu_TDM_TX_IDLE : RegField := ⟨0x140400, [(8, 0x40)], 3, 3, .rw, 0x0⟩  -- R373
def apu_TDM_GROUP : RegField := ⟨0x140400, [(8, 0x40)], 2, 0, .rw, 0x0⟩  -- R373
def apu_TDM_RX_MASK : RegField := ⟨0x140404, [(8, 0x40)], 31, 0, .st, 0x0⟩  -- R373
def apu_TDM_TX_MASK : RegField := ⟨0x140408, [(8, 0x40)], 31, 0, .st, 0x0⟩  -- R373
def apu_TDM_FS_PHASE : RegField := ⟨0x14040C, [(8, 0x40)], 20, 0, .ro, 0x0⟩  -- R373
def apu_AES_RX_EN : RegField := ⟨0x140600, [(4, 0x80)], 31, 31, .rw, 0x0⟩  -- R373
def apu_AES_TX_EN : RegField := ⟨0x140800, [(4, 0x80)], 31, 31, .rw, 0x0⟩  -- R373
def apu_AES_RX_VALID_MUTE : RegField := ⟨0x140600, [(4, 0x80)], 30, 30, .rw, 0x0⟩  -- R373
def apu_AES_TX_AUTO_CRC : RegField := ⟨0x140800, [(4, 0x80)], 30, 30, .rw, 0x0⟩  -- R373
def apu_AES_TX_V_A : RegField := ⟨0x140800, [(4, 0x80)], 29, 29, .rw, 0x0⟩  -- R373
def apu_AES_TX_V_B : RegField := ⟨0x140800, [(4, 0x80)], 28, 28, .rw, 0x0⟩  -- R373
def apu_AES_RX_GROUP : RegField := ⟨0x140600, [(4, 0x80)], 2, 0, .rw, 0x0⟩  -- R373
def apu_AES_TX_GROUP : RegField := ⟨0x140800, [(4, 0x80)], 2, 0, .rw, 0x0⟩  -- R373
def apu_AES_RX_LOCK : RegField := ⟨0x140604, [(4, 0x80)], 31, 31, .ro, 0x0⟩  -- R373
def apu_AES_RX_NONAUDIO : RegField := ⟨0x140604, [(4, 0x80)], 30, 30, .ro, 0x0⟩  -- R373
def apu_AES_RX_PRO : RegField := ⟨0x140604, [(4, 0x80)], 29, 29, .ro, 0x0⟩  -- R373
def apu_AES_RX_RATE : RegField := ⟨0x140604, [(4, 0x80)], 26, 24, .ro, 0x0⟩  -- R373
def apu_AES_RX_FS_PHASE : RegField := ⟨0x140604, [(4, 0x80)], 20, 0, .ro, 0x0⟩  -- R373
def apu_AES_RX_CS_CRC_ERR : RegField := ⟨0x140608, [(4, 0x80)], 31, 16, .ctr, 0x0⟩  -- R373
def apu_AES_RX_PARITY_ERR : RegField := ⟨0x140608, [(4, 0x80)], 15, 0, .ctr, 0x0⟩  -- R373
def apu_AES_RX_BIPHASE_ERR : RegField := ⟨0x14060C, [(4, 0x80)], 15, 0, .ctr, 0x0⟩  -- R373
def apu_AES_RX_CS_A : RegField := ⟨0x140620, [(4, 0x80), (6, 0x4)], 31, 0, .ro, 0x0⟩  -- R373
def apu_AES_TX_CS_A : RegField := ⟨0x140820, [(4, 0x80), (6, 0x4)], 31, 0, .st, 0x0⟩  -- R373
def apu_AES_RX_CS_B : RegField := ⟨0x140638, [(4, 0x80), (6, 0x4)], 31, 0, .ro, 0x0⟩  -- R373
def apu_AES_TX_CS_B : RegField := ⟨0x140838, [(4, 0x80), (6, 0x4)], 31, 0, .st, 0x0⟩  -- R373
def apu_AES_RX_USER_A : RegField := ⟨0x140650, [(4, 0x80), (6, 0x4)], 31, 0, .ro, 0x0⟩  -- R373
def apu_AES_TX_USER_A : RegField := ⟨0x140850, [(4, 0x80), (6, 0x4)], 31, 0, .st, 0x0⟩  -- R373
def apu_AES_RX_USER_B : RegField := ⟨0x140668, [(4, 0x80), (6, 0x4)], 31, 0, .ro, 0x0⟩  -- R373
def apu_AES_TX_USER_B : RegField := ⟨0x140868, [(4, 0x80), (6, 0x4)], 31, 0, .st, 0x0⟩  -- R373

/-! ### Page `ess` -/

def ess_AUD_EN : RegField := ⟨0x150400, [], 0, 0, .rw, 0x0⟩  -- R375
def ess_RING_BASE : RegField := ⟨0x150404, [], 23, 0, .rw, 0x0⟩  -- R375
def ess_ARX_EN : RegField := ⟨0x151000, [(64, 0x40)], 31, 31, .rw, 0x0⟩  -- R375
def ess_ATX_EN : RegField := ⟨0x152000, [(64, 0x40)], 31, 31, .rw, 0x0⟩  -- R375
def ess_ARX_ENC : RegField := ⟨0x151000, [(64, 0x40)], 30, 30, .rw, 0x0⟩  -- R375
def ess_ATX_ENC : RegField := ⟨0x152000, [(64, 0x40)], 30, 30, .rw, 0x0⟩  -- R375
def ess_ARX_PTIME : RegField := ⟨0x151000, [(64, 0x40)], 29, 29, .rw, 0x0⟩  -- R375
def ess_ATX_PTIME : RegField := ⟨0x152000, [(64, 0x40)], 29, 29, .rw, 0x0⟩  -- R375
def ess_ARX_RED_EN : RegField := ⟨0x151000, [(64, 0x40)], 28, 28, .rw, 0x0⟩  -- R375
def ess_ATX_CFG_BAD : RegField := ⟨0x152000, [(64, 0x40)], 27, 27, .ro, 0x0⟩  -- R375
def ess_ARX_CHANNELS : RegField := ⟨0x151000, [(64, 0x40)], 26, 24, .rw, 0x0⟩  -- R375
def ess_ATX_CHANNELS : RegField := ⟨0x152000, [(64, 0x40)], 26, 24, .rw, 0x0⟩  -- R375
def ess_ARX_PT : RegField := ⟨0x151000, [(64, 0x40)], 22, 16, .rw, 0x0⟩  -- R375
def ess_ATX_PT : RegField := ⟨0x152000, [(64, 0x40)], 22, 16, .rw, 0x0⟩  -- R375
def ess_ARX_BERTH : RegField := ⟨0x151004, [(64, 0x40)], 24, 0, .rw, 0x0⟩  -- R375
def ess_ATX_BERTH : RegField := ⟨0x152004, [(64, 0x40)], 24, 0, .rw, 0x0⟩  -- R375
def ess_ARX_BERTH2 : RegField := ⟨0x151008, [(64, 0x40)], 24, 0, .rw, 0x0⟩  -- R375
def ess_ATX_PHASE : RegField := ⟨0x152008, [(64, 0x40)], 16, 0, .rw, 0x4E20⟩  -- R375
def ess_ARX_DELAY : RegField := ⟨0x15100C, [(64, 0x40)], 13, 0, .rw, 0x30⟩  -- R375
def ess_ARX_TS_OFS : RegField := ⟨0x151010, [(64, 0x40)], 31, 0, .rw, 0x0⟩  -- R375
def ess_ATX_TS_OFS : RegField := ⟨0x152010, [(64, 0x40)], 31, 0, .rw, 0x0⟩  -- R375
def ess_ATX_SEQ : RegField := ⟨0x152014, [(64, 0x40)], 15, 0, .rw, 0x0⟩  -- R375
def ess_ARX_PKTS : RegField := ⟨0x151018, [(64, 0x40)], 31, 0, .ctr, 0x0⟩  -- R375
def ess_ATX_PKTS : RegField := ⟨0x152018, [(64, 0x40)], 31, 0, .ctr, 0x0⟩  -- R375
def ess_ARX_LATE : RegField := ⟨0x15101C, [(64, 0x40)], 31, 0, .ctr, 0x0⟩  -- R375
def ess_ARX_EARLY : RegField := ⟨0x151020, [(64, 0x40)], 31, 0, .ctr, 0x0⟩  -- R375
def ess_ARX_BAD_FORMAT : RegField := ⟨0x151024, [(64, 0x40)], 31, 0, .ctr, 0x0⟩  -- R375
def ess_ARX_GAP : RegField := ⟨0x151028, [(64, 0x40)], 31, 0, .ctr, 0x0⟩  -- R375
def ess_VID_EN : RegField := ⟨0x150080, [], 0, 0, .rw, 0x0⟩  -- R504
def ess_TX_UNITS : RegField := ⟨0x150084, [], 19, 16, .ro, 0x0⟩  -- R504
def ess_RX_UNITS : RegField := ⟨0x150084, [], 3, 0, .ro, 0x0⟩  -- R504
def ess_VRX_EN : RegField := ⟨0x153000, [(8, 0x80)], 31, 31, .rw, 0x0⟩  -- R504
def ess_VTX_EN : RegField := ⟨0x153400, [(8, 0x80)], 31, 31, .rw, 0x0⟩  -- R504
def ess_VRX_CFG_BAD : RegField := ⟨0x153000, [(8, 0x80)], 30, 30, .ro, 0x0⟩  -- R504
def ess_VTX_CFG_BAD : RegField := ⟨0x153400, [(8, 0x80)], 30, 30, .ro, 0x0⟩  -- R504
def ess_VRX_RED_EN : RegField := ⟨0x153000, [(8, 0x80)], 29, 29, .rw, 0x0⟩  -- R504
def ess_VRX_RATE : RegField := ⟨0x153000, [(8, 0x80)], 26, 24, .rw, 0x0⟩  -- R504
def ess_VTX_RATE : RegField := ⟨0x153400, [(8, 0x80)], 26, 24, .rw, 0x0⟩  -- R504
def ess_VRX_FORMAT : RegField := ⟨0x153000, [(8, 0x80)], 21, 20, .rw, 0x0⟩  -- R504
def ess_VTX_FORMAT : RegField := ⟨0x153400, [(8, 0x80)], 21, 20, .rw, 0x0⟩  -- R504
def ess_VRX_DEPTH : RegField := ⟨0x153000, [(8, 0x80)], 19, 16, .rw, 0x3⟩  -- R504
def ess_VRX_PT : RegField := ⟨0x153000, [(8, 0x80)], 6, 0, .rw, 0x0⟩  -- R504
def ess_VTX_PT : RegField := ⟨0x153400, [(8, 0x80)], 6, 0, .rw, 0x0⟩  -- R504
def ess_VRX_BERTH : RegField := ⟨0x153004, [(8, 0x80)], 24, 0, .rw, 0x0⟩  -- R504
def ess_VTX_BERTH : RegField := ⟨0x153404, [(8, 0x80)], 24, 0, .rw, 0x0⟩  -- R504
def ess_VRX_BERTH2 : RegField := ⟨0x153008, [(8, 0x80)], 24, 0, .rw, 0x0⟩  -- R504
def ess_VRX_RING_ADDR : RegField := ⟨0x15300C, [(8, 0x80)], 31, 0, .rw, 0x0⟩  -- R504
def ess_VRX_ITEM_QUEUE : RegField := ⟨0x153010, [(8, 0x80)], 11, 0, .rw, 0x0⟩  -- R504
def ess_VTX_TRO : RegField := ⟨0x153410, [(8, 0x80)], 19, 0, .rw, 0x0⟩  -- R504
def ess_VTX_TS_OFS : RegField := ⟨0x153414, [(8, 0x80)], 31, 0, .rw, 0x0⟩  -- R504
def ess_VTX_SEQ : RegField := ⟨0x153418, [(8, 0x80)], 31, 0, .rw, 0x0⟩  -- R504
def ess_VRX_FRAMES : RegField := ⟨0x153020, [(8, 0x80)], 31, 0, .ctr, 0x0⟩  -- R504
def ess_VTX_FRAMES : RegField := ⟨0x153420, [(8, 0x80)], 31, 0, .ctr, 0x0⟩  -- R504
def ess_VRX_INCOMPLETE : RegField := ⟨0x153024, [(8, 0x80)], 31, 0, .ctr, 0x0⟩  -- R504
def ess_VTX_REPEAT : RegField := ⟨0x153424, [(8, 0x80)], 31, 0, .ctr, 0x0⟩  -- R504
def ess_VRX_BAD_FORMAT : RegField := ⟨0x153028, [(8, 0x80)], 31, 0, .ctr, 0x0⟩  -- R504
def ess_VTX_SKIP : RegField := ⟨0x153428, [(8, 0x80)], 31, 0, .ctr, 0x0⟩  -- R504

/-! ### Page `pier` -/

def pier_PSTORE_WIN : RegField := ⟨0x200040, [(9, 0x200000)], 3, 0, .rw, 0x0⟩  -- R585

/-! ### Page `rkn` -/

def rkn_EN : RegField := ⟨0x210040, [(9, 0x200000)], 0, 0, .rw, 0x0⟩  -- R412
def rkn_LOADED : RegField := ⟨0x210044, [(9, 0x200000)], 31, 31, .ro, 0x0⟩  -- R412
def rkn_LOAD_BUSY : RegField := ⟨0x210044, [(9, 0x200000)], 30, 30, .ro, 0x0⟩  -- R412
def rkn_SPARES_FREE : RegField := ⟨0x210044, [(9, 0x200000)], 23, 16, .ro, 0x8⟩  -- R412
def rkn_CORES_IN_SERVICE : RegField := ⟨0x210044, [(9, 0x200000)], 7, 0, .ro, 0x80⟩  -- R412
def rkn_IMG_ADDR : RegField := ⟨0x210048, [(9, 0x200000)], 31, 0, .rw, 0x0⟩  -- R412
def rkn_GO : RegField := ⟨0x21004C, [(9, 0x200000)], 0, 0, .wo, 0x0⟩  -- R412
def rkn_VALID : RegField := ⟨0x210050, [(9, 0x200000)], 31, 31, .ro, 0x0⟩  -- R412
def rkn_LOAD_ERR : RegField := ⟨0x210050, [(9, 0x200000)], 15, 8, .ro, 0x0⟩  -- R412
def rkn_STATUS : RegField := ⟨0x210050, [(9, 0x200000)], 7, 0, .ro, 0x0⟩  -- R412
def rkn_IMAGE_ID : RegField := ⟨0x210054, [(9, 0x200000)], 31, 0, .ro, 0x0⟩  -- R412
def rkn_IMAGE_CRC : RegField := ⟨0x210058, [(9, 0x200000)], 31, 0, .ro, 0x0⟩  -- R412
def rkn_PREEMPT_SAVE : RegField := ⟨0x21005C, [(9, 0x200000)], 8, 0, .ro, 0x0⟩  -- R412
def rkn_PREEMPTS : RegField := ⟨0x210080, [(9, 0x200000)], 31, 0, .ctr, 0x0⟩  -- R412
def rkn_OVERRUN : RegField := ⟨0x210084, [(9, 0x200000)], 31, 0, .ctr, 0x0⟩  -- R412
def rkn_TRAPS : RegField := ⟨0x210088, [(9, 0x200000)], 31, 0, .ctr, 0x0⟩  -- R412
def rkn_DMA_REFUSED : RegField := ⟨0x21008C, [(9, 0x200000)], 31, 0, .ctr, 0x0⟩  -- R412
def rkn_DMA_UE : RegField := ⟨0x210090, [(9, 0x200000)], 31, 0, .ctr, 0x0⟩  -- R412
def rkn_DMA_DEFER : RegField := ⟨0x210094, [(9, 0x200000)], 31, 0, .ctr, 0x0⟩  -- R412
def rkn_CNT_CLEAR : RegField := ⟨0x2100FC, [(9, 0x200000)], 0, 0, .wo, 0x0⟩  -- R412
def rkn_CORE_STATE : RegField := ⟨0x210400, [(9, 0x200000), (136, 0x10)], 31, 29, .ro, 0x0⟩  -- R412
def rkn_CORE_SPARE : RegField := ⟨0x210400, [(9, 0x200000), (136, 0x10)], 28, 28, .ro, 0x0⟩  -- R412
def rkn_CORE_SPARE_FOR : RegField := ⟨0x210400, [(9, 0x200000), (136, 0x10)], 27, 20, .ro, 0xFF⟩  -- R412
def rkn_CORE_NEST : RegField := ⟨0x210400, [(9, 0x200000), (136, 0x10)], 17, 16, .ro, 0x0⟩  -- R412
def rkn_CORE_PC : RegField := ⟨0x210400, [(9, 0x200000), (136, 0x10)], 12, 0, .ro, 0x0⟩  -- R412
def rkn_CORE_SLOT : RegField := ⟨0x210404, [(9, 0x200000), (136, 0x10)], 14, 0, .ro, 0x0⟩  -- R412
def rkn_CORE_TASK_CYCLES : RegField := ⟨0x210408, [(9, 0x200000), (136, 0x10)], 31, 0, .ro, 0x0⟩  -- R412
def rkn_CORE_TRAP_CAUSE : RegField := ⟨0x21040C, [(9, 0x200000), (136, 0x10)], 19, 16, .ro, 0x0⟩  -- R412
def rkn_CORE_LAST_TRAP_PC : RegField := ⟨0x21040C, [(9, 0x200000), (136, 0x10)], 12, 0, .ro, 0x0⟩  -- R412

/-! ### Page `vde` -/

def vde_SPARE : RegField := ⟨0x220040, [(9, 0x200000), (4, 0x1000)], 31, 31, .ro, 0x0⟩  -- R441
def vde_BUSY : RegField := ⟨0x220040, [(9, 0x200000), (4, 0x1000)], 30, 30, .ro, 0x0⟩  -- R441
def vde_SPARE_FOR : RegField := ⟨0x220040, [(9, 0x200000), (4, 0x1000)], 23, 16, .ro, 0xFF⟩  -- R441
def vde_CTX : RegField := ⟨0x220040, [(9, 0x200000), (4, 0x1000)], 11, 0, .ro, 0x0⟩  -- R441
def vde_LAST_CYCLES : RegField := ⟨0x220044, [(9, 0x200000), (4, 0x1000)], 31, 0, .ro, 0x0⟩  -- R441
def vde_PICTURES : RegField := ⟨0x220080, [(9, 0x200000), (4, 0x1000)], 31, 0, .ctr, 0x0⟩  -- R441
def vde_CONCEALED : RegField := ⟨0x220084, [(9, 0x200000), (4, 0x1000)], 31, 0, .ctr, 0x0⟩  -- R441
def vde_TRUNCATED : RegField := ⟨0x220088, [(9, 0x200000), (4, 0x1000)], 31, 0, .ctr, 0x0⟩  -- R441
def vde_STANDIN : RegField := ⟨0x22008C, [(9, 0x200000), (4, 0x1000)], 31, 0, .ctr, 0x0⟩  -- R441
def vde_SYNTAX_FAIL : RegField := ⟨0x220090, [(9, 0x200000), (4, 0x1000)], 31, 0, .ctr, 0x0⟩  -- R441
def vde_MEM_UE : RegField := ⟨0x220094, [(9, 0x200000), (4, 0x1000)], 31, 0, .ctr, 0x0⟩  -- R441
def vde_SCALE_RANGE : RegField := ⟨0x220098, [(9, 0x200000), (4, 0x1000)], 31, 0, .ctr, 0x0⟩  -- R441
def vde_CNT_CLEAR : RegField := ⟨0x2200FC, [(9, 0x200000), (4, 0x1000)], 0, 0, .wo, 0x0⟩  -- R441

/-! ### Page `decCtl` -/

def decCtl_EN : RegField := ⟨0x1230040, [], 0, 0, .rw, 0x0⟩  -- R442
def decCtl_CTX_BASE : RegField := ⟨0x1230044, [], 23, 0, .rw, 0x0⟩  -- R442
def decCtl_CMD_OP : RegField := ⟨0x1230048, [], 31, 28, .rw, 0x0⟩  -- R442
def decCtl_CMD_CTX : RegField := ⟨0x1230048, [], 11, 0, .rw, 0x0⟩  -- R442
def decCtl_CMD_ADDR : RegField := ⟨0x123004C, [], 31, 0, .rw, 0x0⟩  -- R442
def decCtl_CMD_GO : RegField := ⟨0x1230050, [], 0, 0, .wo, 0x0⟩  -- R442
def decCtl_CMD_BUSY : RegField := ⟨0x1230054, [], 31, 31, .ro, 0x0⟩  -- R442
def decCtl_CMD_VALID : RegField := ⟨0x1230054, [], 30, 30, .ro, 0x0⟩  -- R442
def decCtl_CMD_STATUS : RegField := ⟨0x1230054, [], 7, 0, .ro, 0x0⟩  -- R442
def decCtl_LATE_PKT : RegField := ⟨0x1230080, [], 31, 0, .ctr, 0x0⟩  -- R442
def decCtl_DEPKT_DROP : RegField := ⟨0x1230084, [], 31, 0, .ctr, 0x0⟩  -- R442
def decCtl_ASM_TIMEOUT : RegField := ⟨0x1230088, [], 31, 0, .ctr, 0x0⟩  -- R442
def decCtl_POOL_EVICT : RegField := ⟨0x123008C, [], 31, 0, .ctr, 0x0⟩  -- R442
def decCtl_REORDER_EXCEED : RegField := ⟨0x1230090, [], 31, 0, .ctr, 0x0⟩  -- R442
def decCtl_OUTPUT_SKIP : RegField := ⟨0x1230094, [], 31, 0, .ctr, 0x0⟩  -- R442
def decCtl_SIZE_EXCEED : RegField := ⟨0x1230098, [], 31, 0, .ctr, 0x0⟩  -- R442
def decCtl_UNSUPPORTED : RegField := ⟨0x123009C, [], 31, 0, .ctr, 0x0⟩  -- R442
def decCtl_KFR_REQ : RegField := ⟨0x12300A0, [], 31, 0, .ctr, 0x0⟩  -- R442
def decCtl_CNT_CLEAR : RegField := ⟨0x12300FC, [], 0, 0, .wo, 0x0⟩  -- R442

/-! ### Page `svy` -/

def svy_SPARE : RegField := ⟨0x240040, [(9, 0x200000), (2, 0x1000)], 31, 31, .ro, 0x0⟩  -- R472
def svy_BUSY : RegField := ⟨0x240040, [(9, 0x200000), (2, 0x1000)], 30, 30, .ro, 0x0⟩  -- R472
def svy_SPARE_FOR : RegField := ⟨0x240040, [(9, 0x200000), (2, 0x1000)], 23, 16, .ro, 0xFF⟩  -- R472
def svy_CTX : RegField := ⟨0x240040, [(9, 0x200000), (2, 0x1000)], 11, 0, .ro, 0x0⟩  -- R472
def svy_LAST_CYCLES : RegField := ⟨0x240044, [(9, 0x200000), (2, 0x1000)], 31, 0, .ro, 0x0⟩  -- R472
def svy_PICTURES : RegField := ⟨0x240080, [(9, 0x200000), (2, 0x1000)], 31, 0, .ctr, 0x0⟩  -- R472
def svy_STALE : RegField := ⟨0x240084, [(9, 0x200000), (2, 0x1000)], 31, 0, .ctr, 0x0⟩  -- R472
def svy_MEM_UE : RegField := ⟨0x240088, [(9, 0x200000), (2, 0x1000)], 31, 0, .ctr, 0x0⟩  -- R472
def svy_TRUNC_FORCED : RegField := ⟨0x24008C, [(9, 0x200000), (2, 0x1000)], 31, 0, .ctr, 0x0⟩  -- R472
def svy_TRUNC_MINIMAL : RegField := ⟨0x240090, [(9, 0x200000), (2, 0x1000)], 31, 0, .ctr, 0x0⟩  -- R472
def svy_KEYS : RegField := ⟨0x240094, [(9, 0x200000), (2, 0x1000)], 31, 0, .ctr, 0x0⟩  -- R472
def svy_PACKETS : RegField := ⟨0x240098, [(9, 0x200000), (2, 0x1000)], 31, 0, .ctr, 0x0⟩  -- R472
def svy_CNT_CLEAR : RegField := ⟨0x2400FC, [(9, 0x200000), (2, 0x1000)], 0, 0, .wo, 0x0⟩  -- R472

/-! ### Page `ltr` -/

def ltr_SPARE : RegField := ⟨0x250040, [(9, 0x200000), (6, 0x1000)], 31, 31, .ro, 0x0⟩  -- R472
def ltr_BUSY : RegField := ⟨0x250040, [(9, 0x200000), (6, 0x1000)], 30, 30, .ro, 0x0⟩  -- R472
def ltr_SPARE_FOR : RegField := ⟨0x250040, [(9, 0x200000), (6, 0x1000)], 23, 16, .ro, 0xFF⟩  -- R472
def ltr_CTX : RegField := ⟨0x250040, [(9, 0x200000), (6, 0x1000)], 11, 0, .ro, 0x0⟩  -- R472
def ltr_LAST_CYCLES : RegField := ⟨0x250044, [(9, 0x200000), (6, 0x1000)], 31, 0, .ro, 0x0⟩  -- R472
def ltr_PICTURES : RegField := ⟨0x250080, [(9, 0x200000), (6, 0x1000)], 31, 0, .ctr, 0x0⟩  -- R472
def ltr_STALE : RegField := ⟨0x250084, [(9, 0x200000), (6, 0x1000)], 31, 0, .ctr, 0x0⟩  -- R472
def ltr_MEM_UE : RegField := ⟨0x250088, [(9, 0x200000), (6, 0x1000)], 31, 0, .ctr, 0x0⟩  -- R472
def ltr_TRUNC_FORCED : RegField := ⟨0x25008C, [(9, 0x200000), (6, 0x1000)], 31, 0, .ctr, 0x0⟩  -- R472
def ltr_TRUNC_MINIMAL : RegField := ⟨0x250090, [(9, 0x200000), (6, 0x1000)], 31, 0, .ctr, 0x0⟩  -- R472
def ltr_KEYS : RegField := ⟨0x250094, [(9, 0x200000), (6, 0x1000)], 31, 0, .ctr, 0x0⟩  -- R472
def ltr_PACKETS : RegField := ⟨0x250098, [(9, 0x200000), (6, 0x1000)], 31, 0, .ctr, 0x0⟩  -- R472
def ltr_CNT_CLEAR : RegField := ⟨0x2500FC, [(9, 0x200000), (6, 0x1000)], 0, 0, .wo, 0x0⟩  -- R472

/-! ### Page `encCtl` -/

def encCtl_FB_EN : RegField := ⟨0x1260040, [], 1, 1, .rw, 0x0⟩  -- R473
def encCtl_EN : RegField := ⟨0x1260040, [], 0, 0, .rw, 0x0⟩  -- R473
def encCtl_SVY_CTX_BASE : RegField := ⟨0x1260044, [], 23, 0, .rw, 0x0⟩  -- R473
def encCtl_LTR_CTX_BASE : RegField := ⟨0x1260048, [], 23, 0, .rw, 0x0⟩  -- R473
def encCtl_FB_QUEUE : RegField := ⟨0x126004C, [], 11, 0, .rw, 0x0⟩  -- R473
def encCtl_CMD_OP : RegField := ⟨0x1260050, [], 31, 28, .rw, 0x0⟩  -- R473
def encCtl_CMD_STAGED : RegField := ⟨0x1260050, [], 16, 16, .rw, 0x0⟩  -- R473
def encCtl_CMD_CTX : RegField := ⟨0x1260050, [], 11, 0, .rw, 0x0⟩  -- R473
def encCtl_CMD_ADDR : RegField := ⟨0x1260054, [], 31, 0, .rw, 0x0⟩  -- R473
def encCtl_CMD_APPLY_TIDE_LO : RegField := ⟨0x1260058, [], 31, 0, .rw, 0x0⟩  -- R473
def encCtl_CMD_APPLY_TIDE_HI : RegField := ⟨0x126005C, [], 31, 0, .rw, 0x0⟩  -- R473
def encCtl_CMD_GO : RegField := ⟨0x1260060, [], 0, 0, .wo, 0x0⟩  -- R473
def encCtl_CMD_BUSY : RegField := ⟨0x1260064, [], 31, 31, .ro, 0x0⟩  -- R473
def encCtl_CMD_VALID : RegField := ⟨0x1260064, [], 30, 30, .ro, 0x0⟩  -- R473
def encCtl_CMD_APPLY : RegField := ⟨0x1260064, [], 29, 27, .ro, 0x0⟩  -- R473
def encCtl_CMD_STATUS : RegField := ⟨0x1260064, [], 7, 0, .ro, 0x0⟩  -- R473
def encCtl_SET_BYTES : RegField := ⟨0x1260068, [], 31, 0, .ro, 0x0⟩  -- R473
def encCtl_REF_BYTES : RegField := ⟨0x126006C, [], 31, 0, .ro, 0x0⟩  -- R473
def encCtl_KEY_REQ : RegField := ⟨0x1260080, [], 31, 0, .ctr, 0x0⟩  -- R473
def encCtl_KEY_MERGED : RegField := ⟨0x1260084, [], 31, 0, .ctr, 0x0⟩  -- R473
def encCtl_FB_NO_TAIL : RegField := ⟨0x1260088, [], 31, 0, .ctr, 0x0⟩  -- R473
def encCtl_FB_IGNORED : RegField := ⟨0x126008C, [], 31, 0, .ctr, 0x0⟩  -- R473
def encCtl_NO_RECORDS : RegField := ⟨0x1260090, [], 31, 0, .ctr, 0x0⟩  -- R473
def encCtl_STREAM_DROP : RegField := ⟨0x1260094, [], 31, 0, .ctr, 0x0⟩  -- R473
def encCtl_CNT_CLEAR : RegField := ⟨0x12600FC, [], 0, 0, .wo, 0x0⟩  -- R473

/-! ### Page `lcp` -/

def lcp_SPARE : RegField := ⟨0x270040, [(9, 0x200000)], 31, 31, .ro, 0x0⟩  -- R502
def lcp_BUSY : RegField := ⟨0x270040, [(9, 0x200000)], 30, 30, .ro, 0x0⟩  -- R502
def lcp_SPARE_FOR : RegField := ⟨0x270040, [(9, 0x200000)], 23, 16, .ro, 0xFF⟩  -- R502
def lcp_CTX : RegField := ⟨0x270040, [(9, 0x200000)], 7, 0, .ro, 0x0⟩  -- R502
def lcp_LAST_CYCLES : RegField := ⟨0x270044, [(9, 0x200000)], 31, 0, .ro, 0x0⟩  -- R502
def lcp_PICTURES : RegField := ⟨0x270080, [(9, 0x200000)], 31, 0, .ctr, 0x0⟩  -- R502
def lcp_STALE : RegField := ⟨0x270084, [(9, 0x200000)], 31, 0, .ctr, 0x0⟩  -- R502
def lcp_MEM_UE : RegField := ⟨0x270088, [(9, 0x200000)], 31, 0, .ctr, 0x0⟩  -- R502
def lcp_CNT_CLEAR : RegField := ⟨0x2700FC, [(9, 0x200000)], 0, 0, .wo, 0x0⟩  -- R502

/-! ### Page `cmpCtl` -/

def cmpCtl_EN : RegField := ⟨0x1280040, [], 0, 0, .rw, 0x0⟩  -- R503
def cmpCtl_VIEW_CTX_BASE : RegField := ⟨0x1280044, [], 23, 0, .rw, 0x0⟩  -- R503
def cmpCtl_CMD_OP : RegField := ⟨0x1280050, [], 31, 28, .rw, 0x0⟩  -- R503
def cmpCtl_CMD_STAGED : RegField := ⟨0x1280050, [], 16, 16, .rw, 0x0⟩  -- R503
def cmpCtl_CMD_CTX : RegField := ⟨0x1280050, [], 7, 0, .rw, 0x0⟩  -- R503
def cmpCtl_CMD_ADDR : RegField := ⟨0x1280054, [], 31, 0, .rw, 0x0⟩  -- R503
def cmpCtl_CMD_APPLY_TIDE_LO : RegField := ⟨0x1280058, [], 31, 0, .rw, 0x0⟩  -- R503
def cmpCtl_CMD_APPLY_TIDE_HI : RegField := ⟨0x128005C, [], 31, 0, .rw, 0x0⟩  -- R503
def cmpCtl_CMD_GO : RegField := ⟨0x1280060, [], 0, 0, .wo, 0x0⟩  -- R503
def cmpCtl_CMD_BUSY : RegField := ⟨0x1280064, [], 31, 31, .ro, 0x0⟩  -- R503
def cmpCtl_CMD_VALID : RegField := ⟨0x1280064, [], 30, 30, .ro, 0x0⟩  -- R503
def cmpCtl_CMD_APPLY : RegField := ⟨0x1280064, [], 29, 27, .ro, 0x0⟩  -- R503
def cmpCtl_CMD_STATUS : RegField := ⟨0x1280064, [], 7, 0, .ro, 0x0⟩  -- R503
def cmpCtl_F_BOOKED : RegField := ⟨0x1280068, [], 31, 0, .ro, 0x0⟩  -- R503
def cmpCtl_LAYER_SKIP : RegField := ⟨0x1280080, [], 31, 0, .ctr, 0x0⟩  -- R503
def cmpCtl_LAYER_BAD : RegField := ⟨0x1280084, [], 31, 0, .ctr, 0x0⟩  -- R503
def cmpCtl_LAYER_CLIP : RegField := ⟨0x1280088, [], 31, 0, .ctr, 0x0⟩  -- R503
def cmpCtl_STALE_LAYERS : RegField := ⟨0x128008C, [], 31, 0, .ctr, 0x0⟩  -- R503
def cmpCtl_PLACEHOLDER : RegField := ⟨0x1280090, [], 31, 0, .ctr, 0x0⟩  -- R503
def cmpCtl_CNT_CLEAR : RegField := ⟨0x12800FC, [], 0, 0, .wo, 0x0⟩  -- R503

/-! ### Page `hld` -/

def hld_INJ_EN : RegField := ⟨0x160040, [], 3, 3, .rw, 0x0⟩  -- R529
def hld_SCRUB_EN : RegField := ⟨0x160040, [], 2, 2, .rw, 0x0⟩  -- R529
def hld_AUTO_SR_EN : RegField := ⟨0x160040, [], 1, 1, .rw, 0x0⟩  -- R529
def hld_EN : RegField := ⟨0x160040, [], 0, 0, .rw, 0x0⟩  -- R529
def hld_INIT_DONE : RegField := ⟨0x160044, [], 31, 31, .ro, 0x0⟩  -- R529
def hld_TRAINED : RegField := ⟨0x160044, [], 30, 30, .ro, 0x0⟩  -- R529
def hld_REGION_BAD : RegField := ⟨0x160044, [], 29, 29, .ro, 0x0⟩  -- R529
def hld_HOT : RegField := ⟨0x160044, [], 28, 28, .ro, 0x0⟩  -- R529
def hld_SPARE_E_FOR : RegField := ⟨0x160044, [], 15, 8, .ro, 0xFF⟩  -- R529
def hld_SPARE_W_FOR : RegField := ⟨0x160044, [], 7, 0, .ro, 0xFF⟩  -- R529
def hld_USABLE_MIB : RegField := ⟨0x160048, [], 16, 0, .ro, 0x1C000⟩  -- R529
def hld_SR_IDLE : RegField := ⟨0x16004C, [], 19, 0, .rw, 0x3E8⟩  -- R529
def hld_SCRUB_PERIOD : RegField := ⟨0x160050, [], 7, 0, .rw, 0x18⟩  -- R529
def hld_RETRAIN_TIDES : RegField := ⟨0x160054, [], 9, 0, .rw, 0x64⟩  -- R529
def hld_EBB_KEEP : RegField := ⟨0x160058, [], 7, 0, .rw, 0x1⟩  -- R529
def hld_CE_THRESH : RegField := ⟨0x16005C, [], 15, 0, .rw, 0x40⟩  -- R529
def hld_CORR_LIMIT : RegField := ⟨0x160060, [], 18, 16, .rw, 0x4⟩  -- R529
def hld_ERASE_THRESH : RegField := ⟨0x160060, [], 7, 0, .rw, 0x10⟩  -- R529
def hld_UE_COUNT : RegField := ⟨0x160080, [], 31, 0, .ctr, 0x0⟩  -- R529
def hld_CE_COUNT : RegField := ⟨0x160084, [], 31, 0, .ctr, 0x0⟩  -- R529
def hld_POISON_READS : RegField := ⟨0x160088, [], 31, 0, .ctr, 0x0⟩  -- R529
def hld_SCRUB_CORR : RegField := ⟨0x16008C, [], 31, 0, .ctr, 0x0⟩  -- R529
def hld_UE_ADDR_LO : RegField := ⟨0x160090, [], 31, 0, .ro, 0x0⟩  -- R529
def hld_UE_ADDR_HI : RegField := ⟨0x160094, [], 31, 0, .ro, 0x0⟩  -- R529
def hld_UE_CH : RegField := ⟨0x160098, [], 5, 0, .ro, 0x0⟩  -- R529
def hld_UNMAPPED : RegField := ⟨0x16009C, [], 31, 0, .ctr, 0x0⟩  -- R529
def hld_CNT_CLEAR : RegField := ⟨0x1600FC, [], 0, 0, .wo, 0x0⟩  -- R529
def hld_REG_VALID : RegField := ⟨0x160100, [(8, 0x20)], 31, 31, .rw, 0x0⟩  -- R529
def hld_REG_GRAIN : RegField := ⟨0x160100, [(8, 0x20)], 19, 16, .rw, 0x0⟩  -- R529
def hld_REG_CH_FIRST : RegField := ⟨0x160100, [(8, 0x20)], 14, 8, .rw, 0x0⟩  -- R529
def hld_REG_CH_COUNT_LOG2 : RegField := ⟨0x160100, [(8, 0x20)], 2, 0, .rw, 0x0⟩  -- R529
def hld_REG_BASE : RegField := ⟨0x160104, [(8, 0x20)], 16, 0, .rw, 0x0⟩  -- R529
def hld_REG_SIZE : RegField := ⟨0x160108, [(8, 0x20)], 16, 0, .rw, 0x0⟩  -- R529
def hld_REG_LOCAL_BASE : RegField := ⟨0x16010C, [(8, 0x20)], 10, 0, .rw, 0x0⟩  -- R529
def hld_INJ_CH : RegField := ⟨0x160800, [], 29, 24, .rw, 0x0⟩  -- R529
def hld_INJ_SYMBOLS : RegField := ⟨0x160800, [], 19, 16, .rw, 0x0⟩  -- R529
def hld_INJ_REPEAT : RegField := ⟨0x160800, [], 3, 3, .rw, 0x0⟩  -- R529
def hld_INJ_CHECK : RegField := ⟨0x160800, [], 2, 2, .rw, 0x0⟩  -- R529
def hld_INJ_ON_WRITE : RegField := ⟨0x160800, [], 1, 1, .rw, 0x0⟩  -- R529
def hld_INJ_ADDR_LO : RegField := ⟨0x160804, [], 31, 0, .rw, 0x0⟩  -- R529
def hld_INJ_ADDR_HI : RegField := ⟨0x160808, [], 31, 0, .rw, 0x0⟩  -- R529
def hld_INJ_POISON : RegField := ⟨0x16080C, [], 1, 1, .wo, 0x0⟩  -- R529
def hld_ARM : RegField := ⟨0x16080C, [], 0, 0, .wo, 0x0⟩  -- R529
def hld_ARMED : RegField := ⟨0x160810, [], 31, 31, .ro, 0x0⟩  -- R529
def hld_INJ_HITS : RegField := ⟨0x160810, [], 15, 0, .ctr, 0x0⟩  -- R529
def hld_CH_STATE : RegField := ⟨0x161000, [(64, 0x40)], 31, 29, .ro, 0x0⟩  -- R529
def hld_CH_SPARE_CTRL : RegField := ⟨0x161000, [(64, 0x40)], 28, 28, .ro, 0x0⟩  -- R529
def hld_CH_REFRESH_MULT : RegField := ⟨0x161000, [(64, 0x40)], 25, 24, .ro, 0x0⟩  -- R529
def hld_CH_CE : RegField := ⟨0x161004, [(64, 0x40)], 31, 0, .ctr, 0x0⟩  -- R529
def hld_CH_UE : RegField := ⟨0x161008, [(64, 0x40)], 31, 0, .ctr, 0x0⟩  -- R529
def hld_CH_RETRAIN_FAIL : RegField := ⟨0x16100C, [(64, 0x40)], 15, 0, .ctr, 0x0⟩  -- R529
def hld_CH_RETRAIN_CONSEC : RegField := ⟨0x16100C, [(64, 0x40)], 31, 16, .ro, 0x0⟩  -- R529
def hld_CH_SR_ENTRIES : RegField := ⟨0x161010, [(64, 0x40)], 31, 0, .ctr, 0x0⟩  -- R529
def hld_CH_ERASE_VALID : RegField := ⟨0x161014, [(64, 0x40)], 4, 4, .rw, 0x0⟩  -- R529
def hld_CH_ERASE_LINE : RegField := ⟨0x161014, [(64, 0x40)], 3, 0, .rw, 0x0⟩  -- R529

/-! ### Page `mrg` -/

def mrg_EN : RegField := ⟨0x180040, [], 31, 31, .rw, 0x0⟩  -- R553
def mrg_SKIP_LOG2 : RegField := ⟨0x180040, [], 19, 16, .rw, 0x8⟩  -- R553
def mrg_RANK : RegField := ⟨0x180040, [], 15, 8, .rw, 0x0⟩  -- R553
def mrg_OP : RegField := ⟨0x180044, [], 3, 0, .wo, 0x0⟩  -- R553
def mrg_STATUS : RegField := ⟨0x180048, [], 7, 0, .ro, 0x0⟩  -- R553
def mrg_ROLE : RegField := ⟨0x18004C, [], 31, 30, .ro, 0x0⟩  -- R553
def mrg_SYNC : RegField := ⟨0x18004C, [], 29, 28, .ro, 0x0⟩  -- R553
def mrg_LINK_UP : RegField := ⟨0x18004C, [], 27, 27, .ro, 0x0⟩  -- R553
def mrg_HB_MRG_OK : RegField := ⟨0x18004C, [], 26, 26, .ro, 0x0⟩  -- R553
def mrg_HB_WIRE_OK : RegField := ⟨0x18004C, [], 25, 25, .ro, 0x0⟩  -- R553
def mrg_OUT_OPEN : RegField := ⟨0x18004C, [], 24, 24, .ro, 0x0⟩  -- R553
def mrg_PARTNER_OK : RegField := ⟨0x18004C, [], 23, 23, .ro, 0x0⟩  -- R553
def mrg_CLAIM_OWN : RegField := ⟨0x180050, [], 31, 0, .ro, 0x0⟩  -- R553
def mrg_CLAIM_PARTNER : RegField := ⟨0x180054, [], 31, 0, .ro, 0x0⟩  -- R553
def mrg_SYNC_AGE : RegField := ⟨0x180058, [], 31, 0, .ro, 0x0⟩  -- R553
def mrg_SWEEP_ROWS : RegField := ⟨0x18005C, [], 19, 0, .rw, 0x4000⟩  -- R553
def mrg_FORCE_SKIP : RegField := ⟨0x180060, [], 15, 0, .rw, 0x1000⟩  -- R553
def mrg_RX_POL : RegField := ⟨0x180064, [], 11, 10, .rw, 0x0⟩  -- R553
def mrg_TX_POL : RegField := ⟨0x180064, [], 9, 8, .rw, 0x0⟩  -- R553
def mrg_RX_MAP : RegField := ⟨0x180064, [], 1, 1, .rw, 0x0⟩  -- R553
def mrg_TX_MAP : RegField := ⟨0x180064, [], 0, 0, .rw, 0x0⟩  -- R553
def mrg_TXEQ : RegField := ⟨0x180068, [(2, 0x4)], 29, 0, .rw, 0x1C3C00⟩  -- R553
def mrg_HB_MISS_MRG : RegField := ⟨0x180080, [], 31, 0, .ctr, 0x0⟩  -- R553
def mrg_HB_MISS_WIRE : RegField := ⟨0x180084, [], 31, 0, .ctr, 0x0⟩  -- R553
def mrg_TIDE_SKEW : RegField := ⟨0x180088, [], 31, 0, .ctr, 0x0⟩  -- R553
def mrg_FCS_ERR : RegField := ⟨0x18008C, [], 31, 0, .ctr, 0x0⟩  -- R553
def mrg_DELTA_INCOMPLETE : RegField := ⟨0x180090, [], 31, 0, .ctr, 0x0⟩  -- R553
def mrg_DELTA_MAX : RegField := ⟨0x180094, [], 31, 0, .ro, 0x0⟩  -- R553
def mrg_SKIP_GUARD_DROP : RegField := ⟨0x180098, [], 31, 0, .ctr, 0x0⟩  -- R553
def mrg_GATED_DROP : RegField := ⟨0x18009C, [], 31, 0, .ctr, 0x0⟩  -- R553
def mrg_STANDBY_RX_DROP : RegField := ⟨0x1800A0, [], 31, 0, .ctr, 0x0⟩  -- R553
def mrg_BULK_ROWS : RegField := ⟨0x1800A4, [], 31, 0, .ctr, 0x0⟩  -- R553
def mrg_TAKEOVERS : RegField := ⟨0x1800A8, [], 15, 0, .ctr, 0x0⟩  -- R553
def mrg_DEMOTIONS : RegField := ⟨0x1800A8, [], 31, 16, .ctr, 0x0⟩  -- R553
def mrg_CNT_CLEAR : RegField := ⟨0x1800FC, [], 0, 0, .wo, 0x0⟩  -- R553

/-! ### Page `slw` -/

def slw_AUDIT_EN : RegField := ⟨0x190040, [], 31, 31, .rw, 0x1⟩  -- R577
def slw_AUDIT_KIND_MASK : RegField := ⟨0x190040, [], 15, 0, .rw, 0x37BF⟩  -- R577
def slw_AUDIT_PERIOD : RegField := ⟨0x190044, [], 15, 0, .rw, 0xFA0⟩  -- R577
def slw_BOOT_DONE : RegField := ⟨0x190048, [], 31, 31, .ro, 0x0⟩  -- R577
def slw_BOOT_PASS : RegField := ⟨0x190048, [], 30, 30, .ro, 0x0⟩  -- R577
def slw_BOOT_SHORT : RegField := ⟨0x190048, [], 29, 29, .ro, 0x0⟩  -- R577
def slw_BOOT_SOFT_NEW : RegField := ⟨0x190048, [], 23, 16, .ro, 0x0⟩  -- R577
def slw_FSOURCE_OK : RegField := ⟨0x19004C, [], 31, 31, .ro, 0x0⟩  -- R577
def slw_FUSE_BUSY : RegField := ⟨0x19004C, [], 30, 30, .ro, 0x0⟩  -- R577
def slw_REPAIR_USED : RegField := ⟨0x19004C, [], 23, 16, .ro, 0x0⟩  -- R577
def slw_RETIRE_USED : RegField := ⟨0x19004C, [], 13, 8, .ro, 0x0⟩  -- R577
def slw_USER_USED : RegField := ⟨0x19004C, [], 5, 0, .ro, 0x0⟩  -- R577
def slw_CMD_OP : RegField := ⟨0x190050, [], 31, 28, .rw, 0x0⟩  -- R577
def slw_CMD_KIND : RegField := ⟨0x190050, [], 27, 24, .rw, 0x0⟩  -- R577
def slw_CMD_INDEX : RegField := ⟨0x190050, [], 18, 8, .rw, 0x0⟩  -- R577
def slw_CMD_WORD : RegField := ⟨0x190050, [], 4, 0, .rw, 0x0⟩  -- R577
def slw_CMD_DATA : RegField := ⟨0x190054, [], 31, 0, .rw, 0x0⟩  -- R577
def slw_CMD_GO : RegField := ⟨0x190058, [], 0, 0, .wo, 0x0⟩  -- R577
def slw_CMD_BUSY : RegField := ⟨0x19005C, [], 31, 31, .ro, 0x0⟩  -- R577
def slw_CMD_VALID : RegField := ⟨0x19005C, [], 30, 30, .ro, 0x0⟩  -- R577
def slw_CMD_STATUS : RegField := ⟨0x19005C, [], 7, 0, .ro, 0x0⟩  -- R577
def slw_AUDITS_DONE : RegField := ⟨0x190080, [], 31, 0, .ctr, 0x0⟩  -- R577
def slw_AUDIT_FAIL : RegField := ⟨0x190084, [], 31, 0, .ctr, 0x0⟩  -- R577
def slw_AUDIT_FLAKY : RegField := ⟨0x190088, [], 31, 0, .ctr, 0x0⟩  -- R577
def slw_AUDIT_ABORT : RegField := ⟨0x19008C, [], 31, 0, .ctr, 0x0⟩  -- R577
def slw_AUDIT_LATE : RegField := ⟨0x190090, [], 31, 0, .ctr, 0x0⟩  -- R577
def slw_AUDIT_SKIPPED : RegField := ⟨0x190094, [], 31, 0, .ctr, 0x0⟩  -- R577
def slw_FUSE_VERIFY_FAIL : RegField := ⟨0x190098, [], 31, 0, .ctr, 0x0⟩  -- R577
def slw_CNT_CLEAR : RegField := ⟨0x1900FC, [], 0, 0, .wo, 0x0⟩  -- R577
def slw_KIND_IN_SERVICE : RegField := ⟨0x190100, [(16, 0x10)], 31, 16, .ro, 0x0⟩  -- R577
def slw_KIND_SPARES : RegField := ⟨0x190100, [(16, 0x10)], 15, 8, .ro, 0x0⟩  -- R577
def slw_KIND_SPARES_FREE : RegField := ⟨0x190100, [(16, 0x10)], 7, 0, .ro, 0x0⟩  -- R577
def slw_KIND_RETIRED : RegField := ⟨0x190104, [(16, 0x10)], 31, 16, .ro, 0x0⟩  -- R577
def slw_KIND_LAST_INDEX : RegField := ⟨0x190104, [(16, 0x10)], 15, 0, .ro, 0x0⟩  -- R577
def slw_KIND_LAST_CYCLE : RegField := ⟨0x190108, [(16, 0x10)], 31, 0, .ro, 0x0⟩  -- R577
def slw_KIND_LAST_RESULT : RegField := ⟨0x19010C, [(16, 0x10)], 29, 28, .ro, 0x0⟩  -- R577
def slw_KIND_SLICES : RegField := ⟨0x19010C, [(16, 0x10)], 23, 16, .ro, 0x0⟩  -- R577
def slw_KIND_COVERAGE : RegField := ⟨0x19010C, [(16, 0x10)], 15, 0, .ro, 0x0⟩  -- R577

/-! ### Page `tgg` -/

def tgg_EN : RegField := ⟨0x1A0040, [], 0, 0, .rw, 0x0⟩  -- R579
def tgg_SEL : RegField := ⟨0x1A0100, [], 7, 0, .rw, 0x0⟩  -- R579
def tgg_SNAP : RegField := ⟨0x1A0104, [], 1, 1, .wo, 0x0⟩  -- R579
def tgg_CAPTURE : RegField := ⟨0x1A0104, [], 0, 0, .wo, 0x0⟩  -- R579
def tgg_CLEAR : RegField := ⟨0x1A0108, [], 0, 0, .wo, 0x0⟩  -- R579
def tgg_RO_MIN : RegField := ⟨0x1A0200, [], 31, 0, .ro, 0x7FFFFFFF⟩  -- R579
def tgg_RO_MAX : RegField := ⟨0x1A0204, [], 31, 0, .ro, 0x80000000⟩  -- R579
def tgg_RO_COUNT : RegField := ⟨0x1A0208, [], 31, 0, .ro, 0x0⟩  -- R579
def tgg_RO_SUM_LO : RegField := ⟨0x1A020C, [], 31, 0, .ro, 0x0⟩  -- R579
def tgg_RO_SUM_HI : RegField := ⟨0x1A0210, [], 31, 0, .ro, 0x0⟩  -- R579
def tgg_RO_UNDER : RegField := ⟨0x1A0214, [], 31, 0, .ro, 0x0⟩  -- R579
def tgg_RO_OVER : RegField := ⟨0x1A0218, [], 31, 0, .ro, 0x0⟩  -- R579
def tgg_RO_DROPPED : RegField := ⟨0x1A021C, [], 31, 0, .ro, 0x0⟩  -- R579
def tgg_RO_SNAP_TIDE : RegField := ⟨0x1A0220, [], 31, 0, .ro, 0x0⟩  -- R579
def tgg_RO_BIN : RegField := ⟨0x1A0280, [(32, 0x4)], 31, 0, .ro, 0x0⟩  -- R579
def tgg_G_EN : RegField := ⟨0x1A1000, [(256, 0x10)], 31, 31, .rw, 0x0⟩  -- R579
def tgg_G_LOG_BINS : RegField := ⟨0x1A1000, [(256, 0x10)], 30, 30, .rw, 0x0⟩  -- R579
def tgg_G_SAMPLE_LOG2 : RegField := ⟨0x1A1000, [(256, 0x10)], 27, 24, .rw, 0x0⟩  -- R579
def tgg_G_SOURCE : RegField := ⟨0x1A1000, [(256, 0x10)], 23, 16, .rw, 0x0⟩  -- R579
def tgg_G_INDEX : RegField := ⟨0x1A1000, [(256, 0x10)], 15, 0, .rw, 0x0⟩  -- R579
def tgg_G_BASE : RegField := ⟨0x1A1004, [(256, 0x10)], 31, 0, .rw, 0x0⟩  -- R579
def tgg_G_WIDTH : RegField := ⟨0x1A1008, [(256, 0x10)], 30, 0, .rw, 0x1⟩  -- R579
def tgg_G_PERIOD : RegField := ⟨0x1A100C, [(256, 0x10)], 15, 0, .rw, 0x0⟩  -- R579

/-! ### Page `lfi` -/

def lfi_EN : RegField := ⟨0x1B0040, [], 0, 0, .rw, 0x0⟩  -- R580
def lfi_LFSR_SEED : RegField := ⟨0x1B0044, [], 31, 0, .wo, 0x0⟩  -- R580
def lfi_RULE_EN : RegField := ⟨0x1B0100, [(16, 0x20)], 31, 31, .rw, 0x0⟩  -- R580
def lfi_RULE_ACTION : RegField := ⟨0x1B0100, [(16, 0x20)], 30, 28, .rw, 0x0⟩  -- R580
def lfi_RULE_POINT : RegField := ⟨0x1B0100, [(16, 0x20)], 27, 24, .rw, 0x0⟩  -- R580
def lfi_RULE_CTRL_EN : RegField := ⟨0x1B0100, [(16, 0x20)], 23, 23, .rw, 0x0⟩  -- R580
def lfi_RULE_CORRUPT_PRE : RegField := ⟨0x1B0100, [(16, 0x20)], 22, 22, .rw, 0x0⟩  -- R580
def lfi_RULE_ANY_PORT : RegField := ⟨0x1B0100, [(16, 0x20)], 18, 18, .rw, 0x1⟩  -- R580
def lfi_RULE_PORT_S : RegField := ⟨0x1B0100, [(16, 0x20)], 17, 16, .rw, 0x0⟩  -- R580
def lfi_RULE_HOLD_N : RegField := ⟨0x1B0100, [(16, 0x20)], 4, 0, .rw, 0x1⟩  -- R580
def lfi_RULE_MATCH_OFS : RegField := ⟨0x1B0104, [(16, 0x20)], 7, 0, .rw, 0x0⟩  -- R580
def lfi_RULE_MATCH_VAL : RegField := ⟨0x1B0108, [(16, 0x20)], 31, 0, .rw, 0x0⟩  -- R580
def lfi_RULE_MATCH_MASK : RegField := ⟨0x1B010C, [(16, 0x20)], 31, 0, .rw, 0x0⟩  -- R580
def lfi_RULE_PROB : RegField := ⟨0x1B0110, [(16, 0x20)], 16, 0, .rw, 0x10000⟩  -- R580
def lfi_RULE_CORRUPT_BIT : RegField := ⟨0x1B0114, [(16, 0x20)], 16, 0, .rw, 0x0⟩  -- R580
def lfi_RULE_LIMIT : RegField := ⟨0x1B0118, [(16, 0x20)], 31, 0, .rw, 0x0⟩  -- R580
def lfi_RULE_HITS : RegField := ⟨0x1B011C, [(16, 0x20)], 31, 0, .ro, 0x0⟩  -- R580

/-! ### Page `pwr` -/

def pwr_PWR_DOM_EN : RegField := ⟨0x1C0040, [], 24, 1, .rw, 0xFFFFFF⟩  -- R625
def pwr_PWR_DOM_STAT : RegField := ⟨0x1C0044, [], 24, 1, .ro, 0x0⟩  -- R625
def pwr_CMD_OP : RegField := ⟨0x1C0048, [], 31, 28, .wo, 0x0⟩  -- R625
def pwr_CMD_BUSY : RegField := ⟨0x1C004C, [], 31, 31, .ro, 0x0⟩  -- R625
def pwr_FAIL_STEP : RegField := ⟨0x1C004C, [], 11, 8, .ro, 0x0⟩  -- R625
def pwr_CMD_STATUS : RegField := ⟨0x1C004C, [], 7, 0, .ro, 0x0⟩  -- R625
def pwr_RESET_CAUSE : RegField := ⟨0x1C0050, [], 3, 0, .ro, 0x0⟩  -- R625
def pwr_STRAPS : RegField := ⟨0x1C0054, [], 3, 0, .ro, 0x0⟩  -- R625
def pwr_TEMP_MAX : RegField := ⟨0x1C0058, [], 31, 16, .ro, 0x0⟩  -- R625
def pwr_TEMP : RegField := ⟨0x1C0058, [], 15, 0, .ro, 0x0⟩  -- R625
def pwr_HYST_C : RegField := ⟨0x1C005C, [], 15, 8, .rw, 0x5⟩  -- R625
def pwr_WARN_C : RegField := ⟨0x1C005C, [], 7, 0, .rw, 0x64⟩  -- R625
def pwr_CLK_OK : RegField := ⟨0x1C0060, [], 4, 0, .ro, 0x0⟩  -- R625
def pwr_WAKE_TEVT : RegField := ⟨0x1C0064, [], 0, 0, .rw, 0x0⟩  -- R625
def pwr_DOM_REFUSED : RegField := ⟨0x1C0080, [], 31, 0, .ctr, 0x0⟩  -- R625
def pwr_CNT_CLEAR : RegField := ⟨0x1C00FC, [], 0, 0, .wo, 0x0⟩  -- R625

/-! ### Page `vf` -/

def vf_KEY_OP : RegField := ⟨0x10010100, [(64, 0x10000)], 31, 28, .rw, 0x0⟩  -- R274
def vf_KEY_ICE_LEN : RegField := ⟨0x10010100, [(64, 0x10000)], 21, 16, .rw, 0x0⟩  -- R274
def vf_KEY_PROFILE : RegField := ⟨0x10010100, [(64, 0x10000)], 7, 0, .rw, 0x0⟩  -- R274
def vf_KEY_BERTH : RegField := ⟨0x10010104, [(64, 0x10000)], 24, 0, .rw, 0x0⟩  -- R274
def vf_KEY_OUT_ADDR : RegField := ⟨0x10010108, [(64, 0x10000)], 31, 0, .rw, 0x0⟩  -- R274
def vf_KEY_GO : RegField := ⟨0x10010110, [(64, 0x10000)], 0, 0, .wo, 0x0⟩  -- R274
def vf_KEY_BUSY : RegField := ⟨0x10010114, [(64, 0x10000)], 31, 31, .ro, 0x0⟩  -- R274
def vf_KEY_VALID : RegField := ⟨0x10010114, [(64, 0x10000)], 30, 30, .ro, 0x0⟩  -- R274
def vf_KEY_KEY_GEN : RegField := ⟨0x10010114, [(64, 0x10000)], 15, 8, .ro, 0x0⟩  -- R274
def vf_KEY_STATUS : RegField := ⟨0x10010114, [(64, 0x10000)], 7, 0, .ro, 0x0⟩  -- R274
def vf_KEY_DATA : RegField := ⟨0x10010140, [(64, 0x10000), (24, 0x4)], 31, 0, .wo, 0x0⟩  -- R274
def vf_WRAP_KEY : RegField := ⟨0x10010040, [(64, 0x10000), (16, 0x4)], 31, 0, .wo, 0x0⟩  -- R275
def vf_WRAP_CMD : RegField := ⟨0x10010080, [(64, 0x10000)], 1, 0, .wo, 0x0⟩  -- R275
def vf_WRAP_RESULT : RegField := ⟨0x10010084, [(64, 0x10000)], 7, 0, .ro, 0x0⟩  -- R275
def vf_BTC_CMD : RegField := ⟨0x10011000, [(64, 0x10000), (8, 0x4)], 31, 0, .rw, 0x0⟩  -- R156
def vf_BTC_GO : RegField := ⟨0x10011020, [(64, 0x10000)], 0, 0, .wo, 0x0⟩  -- R156
def vf_BTC_BUSY : RegField := ⟨0x10011024, [(64, 0x10000)], 31, 31, .ro, 0x0⟩  -- R156
def vf_BTC_VALID : RegField := ⟨0x10011024, [(64, 0x10000)], 30, 30, .ro, 0x0⟩  -- R156
def vf_BTC_APPLY : RegField := ⟨0x10011024, [(64, 0x10000)], 29, 27, .ro, 0x0⟩  -- R156
def vf_BTC_FOUND_STATE : RegField := ⟨0x10011024, [(64, 0x10000)], 26, 24, .ro, 0x0⟩  -- R156
def vf_BTC_STATUS : RegField := ⟨0x10011024, [(64, 0x10000)], 7, 0, .ro, 0x0⟩  -- R156
def vf_BTC_RESULT_BERTH : RegField := ⟨0x10011028, [(64, 0x10000)], 24, 0, .ro, 0x0⟩  -- R156
def vf_BTC_ROW_IMAGE : RegField := ⟨0x10011100, [(64, 0x10000), (64, 0x4)], 31, 0, .rw, 0x0⟩  -- R156
def vf_SUBMIT_DESC_LO : RegField := ⟨0x10011200, [(64, 0x10000)], 31, 0, .rw, 0x0⟩  -- R588
def vf_SUBMIT_DESC_HI : RegField := ⟨0x10011204, [(64, 0x10000)], 7, 0, .rw, 0x0⟩  -- R588
def vf_SUBMIT_GO : RegField := ⟨0x10011208, [(64, 0x10000)], 0, 0, .wo, 0x0⟩  -- R588
def vf_SUBMIT_BUSY : RegField := ⟨0x1001120C, [(64, 0x10000)], 31, 31, .ro, 0x0⟩  -- R588
def vf_SUBMIT_VALID : RegField := ⟨0x1001120C, [(64, 0x10000)], 30, 30, .ro, 0x0⟩  -- R588
def vf_SUBMIT_SLOT : RegField := ⟨0x1001120C, [(64, 0x10000)], 23, 8, .ro, 0x0⟩  -- R588
def vf_SUBMIT_RESULT : RegField := ⟨0x1001120C, [(64, 0x10000)], 7, 0, .ro, 0x0⟩  -- R588
def vf_EVT_RAW : RegField := ⟨0x1001A010, [(64, 0x10000)], 31, 0, .ro, 0x0⟩  -- R602
def vf_EVT_EN : RegField := ⟨0x1001A014, [(64, 0x10000)], 31, 0, .rw, 0x0⟩  -- R602
def vf_EVT_PEND : RegField := ⟨0x1001A018, [(64, 0x10000)], 31, 0, .w1c, 0x0⟩  -- R602
def vf_EVT_FORCE : RegField := ⟨0x1001A01C, [(64, 0x10000)], 31, 0, .wo, 0x0⟩  -- R602
def vf_VF_REARM : RegField := ⟨0x1001A030, [(64, 0x10000)], 4, 0, .wo, 0x0⟩  -- R602

/-! ### The fields of each page, below its common header -/

def devFields : List RegField := [
  dev_VARIANT, dev_DEV_STATE, dev_STEP, dev_DIE_ID_LO, dev_DIE_ID_HI, dev_PRESENT, dev_EVT_SUMMARY]

def gwyFields : List RegField := [
  gwy_BAR2_BASE, gwy_LINK_SPEED, gwy_LINK_WIDTH, gwy_VEC_HOLDOFF, gwy_VEC_REARM, gwy_BAR2_ERR, gwy_HOST_DMA_ERR,
  gwy_LOG_DROP, gwy_VF_IGNORED, gwy_CNT_CLEAR, gwy_VF_TENANT, gwy_VF_QBASE, gwy_VF_QCOUNT, gwy_VF_REARM,
  gwy_DMA_BUSY, gwy_DMA_LAST_STATUS, gwy_DMA_SLOT, gwy_RING_EN, gwy_RING_CFG_BAD, gwy_RING_OWNER,
  gwy_RING_SLOT_BYTES, gwy_RING_QUEUE, gwy_RING_HOST_ADDR_LO, gwy_RING_HOST_ADDR_HI, gwy_RING_LOG2_SLOTS,
  gwy_RING_VECTOR, gwy_RING_HEAD, gwy_RING_RD, gwy_LOGR_MIRROR_EN, gwy_LOGR_LOG2_ENTRIES, gwy_LOGR_VECTOR,
  gwy_LOGR_LOG_BASE, gwy_LOGR_MIRROR_ADDR_LO, gwy_LOGR_MIRROR_ADDR_HI, gwy_LOGR_WR_SEQ, gwy_LOGR_RD_SEQ,
  gwy_LOGR_LOG_LOST, gwy_VEC_MAP]

def tkpFields : List RegField := [
  tkp_SLEW_PPM, tkp_DOMAIN, tkp_PPS_SQUELCH, tkp_SRC_SEL, tkp_ANCHORED, tkp_TK_STATE, tkp_SRC_OK, tkp_TIDE_LO,
  tkp_TIDE_HI, tkp_TIDE_PHASE, tkp_SEC_LO, tkp_SEC_HI, tkp_NS, tkp_FRAC, tkp_OFFSET_NS, tkp_FREQ_ADJ,
  tkp_MEAN_PATH_NS, tkp_LOCK_THRESH_NS, tkp_LOCK_COUNT, tkp_OUTLIER_NS, tkp_OUTLIER_CNT, tkp_SYNC_LOSS,
  tkp_SEC_HI16, tkp_CMD_OP, tkp_BREAK_PENDING, tkp_CMD_STATUS, tkp_BREAK_AT_LO, tkp_BREAK_AT_HI, tkp_NEW_TIDE_LO,
  tkp_NEW_TIDE_HI, tkp_BREAK_PHASE, tkp_PPS_TOD_LO, tkp_PPS_TOD_HI, tkp_PPS_WIDTH, tkp_TCLK_EN, tkp_TCLK_SEL,
  tkp_EDGE_WIN_NS, tkp_EDGE_EXTRA, tkp_EDGE_MISS, tkp_TEVT_EN, tkp_TEVT_VALID, tkp_TEVT_LEVEL, tkp_TEVT_SRC,
  tkp_TEVT_SEC, tkp_TEVT_NS, tkp_TEVT_FRAC, tkp_TEVT_OVF, tkp_CLOCK_ID_LO, tkp_CLOCK_ID_HI, tkp_ANNOUNCE,
  tkp_PTP_EN, tkp_PTP_ROLE, tkp_PTP_P2P, tkp_PTP_ONE_STEP, tkp_PTP_TRANSPORT, tkp_PTP_LOG_SYNC, tkp_PTP_LOG_DELAY,
  tkp_PTP_LOG_ANNOUNCE, tkp_PTP_LINK_DELAY_NS, tkp_PTP_RATE_RATIO, tkp_PTP_RX_EVENT, tkp_PTP_TX_EVENT,
  tkp_PTP_BAD_MSG]

def ldgFields : List RegField := [
  ldg_DERATE_PCT, ldg_WARN_DERATE_EN, ldg_ADMIT_EN, ldg_THERMAL_WARN, ldg_DERATED, ldg_ACTIVE_ADMISSIONS,
  ldg_SLOTS_FREE, ldg_HORIZON_LO, ldg_HORIZON_HI, ldg_CAP, ldg_COUNT, ldg_ADMIT_CMD, ldg_ADMIT_GO, ldg_ADMIT_BUSY,
  ldg_ADMIT_VALID, ldg_ADMIT_FAIL_OP, ldg_ADMIT_FAIL_KIND, ldg_ADMIT_STATUS, ldg_ADMIT_HANDLE,
  ldg_ADMIT_FIRST_TIDE_LO, ldg_ADMIT_FIRST_TIDE_HI, ldg_ADMIT_SPAN, ldg_WITHDRAW_HANDLE, ldg_WITHDRAW_BUSY,
  ldg_WITHDRAW_STATUS, ldg_LOST_HANDLE, ldg_QUERY_KIND, ldg_QUERY_INDEX, ldg_QUERY_TIDE_OFS, ldg_QUERY_BOOKED,
  ldg_QUERY_STANDING]

def wfgFields : List RegField := [
  wfg_UNBOOKED_MAX, wfg_UNBOOKED_TIMEOUT, wfg_UNBOOKED_USE, wfg_SLOTS_ACTIVE, wfg_PAUSE_LIMIT, wfg_SUBMIT_DESC_LO,
  wfg_SUBMIT_DESC_HI, wfg_SUBMIT_GO, wfg_SUBMIT_BUSY, wfg_SUBMIT_VALID, wfg_SUBMIT_SLOT, wfg_SUBMIT_RESULT,
  wfg_CANCEL_SLOT, wfg_DISAGREE_COUNT, wfg_ROLLCALL_KIND, wfg_ROLLCALL_INDEX, wfg_FLOW_ID, wfg_FLOW_SEQ,
  wfg_FLOW_LIVE, wfg_FLOW_HELD, wfg_FLOW_NEXT, wfg_BOOKED_READY, wfg_UNBOOKED_READY, wfg_STATUS_COUNT, wfg_Q_EN,
  wfg_Q_HOST_BOUND, wfg_PFC_EN, wfg_PFC_LPORT, wfg_PFC_PRIO, wfg_TMARK_EN, wfg_TMARK_PIN, wfg_Q_TENANT,
  wfg_HIGH_WM, wfg_LOW_WM, wfg_QSPILL_BASE, wfg_QSPILL_SIZE, wfg_QRESERVED, wfg_ABOVE_HIGH, wfg_QCFG_BAD,
  wfg_QDEPTH, wfg_QDROP, wfg_QCMD, wfg_QEGRESS_RESERVE, wfg_QCMD_LANE]

def btcFields : List RegField := [
  btc_DRAIN_TIDES, btc_EN, btc_ROW_BASE, btc_ANNEX_BASE, btc_ROWS, btc_PIN_ROWS, btc_PIN_USED, btc_STATE_COUNT,
  btc_HIT, btc_MISS, btc_STAGED_USED, btc_CMD, btc_CMD_GO, btc_CMD_BUSY, btc_CMD_VALID, btc_CMD_APPLY,
  btc_CMD_FOUND_STATE, btc_CMD_STATUS, btc_CMD_RESULT_BERTH, btc_ROW_IMAGE, btc_TRANGE_LIMIT, btc_TRANGE_BASE]

def qayFields : List RegField := [
  qay_MODE, qay_RX_POL, qay_TX_POL, qay_RX_MAP, qay_TX_MAP, qay_SIGNAL, qay_REMOTE_FAULT, qay_LOCAL_FAULT,
  qay_LINK_UP, qay_POST1, qay_MAIN, qay_PRE1, qay_PRE2, qay_QAY_NO_PORT, qay_TXTS_VALID, qay_TXTS_LEVEL,
  qay_TXTS_TAG, qay_TXTS_LPORT, qay_TXTS_SEC, qay_TXTS_NS, qay_TXTS_FRAC, qay_TXTS_OVF, qay_FEC_CORR_CW,
  qay_FEC_UNCORR_CW, qay_FEC_SYM_ERR, qay_PORT_EN, qay_PFC_RX_EN, qay_PFC_TX_EN, qay_GATE_EN, qay_MAX_FRAME,
  qay_RXB_PFC_MASK, qay_PFC_QUANTA, qay_TXQ_PRIO, qay_RXB_XOFF, qay_RXB_XON, qay_TS_RX_ADJ, qay_TS_TX_ADJ,
  qay_GATE_BANK, qay_GATE_ARM, qay_GATE_PENDING, qay_GATE_OPER_BANK, qay_GATE_CFG_BAD, qay_GATE_LATE,
  qay_GATE_CYCLE, qay_GATE_COUNT, qay_GATE_BASE_TIDE_LO, qay_GATE_BASE_TIDE_HI, qay_GATE_BASE_PHASE,
  qay_GATE_GUARD, qay_LONGEST_WIN, qay_RX_FRAMES, qay_RX_OCTETS_LO, qay_RX_OCTETS_HI, qay_RX_RUNT, qay_RX_FCS_ERR,
  qay_RX_TRUNC, qay_RX_OVERFLOW, qay_RX_PFC, qay_RX_PAUSE_8023X, qay_TX_FRAMES, qay_TX_OCTETS_LO,
  qay_TX_OCTETS_HI, qay_TX_OVERSIZE, qay_TX_LINK_DOWN, qay_TX_PAUSE_DROP, qay_TX_PFC, qay_TX_NEVER_FITS,
  qay_PORT_CNT_CLEAR, qay_GATE_STATES, qay_GATE_INTERVAL]

def bwrFields : List RegField := [
  bwr_CONSENT_CLASS_MASK, bwr_SWEEP_EN, bwr_RTCP_PARSE_EN, bwr_STUN_COPY_EN, bwr_FP_REQUIRED, bwr_STUN_EN,
  bwr_CONSENT_TIMEOUT, bwr_CONSENT_SWEEP, bwr_STUN_PER_TIDE, bwr_KFR_MIN_TIDES, bwr_KFR_PER_TIDE, bwr_KFR_FIR,
  bwr_KFR_BERTH, bwr_KFR_LEVEL, bwr_KFR_STATUS, bwr_EST_WINDOW, bwr_EST_UP_PCT, bwr_EST_HIGH_PCT, bwr_EST_LOW_PCT,
  bwr_EST_INIT, bwr_EST_MIN, bwr_EST_MAX, bwr_FB_EN, bwr_FB_QUEUE, bwr_HOST_MASK, bwr_SPARE_FOR, bwr_HOSTQ,
  bwr_LMAC_LO, bwr_LMAC_HI, bwr_POL_SEL, bwr_POL_RATE, bwr_POL_BURST, bwr_POL_TOKENS, bwr_STUN_RESP,
  bwr_RTCP_IGNORED, bwr_KFR_SUPPRESSED, bwr_KFR_OVF, bwr_KFR_INVALID, bwr_REASON_COUNT, bwr_CNT_CLEAR,
  bwr_LADDR_VALID, bwr_LADDR_IPV6, bwr_LADDR_ADDR]

def bndFields : List RegField := [
  bnd_EN, bnd_AES_SPARE_USED, bnd_SHA_SPARE_USED, bnd_AES_SPARE_FOR, bnd_SHA_SPARE_FOR, bnd_SRTP_LIMIT_LO,
  bnd_SRTP_LIMIT_HI, bnd_SRTCP_LIMIT, bnd_KEY_WARN, bnd_PIPE_FAULT_DROP, bnd_UNWRAP_FAIL, bnd_TX_ORDER_DROP,
  bnd_TX_LEN_DROP, bnd_KEY_EXHAUST_DROP, bnd_RX_AUTH_FAIL, bnd_RX_REPLAY, bnd_RX_SHORT, bnd_BND_OFF_DROP,
  bnd_CNT_CLEAR, bnd_WRAP_TENANT, bnd_WRAP_CMD, bnd_WRAP_RESULT, bnd_WRAP_KEY, bnd_SLOT_SET, bnd_SLOT_LOCK,
  bnd_WRAP_KCV, bnd_KEY_OP, bnd_KEY_ICE_LEN, bnd_KEY_PROFILE, bnd_KEY_BERTH, bnd_KEY_OUT_ADDR, bnd_KEY_GO,
  bnd_KEY_BUSY, bnd_KEY_VALID, bnd_KEY_KEY_GEN, bnd_KEY_STATUS, bnd_KEY_DATA]

def fryFields : List RegField := [
  fry_TTL, fry_FB_EN, fry_SR_EN, fry_UDP4_CSUM, fry_EN, fry_ROUTE_BASE, fry_GROUP_BASE, fry_FAN_SLOT_BASE,
  fry_FAN_SLOT_SIZE, fry_FM_ID, fry_DD_ID, fry_TWSEQ_ID, fry_FAN_PEAK_MAX, fry_AUTO_HYST, fry_SWITCH_WAIT,
  fry_SR_CLASS_MASK, fry_SR_INTERVAL, fry_FB_FWD_QUEUE, fry_SPARE_FOR, fry_LANES_FREE, fry_FAN_TXQ, fry_CELL,
  fry_DSCP, fry_NH_QUAY, fry_NH_INDEX, fry_NH_MAC_LO, fry_NH_VALID, fry_NH_MAC_HI, fry_CNAME, fry_PIPE_FAULT_DROP,
  fry_NH_INVALID, fry_FAN_MISS, fry_FAN_SRC_DROP, fry_FAN_OVERSIZE, fry_SWITCH_DONE, fry_SWITCH_KFR, fry_SR_SENT,
  fry_OFF_DROP, fry_CNT_CLEAR, fry_CMD, fry_CMD_GO, fry_CMD_BUSY, fry_CMD_VALID, fry_CMD_APPLY,
  fry_CMD_FOUND_STATE, fry_CMD_STATUS, fry_CMD_RESULT_BERTH, fry_CMD_RESULT]

def tlyFields : List RegField := [
  tly_IDLE_CREDIT, tly_QMAX, tly_HOLD_LIMIT, tly_EN, tly_SPARE_FOR, tly_PORT_RATE, tly_B_PORT, tly_PORT_BURST,
  tly_TXQ_MAP, tly_NODE_LEVEL, tly_NODE_SVC, tly_NODE_SUB, tly_NODE_RATE, tly_NODE_BURST, tly_NODE_LPORT,
  tly_NODE_STAGED, tly_NODE_APPLY_TIDE_LO, tly_NODE_APPLY_TIDE_HI, tly_NODE_GO, tly_NODE_APPLY, tly_NODE_STATUS,
  tly_DROP_FULL, tly_DROP_AGE, tly_PORT_MISMATCH, tly_PIPE_FAULT_DROP, tly_CNT_CLEAR]

def abxFields : List RegField := [
  abx_EN, abx_MAC_SPARE_USED, abx_DRESS_SPARE_USED, abx_MAC_SPARE_FOR, abx_DRESS_SPARE_FOR, abx_DRESS_DELAY_BASE,
  abx_OUT_BASE, abx_STAGED_USED, abx_TALK_QUEUE, abx_COMPAT_FLOOR, abx_IN_MISSING, abx_IN_LATE, abx_IN_EARLY,
  abx_CLIP, abx_LIMITED, abx_TALK_SWAP, abx_DRESS_SAT, abx_FAULT_SILENT, abx_CNT_CLEAR, abx_MON_IS_MIX,
  abx_MON_INDEX, abx_MON_PEAK, abx_MON_RMS, abx_MON_ACTIVE_N, abx_MON_GR, abx_TALK_SEL, abx_TALK_SWAP_PENDING,
  abx_TALK_PENDING_SLOT, abx_TALK_VALID, abx_TALK_RAMPING, abx_TALK_INPUT, abx_DRESS_IN_USE, abx_DRESS_LAT,
  abx_CMD, abx_CMD_GO, abx_CMD_BUSY, abx_CMD_VALID, abx_CMD_APPLY, abx_CMD_FOUND_STATE, abx_CMD_STATUS,
  abx_CMD_RESULT_BERTH, abx_CMD_RESULT]

def apuFields : List RegField := [
  apu_WCLK_OUT_GROUP, apu_WCLK_OUT_EN, apu_AMCLK_IN_SEL, apu_AMCLK_OUT_SEL, apu_AMCLK_OUT_EN, apu_EN,
  apu_WCLK_IN1_RATE, apu_WCLK_IN0_RATE, apu_MON_STATE, apu_MON_RATE_DEV, apu_MON_EDGE_EXTRA, apu_MON_EDGE_MISS,
  apu_CNT_CLEAR, apu_GRP_EN, apu_GRP_ASRC_MODE, apu_GRP_RATE, apu_GRP_CLK_SRC, apu_GRP_CLK_AES, apu_GRP_ASRC_BW,
  apu_GRP_SLIP_WIN, apu_GRP_LOCK, apu_GRP_CFG_BAD, apu_GRP_HOLD, apu_GRP_RX_FILL, apu_GRP_TX_FILL, apu_GRP_RATIO,
  apu_GRP_RX_SLIP_INS, apu_GRP_RX_SLIP_DROP, apu_GRP_TX_SLIP_INS, apu_GRP_TX_SLIP_DROP, apu_GRP_SLIP_TIDE,
  apu_GRP_SLIP_TX, apu_GRP_SLIP_INSERT, apu_GRP_SLIP_PHASE, apu_GRP_TX_LAT, apu_GRP_RX_LAT, apu_TDM_EN,
  apu_TDM_MASTER, apu_TDM_FORMAT, apu_TDM_DELAY, apu_TDM_FS_PULSE, apu_TDM_BCLK_INV, apu_TDM_FS_INV,
  apu_TDM_WIDTH, apu_TDM_SLOTS, apu_TDM_TX_IDLE, apu_TDM_GROUP, apu_TDM_RX_MASK, apu_TDM_TX_MASK,
  apu_TDM_FS_PHASE, apu_AES_RX_EN, apu_AES_TX_EN, apu_AES_RX_VALID_MUTE, apu_AES_TX_AUTO_CRC, apu_AES_TX_V_A,
  apu_AES_TX_V_B, apu_AES_RX_GROUP, apu_AES_TX_GROUP, apu_AES_RX_LOCK, apu_AES_RX_NONAUDIO, apu_AES_RX_PRO,
  apu_AES_RX_RATE, apu_AES_RX_FS_PHASE, apu_AES_RX_CS_CRC_ERR, apu_AES_RX_PARITY_ERR, apu_AES_RX_BIPHASE_ERR,
  apu_AES_RX_CS_A, apu_AES_TX_CS_A, apu_AES_RX_CS_B, apu_AES_TX_CS_B, apu_AES_RX_USER_A, apu_AES_TX_USER_A,
  apu_AES_RX_USER_B, apu_AES_TX_USER_B]

def essFields : List RegField := [
  ess_AUD_EN, ess_RING_BASE, ess_ARX_EN, ess_ATX_EN, ess_ARX_ENC, ess_ATX_ENC, ess_ARX_PTIME, ess_ATX_PTIME,
  ess_ARX_RED_EN, ess_ATX_CFG_BAD, ess_ARX_CHANNELS, ess_ATX_CHANNELS, ess_ARX_PT, ess_ATX_PT, ess_ARX_BERTH,
  ess_ATX_BERTH, ess_ARX_BERTH2, ess_ATX_PHASE, ess_ARX_DELAY, ess_ARX_TS_OFS, ess_ATX_TS_OFS, ess_ATX_SEQ,
  ess_ARX_PKTS, ess_ATX_PKTS, ess_ARX_LATE, ess_ARX_EARLY, ess_ARX_BAD_FORMAT, ess_ARX_GAP, ess_VID_EN,
  ess_TX_UNITS, ess_RX_UNITS, ess_VRX_EN, ess_VTX_EN, ess_VRX_CFG_BAD, ess_VTX_CFG_BAD, ess_VRX_RED_EN,
  ess_VRX_RATE, ess_VTX_RATE, ess_VRX_FORMAT, ess_VTX_FORMAT, ess_VRX_DEPTH, ess_VRX_PT, ess_VTX_PT,
  ess_VRX_BERTH, ess_VTX_BERTH, ess_VRX_BERTH2, ess_VRX_RING_ADDR, ess_VRX_ITEM_QUEUE, ess_VTX_TRO,
  ess_VTX_TS_OFS, ess_VTX_SEQ, ess_VRX_FRAMES, ess_VTX_FRAMES, ess_VRX_INCOMPLETE, ess_VTX_REPEAT,
  ess_VRX_BAD_FORMAT, ess_VTX_SKIP]

def pierFields : List RegField := [
  pier_PSTORE_WIN]

def rknFields : List RegField := [
  rkn_EN, rkn_LOADED, rkn_LOAD_BUSY, rkn_SPARES_FREE, rkn_CORES_IN_SERVICE, rkn_IMG_ADDR, rkn_GO, rkn_VALID,
  rkn_LOAD_ERR, rkn_STATUS, rkn_IMAGE_ID, rkn_IMAGE_CRC, rkn_PREEMPT_SAVE, rkn_PREEMPTS, rkn_OVERRUN, rkn_TRAPS,
  rkn_DMA_REFUSED, rkn_DMA_UE, rkn_DMA_DEFER, rkn_CNT_CLEAR, rkn_CORE_STATE, rkn_CORE_SPARE, rkn_CORE_SPARE_FOR,
  rkn_CORE_NEST, rkn_CORE_PC, rkn_CORE_SLOT, rkn_CORE_TASK_CYCLES, rkn_CORE_TRAP_CAUSE, rkn_CORE_LAST_TRAP_PC]

def vdeFields : List RegField := [
  vde_SPARE, vde_BUSY, vde_SPARE_FOR, vde_CTX, vde_LAST_CYCLES, vde_PICTURES, vde_CONCEALED, vde_TRUNCATED,
  vde_STANDIN, vde_SYNTAX_FAIL, vde_MEM_UE, vde_SCALE_RANGE, vde_CNT_CLEAR]

def decCtlFields : List RegField := [
  decCtl_EN, decCtl_CTX_BASE, decCtl_CMD_OP, decCtl_CMD_CTX, decCtl_CMD_ADDR, decCtl_CMD_GO, decCtl_CMD_BUSY,
  decCtl_CMD_VALID, decCtl_CMD_STATUS, decCtl_LATE_PKT, decCtl_DEPKT_DROP, decCtl_ASM_TIMEOUT, decCtl_POOL_EVICT,
  decCtl_REORDER_EXCEED, decCtl_OUTPUT_SKIP, decCtl_SIZE_EXCEED, decCtl_UNSUPPORTED, decCtl_KFR_REQ,
  decCtl_CNT_CLEAR]

def svyFields : List RegField := [
  svy_SPARE, svy_BUSY, svy_SPARE_FOR, svy_CTX, svy_LAST_CYCLES, svy_PICTURES, svy_STALE, svy_MEM_UE,
  svy_TRUNC_FORCED, svy_TRUNC_MINIMAL, svy_KEYS, svy_PACKETS, svy_CNT_CLEAR]

def ltrFields : List RegField := [
  ltr_SPARE, ltr_BUSY, ltr_SPARE_FOR, ltr_CTX, ltr_LAST_CYCLES, ltr_PICTURES, ltr_STALE, ltr_MEM_UE,
  ltr_TRUNC_FORCED, ltr_TRUNC_MINIMAL, ltr_KEYS, ltr_PACKETS, ltr_CNT_CLEAR]

def encCtlFields : List RegField := [
  encCtl_FB_EN, encCtl_EN, encCtl_SVY_CTX_BASE, encCtl_LTR_CTX_BASE, encCtl_FB_QUEUE, encCtl_CMD_OP,
  encCtl_CMD_STAGED, encCtl_CMD_CTX, encCtl_CMD_ADDR, encCtl_CMD_APPLY_TIDE_LO, encCtl_CMD_APPLY_TIDE_HI,
  encCtl_CMD_GO, encCtl_CMD_BUSY, encCtl_CMD_VALID, encCtl_CMD_APPLY, encCtl_CMD_STATUS, encCtl_SET_BYTES,
  encCtl_REF_BYTES, encCtl_KEY_REQ, encCtl_KEY_MERGED, encCtl_FB_NO_TAIL, encCtl_FB_IGNORED, encCtl_NO_RECORDS,
  encCtl_STREAM_DROP, encCtl_CNT_CLEAR]

def lcpFields : List RegField := [
  lcp_SPARE, lcp_BUSY, lcp_SPARE_FOR, lcp_CTX, lcp_LAST_CYCLES, lcp_PICTURES, lcp_STALE, lcp_MEM_UE, lcp_CNT_CLEAR]

def cmpCtlFields : List RegField := [
  cmpCtl_EN, cmpCtl_VIEW_CTX_BASE, cmpCtl_CMD_OP, cmpCtl_CMD_STAGED, cmpCtl_CMD_CTX, cmpCtl_CMD_ADDR,
  cmpCtl_CMD_APPLY_TIDE_LO, cmpCtl_CMD_APPLY_TIDE_HI, cmpCtl_CMD_GO, cmpCtl_CMD_BUSY, cmpCtl_CMD_VALID,
  cmpCtl_CMD_APPLY, cmpCtl_CMD_STATUS, cmpCtl_F_BOOKED, cmpCtl_LAYER_SKIP, cmpCtl_LAYER_BAD, cmpCtl_LAYER_CLIP,
  cmpCtl_STALE_LAYERS, cmpCtl_PLACEHOLDER, cmpCtl_CNT_CLEAR]

def hldFields : List RegField := [
  hld_INJ_EN, hld_SCRUB_EN, hld_AUTO_SR_EN, hld_EN, hld_INIT_DONE, hld_TRAINED, hld_REGION_BAD, hld_HOT,
  hld_SPARE_E_FOR, hld_SPARE_W_FOR, hld_USABLE_MIB, hld_SR_IDLE, hld_SCRUB_PERIOD, hld_RETRAIN_TIDES,
  hld_EBB_KEEP, hld_CE_THRESH, hld_CORR_LIMIT, hld_ERASE_THRESH, hld_UE_COUNT, hld_CE_COUNT, hld_POISON_READS,
  hld_SCRUB_CORR, hld_UE_ADDR_LO, hld_UE_ADDR_HI, hld_UE_CH, hld_UNMAPPED, hld_CNT_CLEAR, hld_REG_VALID,
  hld_REG_GRAIN, hld_REG_CH_FIRST, hld_REG_CH_COUNT_LOG2, hld_REG_BASE, hld_REG_SIZE, hld_REG_LOCAL_BASE,
  hld_INJ_CH, hld_INJ_SYMBOLS, hld_INJ_REPEAT, hld_INJ_CHECK, hld_INJ_ON_WRITE, hld_INJ_ADDR_LO, hld_INJ_ADDR_HI,
  hld_INJ_POISON, hld_ARM, hld_ARMED, hld_INJ_HITS, hld_CH_STATE, hld_CH_SPARE_CTRL, hld_CH_REFRESH_MULT,
  hld_CH_CE, hld_CH_UE, hld_CH_RETRAIN_FAIL, hld_CH_RETRAIN_CONSEC, hld_CH_SR_ENTRIES, hld_CH_ERASE_VALID,
  hld_CH_ERASE_LINE]

def mrgFields : List RegField := [
  mrg_EN, mrg_SKIP_LOG2, mrg_RANK, mrg_OP, mrg_STATUS, mrg_ROLE, mrg_SYNC, mrg_LINK_UP, mrg_HB_MRG_OK,
  mrg_HB_WIRE_OK, mrg_OUT_OPEN, mrg_PARTNER_OK, mrg_CLAIM_OWN, mrg_CLAIM_PARTNER, mrg_SYNC_AGE, mrg_SWEEP_ROWS,
  mrg_FORCE_SKIP, mrg_RX_POL, mrg_TX_POL, mrg_RX_MAP, mrg_TX_MAP, mrg_TXEQ, mrg_HB_MISS_MRG, mrg_HB_MISS_WIRE,
  mrg_TIDE_SKEW, mrg_FCS_ERR, mrg_DELTA_INCOMPLETE, mrg_DELTA_MAX, mrg_SKIP_GUARD_DROP, mrg_GATED_DROP,
  mrg_STANDBY_RX_DROP, mrg_BULK_ROWS, mrg_TAKEOVERS, mrg_DEMOTIONS, mrg_CNT_CLEAR]

def slwFields : List RegField := [
  slw_AUDIT_EN, slw_AUDIT_KIND_MASK, slw_AUDIT_PERIOD, slw_BOOT_DONE, slw_BOOT_PASS, slw_BOOT_SHORT,
  slw_BOOT_SOFT_NEW, slw_FSOURCE_OK, slw_FUSE_BUSY, slw_REPAIR_USED, slw_RETIRE_USED, slw_USER_USED, slw_CMD_OP,
  slw_CMD_KIND, slw_CMD_INDEX, slw_CMD_WORD, slw_CMD_DATA, slw_CMD_GO, slw_CMD_BUSY, slw_CMD_VALID,
  slw_CMD_STATUS, slw_AUDITS_DONE, slw_AUDIT_FAIL, slw_AUDIT_FLAKY, slw_AUDIT_ABORT, slw_AUDIT_LATE,
  slw_AUDIT_SKIPPED, slw_FUSE_VERIFY_FAIL, slw_CNT_CLEAR, slw_KIND_IN_SERVICE, slw_KIND_SPARES,
  slw_KIND_SPARES_FREE, slw_KIND_RETIRED, slw_KIND_LAST_INDEX, slw_KIND_LAST_CYCLE, slw_KIND_LAST_RESULT,
  slw_KIND_SLICES, slw_KIND_COVERAGE]

def tggFields : List RegField := [
  tgg_EN, tgg_SEL, tgg_SNAP, tgg_CAPTURE, tgg_CLEAR, tgg_RO_MIN, tgg_RO_MAX, tgg_RO_COUNT, tgg_RO_SUM_LO,
  tgg_RO_SUM_HI, tgg_RO_UNDER, tgg_RO_OVER, tgg_RO_DROPPED, tgg_RO_SNAP_TIDE, tgg_RO_BIN, tgg_G_EN,
  tgg_G_LOG_BINS, tgg_G_SAMPLE_LOG2, tgg_G_SOURCE, tgg_G_INDEX, tgg_G_BASE, tgg_G_WIDTH, tgg_G_PERIOD]

def lfiFields : List RegField := [
  lfi_EN, lfi_LFSR_SEED, lfi_RULE_EN, lfi_RULE_ACTION, lfi_RULE_POINT, lfi_RULE_CTRL_EN, lfi_RULE_CORRUPT_PRE,
  lfi_RULE_ANY_PORT, lfi_RULE_PORT_S, lfi_RULE_HOLD_N, lfi_RULE_MATCH_OFS, lfi_RULE_MATCH_VAL,
  lfi_RULE_MATCH_MASK, lfi_RULE_PROB, lfi_RULE_CORRUPT_BIT, lfi_RULE_LIMIT, lfi_RULE_HITS]

def pwrFields : List RegField := [
  pwr_PWR_DOM_EN, pwr_PWR_DOM_STAT, pwr_CMD_OP, pwr_CMD_BUSY, pwr_FAIL_STEP, pwr_CMD_STATUS, pwr_RESET_CAUSE,
  pwr_STRAPS, pwr_TEMP_MAX, pwr_TEMP, pwr_HYST_C, pwr_WARN_C, pwr_CLK_OK, pwr_WAKE_TEVT, pwr_DOM_REFUSED,
  pwr_CNT_CLEAR]

def vfFields : List RegField := [
  vf_KEY_OP, vf_KEY_ICE_LEN, vf_KEY_PROFILE, vf_KEY_BERTH, vf_KEY_OUT_ADDR, vf_KEY_GO, vf_KEY_BUSY, vf_KEY_VALID,
  vf_KEY_KEY_GEN, vf_KEY_STATUS, vf_KEY_DATA, vf_WRAP_KEY, vf_WRAP_CMD, vf_WRAP_RESULT, vf_BTC_CMD, vf_BTC_GO,
  vf_BTC_BUSY, vf_BTC_VALID, vf_BTC_APPLY, vf_BTC_FOUND_STATE, vf_BTC_STATUS, vf_BTC_RESULT_BERTH,
  vf_BTC_ROW_IMAGE, vf_SUBMIT_DESC_LO, vf_SUBMIT_DESC_HI, vf_SUBMIT_GO, vf_SUBMIT_BUSY, vf_SUBMIT_VALID,
  vf_SUBMIT_SLOT, vf_SUBMIT_RESULT, vf_EVT_RAW, vf_EVT_EN, vf_EVT_PEND, vf_EVT_FORCE, vf_VF_REARM]

end Sys2Proof.Machine.Reg
end

