-- ==== Sys2Proof/Machine/Types/Apu.lean ====
section
/-!
DEFINITION. The state of the Audio Port Unit and of essence audio (chapter 11). Members are numbered 0–7 for the
TDM ports, 8–11 for the AES3 receivers and 12–15 for the AES3 transmitters.
-/

namespace Sys2Proof.Machine

/-- A clock monitor (R368): its last accepted edge as a fine instant. -/
structure ClockMon where
  num : Nat
  last : Option Nat := none
  deriving DecidableEq, Repr

/-- A member of an alignment group: the FIFOs of its two directions, a frame as the samples of its slots; the last
received frame as delivered; whether its channels are muted and the Tide the mute began or ended in, for each
direction (R366–R369). -/
structure Member where
  num : Nat
  rx : List (List Int) := []
  tx : List (List Int) := []
  last : List Int := []
  rxMute : Bool := false
  rxAt : Option Nat := none
  txMute : Bool := false
  txAt : Option Nat := none
  deriving DecidableEq, Repr

/-- The Audio Port Unit: the monitors, the members, the TDM masks in use (port, RX, TX), the AES3 transmit status
in use (transmitter and its 24 words), each receiver's run of good blocks, and the 48-frame blocks of received
channels for the Tide just ended. -/
structure Apu where
  mons : List ClockMon
  members : List Member
  masks : List (Nat × Nat × Nat)
  status : List (Nat × List Word)
  good : List (Nat × Nat)
  blocks : List (Nat × List Int)
  deriving DecidableEq, Repr

/-- Essence audio: the filled ring positions of each receive flow (media-clock position and one sample per
channel), the blocks delivered for the Tide just ended by channel, and the Tide and number of packets each
transmit flow has sent in it. -/
structure EssAudio where
  rings : List (Nat × List (Nat × List Int))
  blocks : List (Nat × List Int)
  sent : List (Nat × Nat × Nat)
  deriving DecidableEq, Repr

end Sys2Proof.Machine
end

