-- ==== Sys2Proof/Machine/Types/Dec.lean ====
section
/-!
DEFINITION. The state of video decoding (chapter 13): stream contexts with their reference pools, and the frames that
the dispatch slices assemble.
-/

namespace Sys2Proof.Machine

/-- The mark record of a pool buffer (R424), with its place in output order: the count of key pictures that cleared
the marks, and the order after it; and what its picture carries: key, RTP timestamp, size, film grain. -/
structure Mark where
  kind : Nat := 0
  slots : Nat := 0
  standin : Bool := false
  tainted : Bool := false
  pending : Bool := false
  shown : Bool := false
  decOrder : Nat := 0
  epoch : Nat := 0
  order : Int := 0
  key : Bool := false
  ts : Nat := 0
  width : Nat := 0
  height : Nat := 0
  grain : Option Bytes := none
  deriving DecidableEq, Repr

/-- A stream context (R417, R418, R443): its 64 parameter words; the words in use by its running instance; its mark
records; the decode order of the next instance; orientation in force (rotation and flip); whether the stream is
tainted and a key picture was seen; the pictures output; its counters; whether CTX_RESET awaits the next instance
(R419); whether the next instance is its first; whether a keyframe request is pending (R435); the epoch and order
of its last output. -/
structure DecCtx where
  params : List Word
  inUse : List Word := []
  marks : List Mark := List.replicate 17 {}
  decOrder : Nat := 0
  rot : Nat := 0
  flip : Bool := false
  tainted : Bool := false
  keySeen : Bool := false
  outputs : Nat := 0
  concealedBlocks : Nat := 0
  truncBits : Nat := 0
  standin : Nat := 0
  syntaxFails : Nat := 0
  reset : Bool := false
  first : Bool := true
  kfrPending : Bool := false
  epoch : Nat := 0
  lastOut : Option (Nat × Int) := none
  deriving DecidableEq, Repr

/-- A packet of a frame being assembled: its sequence number, whether it ends the frame, the item that carried it,
and whether its payload structure was dropped (R421). -/
structure FramePkt where
  seq : Nat
  last : Bool
  item : Item
  dropped : Bool
  deriving DecidableEq, Repr

/-- The assembler of a DEC operation (R422, R423), by the order of its slot: the key of the frame (RTP timestamp and
spatial layer), the Tide of its first packet, its packets; how many instances it still gives once it is complete
and the Tide it was completed in; the key and last sequence number of the frame before; the share of OUT_QUEUE in which space
is kept for the frame's outputs (R108); whether Hold failed a packet (R434). -/
structure Assembler where
  order : Nat
  key : Option (Nat × Nat) := none
  since : Nat := 0
  pkts : List FramePkt := []
  frames : Nat := 0
  doneTide : Nat := 0
  prev : Option (Nat × Nat × Nat) := none
  claim : Option Bool := none
  bad : Bool := false
  deriving DecidableEq, Repr

/-- Decoding: contexts by number, assemblers, the pictures each SCL operation has output by its slot's order, and the width and
height of the picture that an engine last output at an address. -/
structure Decoding where
  ctxs : List (Nat × DecCtx)
  asms : List Assembler
  scls : List (Nat × Nat)
  made : List (Nat × Nat × Nat) := []
  deriving DecidableEq, Repr

end Sys2Proof.Machine
end

