-- ==== Sys2Proof/Machine/Types/Enc.lean ====
section
/-!
DEFINITION. The state of video encoding (chapter 14) and of composition and essence video (chapter 15).
-/

namespace Sys2Proof.Machine

/-- An SVY_MOD or LTR_MOD that waits for its picture (R469): its apply Tide, the words it takes, whether it was staged. -/
structure PendMod where
  tide : Nat
  words : List Word
  staged : Bool
  deriving DecidableEq, Repr

/-- A Survey context (R446–R448): its 16 parameter words; the number of its next picture; the level-3 vectors of the
picture before; the pictures of its last ring sets with their T_v, the newest first, and the addresses of their view pictures; the
pending SVY_MOD; the ROI block its running instance copied, none where Hold failed the copy (R467). -/
structure SvyCtx where
  params : List Word
  next : Nat := 0
  vecs : List (Int × Int) := []
  pics : List (Nat × Nat) := []
  views : List (Nat × Nat) := []
  pend : Option PendMod := none
  roi : Option (List Word) := some []
  deriving DecidableEq, Repr

/-- What a tail's running instance codes (R456, R459, R461): its picture and T_v; whether it is a key picture, all skip
for want of records, or nothing at all. -/
structure TailRun where
  pic : Nat
  tv : Nat
  key : Bool
  stale : Bool
  mute : Bool
  deriving DecidableEq, Repr

/-- What a tail keeps of a class of pictures (R463): its last QP and its factor K as a ratio. -/
structure RateClass where
  qp : Nat
  num : Nat
  den : Nat
  deriving DecidableEq, Repr

/-- A tail context (R454–R466): its 16 parameter words; its next sequence number and TL0PICIDX; whether its first
instance is to come; the pending key request and whether a fault forces it (R461); the number of the last key
picture; whether it codes nothing until a key picture; its classes (0 key, 1 TL0, 2 above); F and carry; the
pending LTR_MOD; its running instance; which of its three reconstruction buffers hold the last TL0 picture, the last
TL1 picture and the one being coded (R456), and the picture coded last with its buffer; its PictureID and the frame number of
its Dependency Descriptors (R457). -/
structure TailCtx where
  params : List Word
  seq : Nat := 0
  tl0 : Nat := 0
  first : Bool := true
  request : Bool := false
  forced : Bool := false
  lastKey : Option Nat := none
  halted : Bool := false
  classes : List (Nat × RateClass) := []
  full : Int := 0
  carry : Nat := 0
  pend : Option PendMod := none
  run : Option TailRun := none
  bufs : Nat × Nat × Nat := (0, 1, 2)
  coded : Option (Nat × Nat) := none
  pictureId : Nat := 0
  frameNo : Nat := 0
  deriving DecidableEq, Repr

/-- Video encoding: Survey contexts and tail contexts by number. -/
structure Encoding where
  svys : List (Nat × SvyCtx)
  tails : List (Nat × TailCtx)
  deriving DecidableEq, Repr

/-- A picture a layer may draw (R486, R488): its address, the Tide it was stamped or published in, whether it is HP10. -/
structure LayerPic where
  addr : Nat
  tide : Nat
  ten : Bool
  deriving DecidableEq, Repr

/-- The state of a layer (R486, R488): the newest picture kept for each output index, its stale count, its last good
picture. -/
structure LayerState where
  kept : List (Nat × LayerPic) := []
  stale : Nat := 0
  good : Option LayerPic := none
  deriving DecidableEq, Repr

/-- What a layer draws in the running instance: its picture, or its placeholder. -/
inductive LayerDraw where
  | picture (p : LayerPic)
  | placeholder
  deriving DecidableEq, Repr

/-- A layout that is staged (R489): its words, its apply Tide, whether that had begun. -/
structure StagedLayout where
  words : List Word
  tide : Nat
  late : Bool
  deriving DecidableEq, Repr

/-- A view context (R475–R491): its 16 parameter words; its layout; the staged layout; its layers by record; F_BOOKED
and PARAM1's layer count; the instances started and, for pictures in the essence ring, their number and T_v, the
newest first; the layout, the background and the draws of the running instance. -/
structure View where
  params : List Word
  layout : List Word := []
  staged : Option StagedLayout := none
  layers : List LayerState := []
  fBooked : Nat := 0
  maxLayers : Nat := 0
  count : Nat := 0
  ess : List (Nat × Nat) := []
  inUse : List Word := []
  bg : Nat := 0
  draws : List LayerDraw := []
  deriving DecidableEq, Repr

/-- An essence video receive flow (R498): the frame it assembles (its RTP timestamp, first extended sequence number, the
numbers seen), the number of buffers filled, the last extended sequence number, the newest published frame. -/
structure VidRx where
  frame : Option (Nat × Nat) := none
  seen : List Nat := []
  count : Nat := 0
  lastSeq : Option Nat := none
  newest : Option LayerPic := none
  deriving DecidableEq, Repr

/-- An essence video transmit flow (R499, R501): the number of its next frame epoch; the picture sent last; the frame it
sends: its epoch n, buffer address, next packet. -/
structure VidTx where
  epoch : Option Nat := none
  last : Option Nat := none
  frame : Option (Nat × Nat × Nat) := none
  deriving DecidableEq, Repr

/-- Composition and essence video: views and flows by number, and the transmit flows whose TRO was written. -/
structure Composing where
  views : List (Nat × View)
  rx : List (Nat × VidRx)
  tx : List (Nat × VidTx)
  troWritten : List Nat
  deriving DecidableEq, Repr

end Sys2Proof.Machine
end

