-- ==== Sys2Proof/Machine/Types/Lfi.lean ====
section
/-!
DEFINITION. The state of the Tide gauges and of the Link Fault Injector (chapter 18).
-/

namespace Sys2Proof.Machine

/-- What a frame is at a point of the Link Fault Injector (R572): received by a Quay, about to be sent by one with
whether the peer will see a bad FCS, or a frame of the Mooring. -/
inductive LfiFrame where
  | rx (f : RxFrame)
  | tx (f : TxFrame) (badFcs : Bool)
  | mrg (f : MrgFrame)
  deriving DecidableEq, Repr

/-- A frame that a HOLD keeps (R574): its point and logical port, its rule, since when, how many later frames are still to
pass. -/
structure LfiHeld where
  point : Nat
  lport : Nat
  rule : Nat
  since : Nat
  left : Nat
  frame : LfiFrame
  deriving DecidableEq, Repr

/-- The Link Fault Injector: the LFSR of each rule that is not as seeded by 1, and the frames held, the oldest first. -/
structure Lfi where
  lfsr : List (Nat × Word) := []
  held : List LfiHeld := []
  deriving DecidableEq, Repr

/-- A set of a gauge (R570): MIN and MAX, none while it is empty; COUNT, SUM, UNDER, OVER, DROPPED; the bins that are not
zero; the Tide of a snapshot. -/
structure GaugeSet where
  range : Option (Int × Int) := none
  count : Nat := 0
  sum : Int := 0
  under : Nat := 0
  excess : Nat := 0
  dropped : Nat := 0
  bins : List (Nat × Nat) := []
  tide : Nat := 0
  deriving DecidableEq, Repr

/-- A gauge: its live set and its snapshot, the events of its source so far (R569), the Tide it last sampled a source that
gives one sample in a Tide. -/
structure Gauge where
  live : GaugeSet := {}
  snap : GaugeSet := {}
  events : Nat := 0
  last : Option Nat := none
  deriving DecidableEq, Repr

/-- The gauges that are not empty, by number. -/
structure Gauges where
  sets : List (Nat × Gauge) := []
  deriving DecidableEq, Repr

end Sys2Proof.Machine
end

