-- ==== Sys2Proof/Machine/Types/Power.lean ====
section
/-!
DEFINITION. The state of the Power controller outside its registers (chapter 20): the pins it drives and watches, the
steps of start-up, the domains being switched on, and Ebb mode.
-/

namespace Sys2Proof.Machine

/-- The Power controller: PWR_OK and PERST_N as last seen; whether a thermal trip holds THERM_TRIP_N low, and ALERT_N as driven;
when BOOT_GO was taken, in ns of device time; whether Ebb mode is being entered, whether a wake runs, and whether one came
while entry was in progress; the domains being switched on; the repair map, as repair records (R556, R606); the repair and retirement records that
step 1 read from the fuses (R567). -/
structure Power where
  pwrOk : Bool := false
  perstN : Bool := false
  tripped : Bool := false
  alertLow : Bool := false
  bootAt : Option Nat := none
  entering : Bool := false
  waking : Bool := false
  wakeHeld : Bool := false
  turningOn : List Nat := []
  repairMap : List Word := []
  records : List Word := []
  deriving DecidableEq, Repr

end Sys2Proof.Machine
end

