-- ==== Sys2Proof/Machine/Types/Rkn.lean ====
section
/-!
DEFINITION. The state of the Reckoner (chapter 12): images, cores with their registers, data RAM and DMA channels,
and the Pier stores.
-/

namespace Sys2Proof.Machine

/-- A register of a core, an address of data RAM, or an instruction index (R377). -/
abbrev Half := BitVec 16

/-- A task of an image (R407): its entry index, its KIND, its declared worst-case cycles. -/
structure RkTask where
  entry : Nat
  kind : Nat
  cycles : Nat
  deriving DecidableEq, Repr

/-- A firmware image as loaded into a pier (R407, R408): the content of instruction RAM is `code`. -/
structure RkImage where
  id : Nat
  crc : Nat
  tasks : List RkTask
  initEntry : Nat
  preemptVec : Nat
  resumeVec : Nat
  preemptSave : Nat
  code : List Word
  deriving DecidableEq, Repr

/-- What a core is doing: nothing; INIT_ENTRY of a load, or how that ended (R408); instructions of the operation on
top of its stack; the handler of a pre-emption before TAKE; the resume sequence before RTI (R397–R401). -/
inductive RkMode where
  | idle | init | initDone | initFailed | run | handler | resume
  deriving DecidableEq, Repr

/-- An operation on a core: the order of its slot, the slot's number, its task's declared cycles, TIDE_LO at its
start, and cyc (R380, R392, R394). -/
structure RkOp where
  order : Nat
  slot : Nat
  limit : Nat
  startTide : Nat
  cyc : Nat
  deriving DecidableEq, Repr

/-- A load that has not yet written its register (R388): the register under R378, the value, and how many
instructions still read the old one. -/
structure RkLoad where
  reg : Nat
  value : Half
  left : Nat
  deriving DecidableEq, Repr

/-- A transfer on a DMA channel (R402): the channel, the address and the eight half-words of its descriptor, the
slot order of its operation with its tenant, and whether its bytes are in the allowance of a Tide (R406). -/
structure RkDma where
  ch : Nat
  desc : Half
  words : List Half
  order : Option Nat
  tenant : Nat
  booked : Bool
  charged : Bool
  deriving DecidableEq, Repr

/-- A core (R377–R381): registers 0–51 of R378, an accumulator as its three parts; pc; the index that follows the
delay slot it is in, if it is in one; the loads in flight; data RAM; its operations, the running one first; the
operation a PREEMPT names; its transfers; the bytes moved in a Tide. -/
structure RkCore where
  num : Nat
  mode : RkMode
  regs : Vector Half 52
  pc : Nat
  branch : Option Nat
  loads : List RkLoad
  ram : List Host.Cell
  ops : List RkOp
  request : Option Nat
  dma : List RkDma
  moved : Nat × Nat
  deriving DecidableEq, Repr

/-- The Reckoner: the image of each pier, the piers whose load is under way, the cores that are not as reset or the
last load left them, the data RAM of the others by pier, and the Pier stores. -/
structure Reckoner where
  images : List (Nat × RkImage)
  loading : List Nat
  cores : List RkCore
  rams : List (Nat × List Host.Cell)
  stores : List (Nat × List Host.Cell)
  deriving DecidableEq, Repr

end Sys2Proof.Machine
end

