-- ==== Sys2Proof/Machine/Types/Time.lean ====
section
/-!
DEFINITION. The state of the Tidekeeper: device time and Tides, the watched inputs, the filter, the time-event
FIFO, and the PTP ports. Fine instants count 2⁻¹⁶ ns.
-/

namespace Sys2Proof.Machine

/-- A reference input that is watched (R203): its next expected edge and its last edge of any kind, as fine
instants, and whether that last edge lay outside its window. -/
structure EdgeWatch where
  expect : Option Nat := none
  raw : Option Nat := none
  outside : Bool := false
  deriving DecidableEq, Repr

/-- A captured time event (R211): input and edge, seconds, nanoseconds, fraction. -/
structure TimeEvent where
  src : Nat
  sec : Nat
  ns : Nat
  frac : Nat
  deriving DecidableEq, Repr

/-- A message that follows an event message of a two-step port (R195): its type, its sequence number, the
timestamp it carries once that is taken, the correction it carries, and the identity of the requesting port. -/
structure FollowUp where
  type : Nat
  seq : Nat
  ts : Option Int
  corr : Int
  ident : Bytes
  deriving DecidableEq, Repr

/-- A received Sync or Pdelay_Resp that waits for its follow-up: sequence number, source, receive timestamp,
correction, and the timestamp the message carried. -/
structure Awaiting where
  seq : Nat
  ident : Bytes
  rx : Int
  corr : Int
  ts : Int
  deriving DecidableEq, Repr

/-- What an 802.1AS port learnt of its master's last Sync (R193): the origin timestamp's bytes, the correction, the receive
timestamp, and the rate ratio to the grandmaster less 1 in 2⁻⁴¹. -/
structure Forwarded where
  origin : Bytes
  corr : Int
  rx : Int
  rate : Int
  deriving DecidableEq, Repr

/-- A PTP port (R192–R195): the instants of its last Sync, delay request and Announce, their next sequence
numbers, the follow-ups to send, the messages that wait for one, the requests in flight with their transmit
timestamps, the last Sync's receive minus origin time, and the mean delay; of an 802.1AS port the transmit and receive
instants of the last Pdelay_Resp, and what it forwards. -/
structure PtpPort where
  lport : Nat
  lastSync : Option Nat := none
  lastDelay : Option Nat := none
  lastAnnounce : Option Nat := none
  seqSync : Nat := 0
  seqDelay : Nat := 0
  seqAnnounce : Nat := 0
  followUps : List FollowUp := []
  syncWait : Option Awaiting := none
  respWait : Option Awaiting := none
  request : Option (Nat × Int) := none
  forward : Option Int := none
  mean : Int := 0
  lastResp : Option (Int × Int) := none
  gptp : Option Forwarded := none
  deriving DecidableEq, Repr

/-- A Tide break that is armed (R206), its values captured at TIDE_BREAK. -/
structure Break where
  last : Nat
  next : Nat
  phase : Nat
  deriving DecidableEq, Repr

/-- The Tidekeeper: the Tide in progress and its phase; how far device time stands from that count after a
phase step (ns), the number the next Tide takes, and whether this Tide ends at anchoring (R198, R199); the armed
break; samples since ACQUIRE began, offsets in the lock window in a row, outliers in a row, the filtered
estimate, the phase term of its rate in 2⁻¹⁶ ppm (R200), whether the phase step was made; the last Sync's instant and interval; the watched inputs; whether
PPS_OUT is high and since when; the time events; the PTP ports that are not idle. -/
structure Tidekeeper where
  tide : Nat
  phase : Nat
  offset : Int := 0
  nextTide : Option Nat := none
  anchoring : Bool := false
  brk : Option Break := none
  samples : Nat := 0
  lockRun : Nat := 0
  outliers : Nat := 0
  filtered : Int := 0
  slew : Int := 0
  stepped : Bool := false
  lastSync : Option (Nat × Nat) := none
  pps : EdgeWatch := {}
  ref10m : EdgeWatch := {}
  ppsHigh : Option Nat := none
  events : List TimeEvent := []
  ports : List PtpPort := []
  deriving DecidableEq, Repr

end Sys2Proof.Machine
end

