-- ==== Sys2Proof/Machine/Types/Dev.lean ====
section
/-!
DEFINITION. `Dev`, everything the device holds but its fuses and the queue of waiting commands.
-/

namespace Sys2Proof.Machine

/-- Everything the device holds but its fuses and the queue of waiting commands; `applied` are the bases of the pages whose
staged fields took effect at the last Tide boundary. -/
structure Dev where
  variant : Variant
  regs : RegFile
  staged : List StagedReg
  applied : List Nat
  loHeld : List (Nat × Word)
  hiCaptured : List (Nat × Word)
  tk : Tidekeeper
  ldg : Ledger
  wfg : Wharf
  btc : Btc
  qay : Quays
  bwr : Breakwater
  bnd : Bond
  fry : Ferry
  tly : Tally
  abx : Abacus
  apu : Apu
  ess : EssAudio
  rkn : Reckoner
  dec : Decoding
  enc : Encoding
  cmp : Composing
  mrg : Mooring
  hold : Hold
  slw : Slipway
  tgg : Gauges
  lfi : Lfi
  gwy : Gangway
  pwr : Power
  free : Nat
  out : List Out
  deriving DecidableEq, Repr

end Sys2Proof.Machine
end

