-- ==== Sys2Proof/Machine/Regs.lean ====
section
/-!
DEFINITION. Pages and registers: where a page lies (R584, R585), what its registers hold, and which units a
variant, its straps and its power domains leave present (R1, R3, R603, R604, R617).
-/

namespace Sys2Proof.Machine

/-- The base address of a page in PF BAR0 (R584, R585); VF windows as `Machine/RegMap.lean` places them. -/
def pageBase (p : Page) : Nat :=
  match p.kind with
  | .dev => 0x000000 | .gwy => 0x010000 | .tkp => 0x020000 | .ldg => 0x030000 | .wfg => 0x040000
  | .qay => 0x080000 + 0x10000 * p.idx
  | .bwr => 0x0C0000 | .bnd => 0x0D0000 | .fry => 0x0E0000 | .tly => 0x0F0000 | .abx => 0x100000
  | .apu => 0x140000 | .ess => 0x150000 | .hld => 0x160000 | .mrg => 0x180000 | .slw => 0x190000
  | .tgg => 0x1A0000 | .lfi => 0x1B0000 | .pwr => 0x1C0000 | .btc => 0x1D0000
  | .pier => 0x200000 + 0x200000 * p.idx
  | .rkn => 0x210000 + 0x200000 * p.idx
  | .vde => 0x220000 + 0x200000 * (p.idx / 4) + 0x1000 * (p.idx % 4)
  | .svy => 0x240000 + 0x200000 * (p.idx / 2) + 0x1000 * (p.idx % 2)
  | .ltr => 0x250000 + 0x200000 * (p.idx / 6) + 0x1000 * (p.idx % 6)
  | .lcp => 0x270000 + 0x200000 * p.idx
  | .decCtl => 0x1230000 | .encCtl => 0x1260000 | .cmpCtl => 0x1280000
  | .vf => 0x10000000 + 0x10000 * p.idx

/-- The page of a pier window that an offset in it reaches (R585). -/
def pierPageAt (n o : Nat) : Option Page :=
  if o < 0x10000 then some ⟨.pier, n⟩
  else if o < 0x20000 then some ⟨.rkn, n⟩
  else if o < 0x30000 then
    let v := (o - 0x20000) / 0x1000
    if v < (if n = 8 then 2 else 4) then some ⟨.vde, 4 * n + v⟩ else none
  else if o < 0x40000 then if n = 8 then some ⟨.decCtl, 0⟩ else none
  else if o < 0x50000 then
    let s := (o - 0x40000) / 0x1000
    if s < (if n = 8 then 1 else 2) then some ⟨.svy, 2 * n + s⟩ else none
  else if o < 0x60000 then
    let l := (o - 0x50000) / 0x1000
    if l < (if n = 8 then 2 else 6) then some ⟨.ltr, 6 * n + l⟩ else none
  else if o < 0x70000 then if n = 8 then some ⟨.encCtl, 0⟩ else none
  else if o < 0x80000 then some ⟨.lcp, n⟩
  else if o < 0x90000 then if n = 8 then some ⟨.cmpCtl, 0⟩ else none
  else none

/-- The page that an address in PF BAR0 reaches (R584), if one does. -/
def pageAt (a : Nat) : Option Page :=
  let s := a / 0x10000
  if s = 0 then some ⟨.dev, 0⟩
  else if s = 1 then some ⟨.gwy, 0⟩
  else if s = 2 then some ⟨.tkp, 0⟩
  else if s = 3 then some ⟨.ldg, 0⟩
  else if s < 8 then some ⟨.wfg, 0⟩
  else if s < 12 then some ⟨.qay, s - 8⟩
  else if s = 12 then some ⟨.bwr, 0⟩
  else if s = 13 then some ⟨.bnd, 0⟩
  else if s = 14 then some ⟨.fry, 0⟩
  else if s = 15 then some ⟨.tly, 0⟩
  else if s < 20 then some ⟨.abx, 0⟩
  else if s = 20 then some ⟨.apu, 0⟩
  else if s = 21 then some ⟨.ess, 0⟩
  else if s < 24 then some ⟨.hld, 0⟩
  else if s = 24 then some ⟨.mrg, 0⟩
  else if s = 25 then some ⟨.slw, 0⟩
  else if s = 26 then some ⟨.tgg, 0⟩
  else if s = 27 then some ⟨.lfi, 0⟩
  else if s = 28 then some ⟨.pwr, 0⟩
  else if s = 29 then some ⟨.btc, 0⟩
  else if 0x200000 ≤ a ∧ a < 0x1400000 then pierPageAt ((a - 0x200000) / 0x200000) ((a - 0x200000) % 0x200000)
  else if 0x10010000 ≤ a ∧ a < 0x10410000 then some ⟨.vf, (a - 0x10000000) / 0x10000⟩
  else none

/-- The fields of a kind of page, below its common header. -/
def pageFields : PageKind → List RegField
  | .dev => Reg.devFields | .gwy => Reg.gwyFields | .tkp => Reg.tkpFields | .ldg => Reg.ldgFields
  | .wfg => Reg.wfgFields | .btc => Reg.btcFields | .qay => Reg.qayFields | .bwr => Reg.bwrFields
  | .bnd => Reg.bndFields | .fry => Reg.fryFields | .tly => Reg.tlyFields | .abx => Reg.abxFields
  | .apu => Reg.apuFields | .ess => Reg.essFields | .pier => Reg.pierFields | .rkn => Reg.rknFields
  | .vde => Reg.vdeFields | .decCtl => Reg.decCtlFields | .svy => Reg.svyFields | .ltr => Reg.ltrFields
  | .encCtl => Reg.encCtlFields | .lcp => Reg.lcpFields | .cmpCtl => Reg.cmpCtlFields
  | .hld => Reg.hldFields | .mrg => Reg.mrgFields | .slw => Reg.slwFields | .tgg => Reg.tggFields
  | .lfi => Reg.lfiFields | .pwr => Reg.pwrFields | .vf => Reg.vfFields

/-- The header fields of R591 that hold a value of their own, by offset: bits, access type, reset value. -/
def headerFields (base : Nat) : List RegField :=
  [⟨base + 0x008, [], 2, 2, .wo, 0⟩, ⟨base + 0x008, [], 1, 1, .rw, 0⟩, ⟨base + 0x008, [], 0, 0, .rw, 1⟩,
   ⟨base + 0x00C, [], 2, 0, .ro, 0⟩, ⟨base + 0x010, [], 31, 0, .ro, 0⟩, ⟨base + 0x014, [], 31, 0, .rw, 0⟩,
   ⟨base + 0x018, [], 31, 0, .w1c, 0⟩, ⟨base + 0x01C, [], 31, 0, .wo, 0⟩, ⟨base + 0x020, [], 31, 0, .rw, 0⟩,
   ⟨base + 0x024, [], 31, 0, .rw, 0⟩, ⟨base + 0x028, [], 18, 16, .ro, 0⟩, ⟨base + 0x028, [], 1, 1, .wo, 0⟩,
   ⟨base + 0x028, [], 0, 0, .wo, 0⟩, ⟨base + 0x02C, [], 31, 0, .ro, 0⟩, ⟨base + 0x030, [], 7, 0, .ro, 0⟩]

/-- Whether an offset is a copy of an array with these (count, stride) dimensions, outermost first. -/
def strideHits : List (Nat × Nat) → Nat → Bool
  | [], r => r == 0
  | (n, s) :: t, r => decide (r / s < n) && strideHits t (r % s)

/-- Whether a field has a copy at this address. -/
def RegField.hits (f : RegField) (a : Nat) : Bool := decide (f.addr ≤ a) && strideHits f.dims (a - f.addr)

/-- The address of the copy of a field with these indices. -/
def RegField.addrAt (f : RegField) (ix : List Nat) : Nat :=
  f.addr + ((f.dims.zip ix).map fun x => x.1.2 * x.2).sum

/-- The fields at an address. -/
def fieldsAt (a : Nat) : List RegField :=
  match pageAt a with
  | none => []
  | some p =>
    if a < pageBase p + 0x40 ∧ p.kind ≠ .vf then (headerFields (pageBase p)).filter (·.addr == a)
    else (pageFields p.kind).filter (·.hits a)

/-- What a register holds after reset: the reset value of each of its fields (R11). -/
def resetWord (a : Nat) : Word :=
  (fieldsAt a).foldl (fun w f => Word.withFld w f.hi f.lo f.reset) 0

/-- The word a register file holds at an address. -/
def RegFile.word (r : RegFile) (a : Nat) : Word := (assoc? a r).getD (resetWord a)

/-- The register file with a word written; a word at its reset value is not listed. -/
def RegFile.put (r : RegFile) (a : Nat) (w : Word) : RegFile := assocPut (resetWord a) a w r

/-- The register at an address. -/
def Dev.word (d : Dev) (a : Nat) : Word := RegFile.word d.regs a

/-- The device with the register at an address written. -/
def Dev.setWord (d : Dev) (a : Nat) (w : Word) : Dev := { d with regs := RegFile.put d.regs a w }

/-- A field of a register, with the indices of its copy. -/
def Dev.get (d : Dev) (f : RegField) (ix : List Nat := []) : Nat := Word.fld (d.word (f.addrAt ix)) f.hi f.lo

/-- The device with a field set. -/
def Dev.set (d : Dev) (f : RegField) (v : Nat) (ix : List Nat := []) : Dev :=
  d.setWord (f.addrAt ix) (Word.withFld (d.word (f.addrAt ix)) f.hi f.lo v)

/-- Whether a one-bit field is 1. -/
def Dev.flag (d : Dev) (f : RegField) (ix : List Nat := []) : Bool := d.get f ix == 1

/-- A counter advanced by `k`, saturating (R10). -/
def Dev.bump (d : Dev) (f : RegField) (ix : List Nat := []) (k : Nat := 1) : Dev :=
  d.set f (satAdd (f.hi + 1 - f.lo) (d.get f ix) k) ix

/-- A counter that wraps, advanced by `k`. -/
def Dev.bumpWrap (d : Dev) (f : RegField) (ix : List Nat := []) (k : Nat := 1) : Dev :=
  d.set f (d.get f ix + k) ix

/-- A 64-bit counter in a _LO and a _HI register, advanced by `k`, wrapping (R188). -/
def Dev.bump64 (d : Dev) (lo hi : RegField) (ix : List Nat) (k : Nat) : Dev :=
  let n := d.get lo ix + 2 ^ 32 * d.get hi ix + k
  (d.set lo (n % 2 ^ 32) ix).set hi (n / 2 ^ 32) ix

/-- The 64-bit value of a _LO and a _HI register. -/
def Dev.get64 (d : Dev) (lo hi : RegField) (ix : List Nat := []) : Nat := d.get lo ix + 2 ^ 32 * d.get hi ix

/-- A 64-bit value written to a _LO and a _HI register. -/
def Dev.set64 (d : Dev) (lo hi : RegField) (v : Nat) (ix : List Nat := []) : Dev :=
  (d.set lo (v % 2 ^ 32) ix).set hi (v / 2 ^ 32 % 2 ^ 32) ix

/-- A header register of a page (R591). -/
def Dev.hdr (d : Dev) (p : Page) (off hi lo : Nat) : Nat := Word.fld (d.word (pageBase p + off)) hi lo

/-- A header register of a page, set. -/
def Dev.setHdr (d : Dev) (p : Page) (off hi lo v : Nat) : Dev :=
  d.setWord (pageBase p + off) (Word.withFld (d.word (pageBase p + off)) hi lo v)

/-- The counters a page keeps, zeroed (CNT_CLEAR). -/
def Dev.clearCounters (d : Dev) (keep : Nat → Bool) : Dev :=
  { d with regs := d.regs.foldl (fun r p =>
      if keep p.1 then
        let w := (fieldsAt p.1).foldl (fun w f => if f.acc = .ctr then Word.withFld w f.hi f.lo 0 else w) p.2
        RegFile.put r p.1 w
      else r) d.regs }

/-! ### Presence -/

/-- Whether the straps or the variant leave a half-size part (R1, R617). -/
def Dev.half (d : Dev) : Bool := d.variant == .spt8816 || bitAt (d.get Reg.pwr_STRAPS) 1

/-- Whether the video engines are present (R1, R617). -/
def Dev.video (d : Dev) : Bool := d.variant != .spt8808a && !bitAt (d.get Reg.pwr_STRAPS) 0

/-- Whether essence video is present (R1, R617). -/
def Dev.essVideo (d : Dev) : Bool := d.variant == .spt8832 && !bitAt (d.get Reg.pwr_STRAPS) 0

/-- Whether the Mooring is present (R617). -/
def Dev.twin (d : Dev) : Bool := !bitAt (d.get Reg.pwr_STRAPS) 2

/-- Whether pier n is present. -/
def Dev.pierPresent (d : Dev) (n : Nat) : Bool := decide (n < 4) || (decide (n < 8) && !d.half) || n == 8

/-- Whether a page belongs to a unit that is present (R2, R3, R617). -/
def Dev.present (d : Dev) (p : Page) : Bool :=
  match p.kind with
  | .qay => decide (p.idx < 2) || (decide (p.idx < 4) && !d.half)
  | .pier => d.pierPresent p.idx
  | .rkn => decide (p.idx < 8) && d.pierPresent p.idx
  | .vde => d.video && d.pierPresent (p.idx / 4)
  | .svy => d.video && d.pierPresent (p.idx / 2)
  | .ltr => d.video && d.pierPresent (p.idx / 6)
  | .lcp => d.video && d.pierPresent p.idx
  | .decCtl | .encCtl | .cmpCtl => d.video
  | .mrg => d.twin
  | .vf => decide (1 ≤ p.idx) && decide (p.idx ≤ 64)
  | _ => true

/-- The power domain PDd that holds a page (R603); 0 is AON. -/
def pageDomain (p : Page) : Nat :=
  match p.kind with
  | .tkp | .pwr => 0
  | .dev | .gwy | .vf => 1
  | .qay => 2 + p.idx
  | .mrg => 6
  | .pier | .rkn | .lcp => 7 + p.idx
  | .vde => 7 + p.idx / 4
  | .svy => 7 + p.idx / 2
  | .ltr => 7 + p.idx / 6
  | .decCtl | .encCtl | .cmpCtl => 15
  | .abx => 16
  | .apu | .ess => 17
  | .bnd => 18
  | .fry | .tly => 19
  | .bwr => 20
  | .hld => 21
  | .wfg | .ldg | .btc => 23
  | .slw | .tgg | .lfi => 24

/-- Whether a power domain is on (R603). -/
def Dev.domainOn (d : Dev) (pd : Nat) : Bool := pd == 0 || bitAt (d.word 0x1C0044).toNat pd

/-- A clock as CLK_OK reports it (R625): the fabric PLL, QREFCLK0, QREFCLK1, the PCIe REFCLK, the audio PLL. -/
def Dev.clkOk (d : Dev) (i : Nat) : Bool := bitAt (d.get Reg.pwr_CLK_OK) i

/-- Whether a page can act: its unit is present and its domain is on. -/
def Dev.live (d : Dev) (p : Page) : Bool := d.present p && d.domainOn (pageDomain p)

/-- Whether a page's unit takes work, as far as its header says (R591): ENABLE is 1 and it is not QUIESCED. -/
def Dev.enabled (d : Dev) (p : Page) : Bool := d.live p && d.hdr p 0x008 0 0 == 1 && d.hdr p 0x008 1 1 == 0

/-- The Berth Table's row count (R1, R155). -/
def Dev.rowCount (d : Dev) : Nat := if d.variant = .spt8816 then 0x1000000 else 0x2000000

/-- Usable Hold in MiB (R506). -/
def Dev.usableMib (d : Dev) : Nat := if d.half then 57344 else 114688

/-- The Hold channels present (R506). -/
def Dev.channels (d : Dev) : Nat := if d.half then 32 else 64

/-- The type code of a page (R584, R585). -/
def typeCode (k : PageKind) : Nat :=
  match k with
  | .dev => 0x0001 | .gwy => 0x0010 | .tkp => 0x0011 | .ldg => 0x0012 | .wfg => 0x0013 | .btc => 0x0014
  | .qay => 0x0020 | .bwr => 0x0021 | .bnd => 0x0022 | .fry => 0x0023 | .tly => 0x0024 | .abx => 0x0030
  | .apu => 0x0031 | .ess => 0x0032 | .pier => 0x0040 | .rkn => 0x0041 | .vde | .decCtl => 0x0042
  | .svy | .encCtl => 0x0043 | .ltr => 0x0044 | .lcp | .cmpCtl => 0x0045 | .hld => 0x0050 | .mrg => 0x0051
  | .slw => 0x0060 | .tgg => 0x0061 | .lfi => 0x0062 | .pwr => 0x0063 | .vf => 0x0000

/-- The instance a page reports: its index, or 0xFF for a control page (R442, R473, R503). -/
def pageInstance (p : Page) : Nat :=
  match p.kind with
  | .decCtl | .encCtl | .cmpCtl => 0xFF
  | _ => p.idx % 256

end Sys2Proof.Machine
end

