-- ==== Sys2Proof/Machine/Ops.lean ====
section
/-!
DEFINITION. The operations every unit shares: time, free values, status codes, events, MSI-X vectors, error
logging, and the memory of bytes.
-/

namespace Sys2Proof.Machine

/-- The code of R19 that a status has. -/
def Status.code : Status → Nat
  | .done => 0x00 | .doneConcealed => 0x01 | .doneTruncated => 0x02 | .doneStale => 0x03
  | .refusedBudget => 0x10 | .refusedNoUnit => 0x11 | .refusedParam => 0x12 | .refusedTenant => 0x13
  | .failedUnitFault => 0x20 | .failedMemoryUe => 0x21 | .failedLength => 0x22 | .failedAuth => 0x23
  | .failedSyntax => 0x24 | .cancelled => 0x30

/-- The code of R530 that a Hold error has. -/
def HoldErr.code : HoldErr → Nat
  | .ue => 1 | .poison => 2 | .unmapped => 3 | .notReady => 4 | .ctrlFault => 5 | .rmwFail => 6

/-! ### Free values and time -/

/-- A value the spec leaves open, and the device with one more drawn. -/
def Dev.draw (d : Dev) : Dev × Nat := ({ d with free := d.free + 1 }, Config.freeNat d.free)

/-- A run of `n` bytes the spec leaves open, and the device with one more drawn. -/
def Dev.drawBytes (d : Dev) (n : Nat) : Dev × Bytes :=
  ({ d with free := d.free + 1 }, padTo n (Config.freeBytes d.free n))

/-- The Tide in progress. -/
def Dev.tide (d : Dev) : Nat := d.tk.tide

/-- The Tide phase in ns (R17). -/
def Dev.phase (d : Dev) : Nat := d.tk.phase

/-- Device time in ns: Tide n begins at n ms (R16), but for the Tide a phase step falls in (R198). -/
def Dev.ns (d : Dev) : Nat := ((d.tk.tide * 1000000 + d.tk.phase : Nat) + d.tk.offset : Int).toNat

/-- The device with something sent to the outside, the newest first. -/
def Dev.emit (d : Dev) (o : Out) : Dev := { d with out := o :: d.out }

/-- The phase at which the Tide in progress ends (R17): 1,000,000, but for the Tide that a break lengthens (R206) and the Tide
that ends at anchoring with a phase step (R199). -/
def Dev.tideEnd (d : Dev) : Nat :=
  let plain : Nat := match d.tk.nextTide with
    | some n => ((n * 1000000 : Nat) - (d.tk.tide * 1000000 : Nat) - d.tk.offset : Int).toNat
    | none => 1000000
  match d.tk.brk with
  | some b => if b.last = d.tk.tide then 1000000 + b.phase else plain
  | none => plain

/-- PPS_OUT rises at the whole second that began at `t`, unless squelched (R209). -/
def Dev.ppsRise (d : Dev) (t : Nat) : Dev :=
  if d.flag Reg.tkp_PPS_SQUELCH && !d.flag Reg.tkp_ANCHORED then d
  else { d with tk := { d.tk with ppsHigh := some t } }.emit (.ppsOut true)

/-- The device at a later phase of the Tide in progress; a phase already passed, or that the Tide does not have, changes nothing.
Once time moves on, the admission ports have answered (R59); a whole second within a lengthened Tide raises PPS_OUT (R209). -/
def Dev.atPhase (d : Dev) (ph : Nat) : Dev :=
  if d.tk.phase ≤ ph ∧ ph < d.tideEnd then
    let e : Dev := { d with
      tk := { d.tk with phase := ph }
      ldg := { d.ldg with busy := if d.tk.phase < ph then [] else d.ldg.busy } }
    if d.ns / 1000000000 < e.ns / 1000000000 then e.ppsRise (e.ns / 1000000000 * 1000000000) else e
  else d

/-! ### Vectors (R594) -/

/-- The address of a vector's entry of the MSI-X tables: in PF BAR4, placed at 0x2000_0000, or at 0xB000 of a VF's
window (R588, R600). -/
def msixEntry : Fn → Nat → Nat
  | .pf, v => 0x20000000 + 16 * v
  | .vf n, v => 0x1000B000 + 0x10000 * n + 16 * v

/-- A word of the MSI-X tables. -/
def Dev.msixWord (d : Dev) (a : Nat) : Nat := ((assoc? a d.gwy.msix).getD 0).toNat

/-- The MSI-X message of a vector is sent if it is armed and not masked; a masked vector pends (R594). -/
def Dev.signal (d : Dev) (f : Fn) (v : Nat) : Dev :=
  if d.gwy.disarmed.contains (f, v) then d
  else if d.gwy.unmasked.contains (f, v) then
    { d with
      gwy := { d.gwy with
        disarmed := (f, v) :: d.gwy.disarmed
        lastMsg := (f, v, d.ns) :: d.gwy.lastMsg.filter fun x => x.1 != f || x.2.1 != v }
      out := .msix f v (d.msixWord (msixEntry f v) + 2 ^ 32 * d.msixWord (msixEntry f v + 4)) (d.msixWord (msixEntry f v + 8)) ::
        d.out }
  else if d.gwy.pendingBits.contains (f, v) then d
  else { d with gwy := { d.gwy with pendingBits := (f, v) :: d.gwy.pendingBits } }

/-- The 64 KiB slot of PF BAR0 that holds a page (R593). -/
def pageSlot (p : Page) : Nat := pageBase p / 0x10000

/-- A page signals: the vector its slot is mapped to, or vector 0 of a VF's event page (R593, R594). -/
def Dev.signalPage (d : Dev) (p : Page) : Dev :=
  if p.kind = .vf then
    if d.get Reg.vf_EVT_PEND [p.idx - 1] &&& d.get Reg.vf_EVT_EN [p.idx - 1] = 0 then d else d.signal (.vf p.idx) 0
  else if d.hdr p 0x018 31 0 &&& d.hdr p 0x014 31 0 = 0 then d
  else d.signal .pf (d.get Reg.gwy_VEC_MAP [pageSlot p])

/-- An event latches its bits in EVT_PEND whatever EVT_EN holds, and the page signals if enabled (R592). -/
def Dev.latch (d : Dev) (p : Page) (mask : Nat) : Dev :=
  if p.kind = .vf then
    (d.set Reg.vf_EVT_PEND (d.get Reg.vf_EVT_PEND [p.idx - 1] ||| mask) [p.idx - 1]).signalPage p
  else (d.setHdr p 0x018 31 0 (d.hdr p 0x018 31 0 ||| mask)).signalPage p

/-- Event `bit` of a page occurs (R592). -/
def Dev.raise (d : Dev) (p : Page) (bit : Nat) : Dev := d.latch p (2 ^ bit)

/-- A saturating counter advances by `k`; event `bit` of the page occurs if the counter increases (R11, R189). -/
def Dev.countRaise (d : Dev) (p : Page) (bit : Nat) (f : RegField) (ix : List Nat := []) (k : Nat := 1) : Dev :=
  let e := d.bump f ix k
  if e.get f ix = d.get f ix then e else e.raise p bit

/-- Event `bit` of every VF of a tenant occurs (R602); tenant 0 has no VF. -/
def Dev.raiseTenant (d : Dev) (t bit : Nat) : Dev :=
  if t = 0 then d
  else ((List.range 64).filter fun i => d.get Reg.gwy_VF_TENANT [i] = t).foldl
    (fun d i => d.raise ⟨.vf, i + 1⟩ bit) d

/-! ### Error logging (R591, R597, R598, R639) -/

/-- The code of a register write ignored or refused and logged that no other row of R639 covers. -/
def codeWriteIgnored : Nat := 0x07

/-- The code of a GO written while BUSY on a page with no event bit for it (R639). -/
def codeGoBusy : Nat := 0x08

/-- A log entry is counted in ERR_COUNT and ERR_LAST and enters the Gangway's FIFO of 256 entries; one that
finds it full is dropped and counted in LOG_DROP (R598). -/
def Dev.log (d : Dev) (p : Page) (code : Nat) (refKind : Nat := 0) (ref : Nat := 0) (tenant : Nat := 0)
    (detail : Bytes := []) : Dev :=
  let d := (d.setHdr p 0x02C 31 0 (satAdd 32 (d.hdr p 0x02C 31 0) 1)).setHdr p 0x030 7 0 code
  if d.gwy.log.length < 256 then
    { d with gwy := { d.gwy with log := d.gwy.log ++ [⟨d.tide, d.phase, p, code, refKind, ref, tenant, padTo 32 detail⟩] } }
  else (d.bump Reg.gwy_LOG_DROP).raise ⟨.gwy, 0⟩ 2

/-- A log entry for a write that is ignored; its detail names the register. -/
def Dev.logIgnored (d : Dev) (p : Page) (addr : Nat) : Dev := d.log p codeWriteIgnored (detail := leBytes 8 addr)

/-- A log entry for a condition that raises event `bit` of the page, after the event (R639). -/
def Dev.raiseLog (d : Dev) (p : Page) (bit : Nat) (refKind : Nat := 0) (ref : Nat := 0) (tenant : Nat := 0)
    (detail : Bytes := []) : Dev :=
  (d.raise p bit).log p (0x80 + bit) refKind ref tenant detail

/-! ### Memory of bytes -/

namespace Memory

/-- What a byte that nothing has written reads as: Hold is zeroed before use (R516). -/
def blank : Byte := 0

/-- The byte at an address. -/
def read (m : List Host.Cell) (a : Nat) : Byte := (assoc? a m).getD blank

/-- The memory with a byte written; a byte at its blank value is not listed. -/
def write (m : List Host.Cell) (a : Nat) (b : Byte) : List Host.Cell := assocPut blank a b m

/-- `n` bytes from an address on. -/
def readN (m : List Host.Cell) (a n : Nat) : Bytes := (List.range n).map fun i => read m (a + i)

/-- The memory with a run of bytes written. -/
def writeN (m : List Host.Cell) (a : Nat) : Bytes → List Host.Cell
  | [] => m
  | b :: t => writeN (write m a b) (a + 1) t

/-- The canonical form: addresses rise strictly and no listed byte is blank. -/
def wf (m : List Host.Cell) : Bool := keysRise m && m.all fun c => c.2 != blank

end Memory

/-- A picture of a size has been output at an address. -/
def Dev.noteMade (d : Dev) (a w h : Nat) : Dev := { d with dec := { d.dec with made := assocSet a (w, h) d.dec.made } }

end Sys2Proof.Machine
end

