-- ==== Sys2Proof/Machine/Hold.lean ====
section
/-!
DEFINITION. Hold (chapter 16): the address map, the outer code, poison, injection, and the reads and writes
that every requester makes.
-/

namespace Sys2Proof.Machine

/-- The Hold page. -/
def hldPage : Page := ⟨.hld, 0⟩

/-! ### The address map (R512, R513) -/

/-- Region r as its registers hold it, if it is valid. -/
def Dev.region? (d : Dev) (r : Nat) : Option Region :=
  if d.flag Reg.hld_REG_VALID [r] then
    some ⟨d.get Reg.hld_REG_BASE [r], d.get Reg.hld_REG_SIZE [r], d.get Reg.hld_REG_LOCAL_BASE [r],
      256 * 2 ^ d.get Reg.hld_REG_GRAIN [r], d.get Reg.hld_REG_CH_FIRST [r], 2 ^ d.get Reg.hld_REG_CH_COUNT_LOG2 [r],
      d.get Reg.hld_REG_GRAIN [r]⟩
  else none

/-- The valid regions. -/
def Dev.regions (d : Dev) : List Region := (List.range 8).filterMap d.region?

/-- One MiB. -/
def mib : Nat := 1048576

/-- Whether two ranges [a, a + n) and [b, b + m) meet. -/
def overlap (a n b m : Nat) : Bool := decide (a < b + m) && decide (b < a + n)

/-- Whether one region keeps the limits of R513 on a part with `chans` channels and `usable` MiB. -/
def Region.ok (r : Region) (chans usable : Nat) : Bool :=
  decide (r.grainCode ≤ 8) && decide (r.chFirst + r.chCount ≤ chans) && r.chFirst % r.chCount == 0 &&
  decide (0 < r.size) && r.size % r.chCount == 0 && decide (r.localBase + r.size / r.chCount ≤ 1792) &&
  decide (r.base + r.size ≤ usable)

/-- Whether two regions may stand together (R513). -/
def Region.compatible (r q : Region) : Bool :=
  !overlap r.base r.size q.base q.size &&
  !(overlap r.chFirst r.chCount q.chFirst q.chCount &&
    overlap r.localBase (r.size / r.chCount) q.localBase (q.size / q.chCount))

/-- Whether the valid regions keep R513. -/
def Dev.regionsOk (d : Dev) : Bool :=
  let rs := d.regions
  rs.all (·.ok d.channels d.usableMib) && decide (rs.Pairwise fun r q => r.compatible q = true)

/-- The channel and the data offset in it that an address lies at (R512). -/
def Region.place (r : Region) (a : Nat) : Nat × Nat :=
  let o := a - r.base * mib
  let u := o / r.grain
  (r.chFirst + u % r.chCount, r.localBase * mib + u / r.chCount * r.grain + o % r.grain)

/-- The channel and data offset of an address, if a valid region below the usable limit maps it (R512, R515). -/
def Dev.holdPlace (d : Dev) (a : Nat) : Option (Nat × Nat) :=
  if d.usableMib * mib ≤ a then none
  else (d.regions.find? fun r => decide (r.base * mib ≤ a) && decide (a < (r.base + r.size) * mib)).map (·.place a)

/-- The address of a region that lies at a channel and data offset, if one does. -/
def Region.addr? (r : Region) (ch loc : Nat) : Option Nat :=
  let o := loc - r.localBase * mib
  if r.chFirst ≤ ch ∧ ch < r.chFirst + r.chCount ∧ r.localBase * mib ≤ loc ∧ o < r.size / r.chCount * mib then
    some (r.base * mib + (o / r.grain * r.chCount + (ch - r.chFirst)) * r.grain + o % r.grain)
  else none

/-- A place as one number: each channel has 1,792 MiB of data space (R506). -/
def spotOf (p : Nat × Nat) : Nat := p.1 * (1792 * mib) + p.2

/-- The place in channel space that an address has under a set of regions. -/
def spotUnder (rs : List Region) (a : Nat) : Option Nat :=
  (rs.find? fun r => decide (r.base * mib ≤ a) && decide (a < (r.base + r.size) * mib)).map fun r => spotOf (r.place a)

/-- The address that a place in channel space has under a set of regions. -/
def addrUnder (rs : List Region) (p : Nat) : Option Nat :=
  (rs.filterMap fun r => r.addr? (p / (1792 * mib)) (p % (1792 * mib))).head?

/-- Entries move with their places: those of the map and those outside it, as the new map names them, and those it does
not name. -/
def movedBy {α : Type} (old new : List Region) (here away : List (Nat × α)) : List (Nat × α) × List (Nat × α) :=
  let all := (here.filterMap fun x => (spotUnder old x.1).map fun p => (p, x.2)) ++ away
  (all.filterMap fun x => (addrUnder new x.1).map fun a => (a, x.2), all.filter fun x => (addrUnder new x.1).isNone)

/-- Hold is enabled: what its channels hold stays at its place in them, and answers at the addresses that the regions now
give those places (R512, R514). -/
def Dev.remap (d : Dev) : Dev :=
  let h := d.hold
  if h.map = d.regions then d
  else
    let tag (l : List Nat) : List (Nat × Unit) := l.map fun a => (a, ())
    let cells := movedBy h.map d.regions h.cells h.away.cells
    let poison := movedBy h.map d.regions (tag h.poison) (tag h.away.poison)
    let logged := movedBy h.map d.regions (tag h.poisonLogged) (tag h.away.poisonLogged)
    let bad := movedBy h.map d.regions h.bad h.away.bad
    { d with hold := { h with
      map := d.regions
      cells := cells.1.foldl (fun m c => Memory.write m c.1 c.2) []
      poison := poison.1.map (·.1)
      poisonLogged := logged.1.map (·.1)
      bad := bad.1
      away := ⟨cells.2, poison.2.map (·.1), logged.2.map (·.1), bad.2⟩ } }

/-- The eighth of a channel that holds a data offset (R521). -/
def eighthOf (loc : Nat) : Nat := loc / (224 * mib)

/-- Every channel in self-refresh wakes (R520). -/
def Dev.wakeChannels (d : Dev) : Dev :=
  (List.range 64).foldl (fun d c => if d.get Reg.hld_CH_STATE [c] = 3 then d.set Reg.hld_CH_STATE 2 [c] else d) d

/-! ### Errors -/

/-- A Hold error is logged by the Hold page with the address it concerns and its cause (R515, R523, R530). -/
def Dev.holdLog (d : Dev) (e : HoldErr) (a ch loc : Nat) (who : Page) (scrub : Bool) : Dev :=
  d.log hldPage e.code 3 0 0
    (leBytes 8 a ++ leBytes 1 ch ++ leBytes 4 (loc / 1792) ++ leBytes 1 (loc % 1792 / 64) ++
      leBytes 2 (typeCode who.kind) ++ leBytes 1 (pageInstance who) ++ leBytes 1 (bitOf scrub))

/-- Whether Hold answers NOT_READY at this place (R515, R522): before INIT_DONE everything does, or, after a
wake from Ebb mode, the eighths not yet zeroed. -/
def Dev.holdNotReady (d : Dev) (place : Option (Nat × Nat)) : Bool :=
  !d.live hldPage || !d.flag Reg.hld_EN || (!d.flag Reg.hld_INIT_DONE &&
    (decide (d.get Reg.dev_STEP < 5) ||
      match place with
      | some (ch, loc) => d.hold.unzeroed.contains (ch, eighthOf loc)
      | none => false))

/-- The channel of an address, the access it wakes (R520), or the error response it meets before any block is
touched (R515, R527); in Ebb mode no address is mapped (R623). -/
def Dev.holdAccess (d : Dev) (a : Nat) (who : Page) : Dev × Except HoldErr (Nat × Nat) :=
  let place := if d.get Reg.dev_DEV_STATE = 3 then none else d.holdPlace a
  if d.holdNotReady place then (d.holdLog .notReady a 0 0 who false, .error .notReady)
  else
    match place with
    | none => ((d.bump Reg.hld_UNMAPPED).holdLog .unmapped a 0 0 who false, .error .unmapped)
    | some (ch, loc) =>
      if d.hold.lost.contains ch then (d.holdLog .ctrlFault a ch loc who false, .error .ctrlFault)
      else
        let d := { d with hold := { d.hold with lastAccess := assocSet ch d.ns d.hold.lastAccess } }
        let d := if d.get Reg.hld_CH_STATE [ch] = 3 then d.set Reg.hld_CH_STATE 2 [ch] else d
        (d, .ok (ch, loc))

/-- The erroneous symbols an armed injection adds to this access, and the device after it (R528). -/
def Dev.inject (d : Dev) (ch blk : Nat) (write : Bool) : Dev × Nat :=
  match d.hold.injection with
  | some i =>
    if i.ch = ch ∧ i.block = blk ∧ i.onWrite = write then
      let d := d.bump Reg.hld_INJ_HITS
      if i.repeating then (d, i.symbols)
      else (({ d with hold := { d.hold with injection := none } }.set Reg.hld_ARMED 0).raise hldPage 9, i.symbols)
    else (d, 0)
  | none => (d, 0)

/-- The symbols the decoder corrects (R509): values above 4 act as 4. -/
def Dev.corrLimit (d : Dev) : Nat := clampN 0 4 (d.get Reg.hld_CORR_LIMIT)

/-- A corrected read of a channel: its counters, its window (R525) and its run of single-line corrections,
which may mark an erasure line (R511). -/
def Dev.noteCorrected (d : Dev) (ch : Nat) (line : Option Nat) (a loc : Nat) (who : Page) : Dev :=
  let d := (d.bump Reg.hld_CE_COUNT).bump Reg.hld_CH_CE [ch]
  let r := (assoc? ch d.hold.runs).getD ⟨16, 0, 0, false⟩
  let run := match line with
    | some l => if l < 16 then (if r.line = l then r.run + 1 else 1) else 0
    | none => 0
  let storm := r.ceWindow + 1 == atLeast1 (d.get Reg.hld_CE_THRESH) && !r.stormed
  let r' : ChanRun := ⟨line.getD 16, run, r.ceWindow + 1, r.stormed || storm⟩
  let d := { d with hold := { d.hold with runs := assocSet ch r' d.hold.runs } }
  let d := if storm then d.raise hldPage 1 else d
  if atLeast1 (d.get Reg.hld_ERASE_THRESH) ≤ run ∧ !d.flag Reg.hld_CH_ERASE_VALID [ch] then
    let d := (d.set Reg.hld_CH_ERASE_VALID 1 [ch]).set Reg.hld_CH_ERASE_LINE (line.getD 0) [ch]
    (d.raise hldPage 10).log hldPage (0x80 + 10) 3 0 0
      (leBytes 8 a ++ leBytes 1 ch ++ leBytes 1 (line.getD 0) ++ leBytes 4 (loc / 1792) ++ leBytes 2 (typeCode who.kind))
  else d

/-- A block found uncorrectable (R523): poison, counters, UE_ADDR, event and log. -/
def Dev.noteUncorrectable (d : Dev) (blk ch loc : Nat) (who : Page) (scrub : Bool) : Dev :=
  let d := { d with hold := { d.hold with
    poison := if d.hold.poison.contains blk then d.hold.poison else blk :: d.hold.poison
    poisonLogged := blk :: d.hold.poisonLogged.filter (· != blk) } }
  let d := (d.bump Reg.hld_CH_UE [ch]).bump Reg.hld_UE_COUNT
  let d := (d.set64 Reg.hld_UE_ADDR_LO Reg.hld_UE_ADDR_HI blk).set Reg.hld_UE_CH ch
  (d.raise hldPage 0).holdLog .ue blk ch loc who scrub

/-- What the outer code makes of the erroneous symbols of a read (R509, R511). -/
inductive Decoded where
  | clean | corrected | uncorrectable | miscorrected
  deriving DecidableEq, Repr

/-- The outcome of R509 without an erasure line, and of R511 with the channel's line erased. -/
def Dev.decodeBlock (d : Dev) (ch : Nat) (errs : List (Nat × Nat)) (aliased : Bool) : Decoded :=
  let cl := d.corrLimit
  if d.flag Reg.hld_CH_ERASE_VALID [ch] then
    let t := ((errs.filter fun e => e.1 != d.get Reg.hld_CH_ERASE_LINE [ch]).map (·.2)).sum
    if t = 0 then .clean else if t ≤ min 1 cl then .corrected else if aliased then .miscorrected else .uncorrectable
  else
    let w := (errs.map (·.2)).sum
    if w = 0 then .clean
    else if w ≤ cl then .corrected
    else if w ≤ 8 - cl then .uncorrectable
    else if aliased then .miscorrected
    else .uncorrectable

/-- The line that all the errors of a read lie on, if one line does. -/
def oneLine (errs : List (Nat × Nat)) : Option Nat :=
  match errs.filter (fun e => e.2 != 0) with
  | [(l, _)] => some l
  | _ => none

/-- A read of the block at a block address: its 64 bytes, or an error response (R509, R511, R515, R523, R524). -/
def Dev.readBlock (d : Dev) (blk : Nat) (who : Page) (flaw : ReadFlaw := {}) (scrub : Bool := false) :
    Dev × Except HoldErr Bytes :=
  match d.holdAccess blk who with
  | (d, .error e) => (d, .error e)
  | (d, .ok (ch, loc)) =>
    if d.hold.poison.contains blk then
      let d := d.countRaise hldPage 2 Reg.hld_POISON_READS
      if d.hold.poisonLogged.contains blk then (d, .error .poison)
      else
        let d := d.holdLog .poison blk ch loc who scrub
        ({ d with hold := { d.hold with poisonLogged := blk :: d.hold.poisonLogged } }, .error .poison)
    else
      let (d, inj) := d.inject ch blk false
      let stored := (assoc? blk d.hold.bad).getD 0
      let errs := (if inj = 0 then [] else [(16, inj)]) ++ (if stored = 0 then [] else [(17, stored)]) ++ flaw.errs
      let data := Memory.readN d.hold.cells blk 64
      match d.decodeBlock ch errs flaw.aliased with
      | .clean => (d, .ok data)
      | .corrected => (d.noteCorrected ch (oneLine errs) blk loc who, .ok data)
      | .uncorrectable => (d.noteUncorrectable blk ch loc who scrub, .error .ue)
      | .miscorrected => let (d, b) := d.drawBytes 64; (d, .ok b)

/-- The blocks that hold `n` bytes from an address on. -/
def blocksOf (a n : Nat) : List Nat :=
  if n = 0 then [] else (List.range ((a + n - 1) / 64 - a / 64 + 1)).map fun i => (a / 64 + i) * 64

/-- A read of `n` bytes: each of its blocks in turn, the first error ending it. -/
def Dev.holdRead (d : Dev) (a n : Nat) (who : Page) : Dev × Except HoldErr Bytes :=
  let r := (blocksOf a n).foldl (fun (acc : Dev × Except HoldErr Bytes) blk =>
    match acc with
    | (d, .error e) => (d, .error e)
    | (d, .ok b) =>
      match d.readBlock blk who with
      | (d, .ok x) => (d, .ok (b ++ x))
      | (d, .error e) => (d, .error e)) (d, .ok [])
  match r with
  | (d, .ok b) => (d, .ok (slice b (a % 64) n))
  | (d, .error e) => (d, .error e)

/-- A read of `n` words. -/
def Dev.holdWords (d : Dev) (a n : Nat) (who : Page) : Dev × Except HoldErr (List Word) :=
  match d.holdRead a (4 * n) who with
  | (d, .ok b) => (d, .ok (wordsOf n b))
  | (d, .error e) => (d, .error e)

/-- A write of bytes that lie in one block: a whole block clears poison; a part is merged by
read-modify-write, which a poisoned or uncorrectable block refuses (R507, R524). -/
def Dev.writeBlock (d : Dev) (a : Nat) (b : Bytes) (who : Page) : Dev × Option HoldErr :=
  let blk := a / 64 * 64
  match d.holdAccess a who with
  | (d, .error e) => (d, some e)
  | (d, .ok (ch, loc)) =>
    let whole := b.length == 64
    let store (d : Dev) : Dev :=
      let (d, inj) := d.inject ch blk true
      { d with hold := { d.hold with
        cells := Memory.writeN d.hold.cells a b
        poison := if whole then d.hold.poison.filter (· != blk) else d.hold.poison
        poisonLogged := if whole then d.hold.poisonLogged.filter (· != blk) else d.hold.poisonLogged
        bad := if inj = 0 then assocDel blk d.hold.bad else assocSet blk inj d.hold.bad } }
    if whole then (store d, none)
    else if d.hold.poison.contains blk then (d.holdLog .rmwFail blk ch loc who false, some .rmwFail)
    else
      match d.decodeBlock ch [(17, (assoc? blk d.hold.bad).getD 0)] false with
      | .uncorrectable => ((d.noteUncorrectable blk ch loc who false).holdLog .rmwFail blk ch loc who false, some .rmwFail)
      | .corrected => (store (d.noteCorrected ch none blk loc who), none)
      | _ => (store d, none)

/-- The runs of bytes, one to a block, that a write from an address splits into (R507). -/
def splitBlocks (a : Nat) (b : Bytes) : List (Nat × Bytes) :=
  (blocksOf a b.length).map fun blk =>
    let lo := max a blk
    (lo, slice b (lo - a) (min (a + b.length) (blk + 64) - lo))

/-- A write of bytes: each block in turn, the first error ending it. -/
def Dev.holdWrite (d : Dev) (a : Nat) (b : Bytes) (who : Page) : Dev × Option HoldErr :=
  (splitBlocks a b).foldl (fun (acc : Dev × Option HoldErr) x =>
    match acc with
    | (d, some e) => (d, some e)
    | (d, none) => d.writeBlock x.1 x.2 who) (d, none)

/-- A write whose error nothing waits for. -/
def Dev.holdStore (d : Dev) (a : Nat) (b : Bytes) (who : Page) : Dev := (d.holdWrite a b who).1

end Sys2Proof.Machine
end

