-- ==== Sys2Proof/Machine/RowFields.lean ====
section
/-!
DEFINITION. The fields of a row of the Berth Table (R139, R237, R267), its classes (R132), its states (R133), and a row as the
table holds it.
-/

namespace Sys2Proof.Machine

/-- The row of zeros. -/
def Row.zero : Row := ⟨List.replicate 64 0, List.replicate 32 0⟩

/-- A field that lies in one word of a row: its byte offset and its bits. -/
structure RowField where
  off : Nat
  hi : Nat
  lo : Nat
  deriving DecidableEq, Repr

/-- The value of a field of a row. -/
def Row.get (r : Row) (f : RowField) : Nat := wfld r.words (f.off / 4) f.hi f.lo

/-- A row with a field set. -/
def Row.set (r : Row) (f : RowField) (v : Nat) : Row := { r with words := putWfld r.words (f.off / 4) f.hi f.lo v }

/-- A row with a counter field advanced by `k`, wrapping. -/
def Row.bump (r : Row) (f : RowField) (k : Nat := 1) : Row := r.set f (r.get f + k)

/-- The bytes of a row from an offset on. -/
def Row.bytes (r : Row) (off n : Nat) : Bytes := bytesOfWords (slice r.words (off / 4) (n / 4))

/-- A row with bytes from an offset on replaced, a whole number of words. -/
def Row.setBytes (r : Row) (off : Nat) (b : Bytes) : Row :=
  { r with words := splice r.words (off / 4) (wordsOf (b.length / 4) b) }

namespace RowF
/-! Line 0 -/
def TENANT : RowField := ⟨0x00, 5, 0⟩
def CLASS : RowField := ⟨0x00, 10, 8⟩
def STATE : RowField := ⟨0x00, 14, 12⟩
def PINNED : RowField := ⟨0x00, 15, 15⟩
def QUAY : RowField := ⟨0x00, 17, 16⟩
def LPORT : RowField := ⟨0x00, 21, 18⟩
def AFFINITY : RowField := ⟨0x00, 25, 22⟩
def IPV6 : RowField := ⟨0x00, 26, 26⟩
def VLAN_EN : RowField := ⟨0x00, 27, 27⟩
def BASIN : RowField := ⟨0x04, 11, 0⟩
def VLAN_ID : RowField := ⟨0x04, 27, 16⟩
def PCP : RowField := ⟨0x04, 30, 28⟩
def LOCAL_PORT : RowField := ⟨0x08, 15, 0⟩
def REMOTE_PORT : RowField := ⟨0x08, 31, 16⟩
def RX_SSRC : RowField := ⟨0x0C, 31, 0⟩
def TX_SSRC : RowField := ⟨0x10, 31, 0⟩
def FAN_LIST : RowField := ⟨0x14, 15, 0⟩
def POLICER : RowField := ⟨0x14, 31, 16⟩
def TALLY_SUB : RowField := ⟨0x28, 17, 0⟩
def TALLY_SVC : RowField := ⟨0x28, 22, 20⟩
def LOCAL_ADDR : RowField := ⟨0x28, 31, 24⟩
def NEXTHOP : RowField := ⟨0x2C, 15, 0⟩
def RX_QUEUE : RowField := ⟨0x2C, 27, 16⟩
def PIN_SLOT : RowField := ⟨0x30, 17, 0⟩
def GEN : RowField := ⟨0x34, 15, 0⟩
def QCAUSE : RowField := ⟨0x34, 19, 16⟩
/-! Line 1 -/
def TX_ROC : RowField := ⟨0x40, 31, 0⟩
def TX_SEQ : RowField := ⟨0x44, 15, 0⟩
def TX_TWSEQ : RowField := ⟨0x44, 31, 16⟩
def SEQ_OFS : RowField := ⟨0x48, 15, 0⟩
def PID_OFS : RowField := ⟨0x48, 31, 16⟩
def TS_OFS : RowField := ⟨0x4C, 31, 0⟩
def FAN_SLOT_OFS : RowField := ⟨0x50, 31, 0⟩
def LAST_TS : RowField := ⟨0x54, 31, 0⟩
def TX_PKTS : RowField := ⟨0x58, 31, 0⟩
def TX_OCTETS : RowField := ⟨0x5C, 31, 0⟩
def RX_ROC : RowField := ⟨0x60, 31, 0⟩
def RX_HIGH_SEQ : RowField := ⟨0x64, 15, 0⟩
def RX_TWSEQ : RowField := ⟨0x64, 31, 16⟩
def SRTCP_RX_INDEX : RowField := ⟨0x68, 30, 0⟩
def SRTCP_TX_INDEX : RowField := ⟨0x6C, 30, 0⟩
/-! Line 2 -/
def PROFILE : RowField := ⟨0xB0, 7, 0⟩
def KEY_GEN : RowField := ⟨0xB0, 15, 8⟩
def TX_KEY_START_LO : RowField := ⟨0xB4, 31, 0⟩
def TX_KEY_START_HI : RowField := ⟨0xB8, 15, 0⟩
def KEY_TIDE : RowField := ⟨0xBC, 31, 0⟩
/-! Line 3 -/
def EST_BPS : RowField := ⟨0xC0, 31, 0⟩
def LAYER_MASK : RowField := ⟨0xC4, 15, 0⟩
def RUNG : RowField := ⟨0xC4, 23, 16⟩
def ADAPT_FLAGS : RowField := ⟨0xC4, 31, 24⟩
def CONSENT_TIDE : RowField := ⟨0xC8, 31, 0⟩
def RTCP_TIDE : RowField := ⟨0xCC, 31, 0⟩
def RX_PKTS : RowField := ⟨0xD0, 31, 0⟩
def RX_OCTETS : RowField := ⟨0xD4, 31, 0⟩
def RX_LOST : RowField := ⟨0xD8, 31, 0⟩
def AUTH_FAIL : RowField := ⟨0xDC, 15, 0⟩
def REPLAY_DROP : RowField := ⟨0xDC, 31, 16⟩
def POLICE_DROP : RowField := ⟨0xE0, 15, 0⟩
def NACK_RX : RowField := ⟨0xE0, 31, 16⟩
def PLI_TX : RowField := ⟨0xE4, 15, 0⟩
def FIR_TX : RowField := ⟨0xE4, 31, 16⟩
def RR_FRACTION : RowField := ⟨0xE8, 7, 0⟩
def RR_JITTER : RowField := ⟨0xE8, 31, 8⟩
def RTT_US : RowField := ⟨0xEC, 15, 0⟩
def LSR : RowField := ⟨0xF0, 31, 0⟩
def LSR_ARRIVAL : RowField := ⟨0xF4, 31, 0⟩
def KFR_TIDE : RowField := ⟨0xF8, 31, 0⟩
def FIR_SEQ : RowField := ⟨0xFC, 31, 24⟩
def EST_LOST : RowField := ⟨0xFC, 23, 12⟩
def EST_RECV : RowField := ⟨0xFC, 11, 0⟩
end RowF

/-- The classes of R132. -/
def classFwd : Nat := 0
def classXcd : Nat := 1
def classLsn : Nat := 2
def classTrk : Nat := 3
def classEss : Nat := 4
def classHst : Nat := 5

/-- The states of R133. -/
def stFree : Nat := 0
def stOpening : Nat := 1
def stLive : Nat := 2
def stDraining : Nat := 3
def stClosed : Nat := 4
def stQuarantine : Nat := 5

/-- The causes of a quarantine (QCAUSE of R139). -/
def causeCommand : Nat := 1
def causeConsent : Nat := 2
def causeKey : Nat := 3
def causeUe : Nat := 4

/-! ### Access -/

/-- Row `b` of the Berth Table. -/
def Dev.row (d : Dev) (b : Nat) : Row := (assoc? b d.btc.rows).getD Row.zero

/-- A field of row `b`. -/
def Dev.rowGet (d : Dev) (b : Nat) (f : RowField) : Nat := (d.row b).get f

/-- The state of row `b`. -/
def Dev.rowState (d : Dev) (b : Nat) : Nat := d.rowGet b RowF.STATE

end Sys2Proof.Machine
end

