-- ==== Sys2Proof/Machine/Port.lean ====
section
/-!
DEFINITION. Access to queues and logical ports, and the PFC requests that both drive (R125, R158, R159, R169, R174).
-/

namespace Sys2Proof.Machine

/-- The Wharfinger page. -/
def wfgPage : Page := ⟨.wfg, 0⟩

/-- A queue with nothing in it. -/
def Queue.empty (q : Nat) : Queue := ⟨q, List.replicate 8 [], none, [], false⟩

/-- The queue numbered `q`. -/
def Dev.queue (d : Dev) (q : Nat) : Queue := (d.wfg.queues.find? (·.num == q)).getD (Queue.empty q)

/-- The device with a queue replaced. -/
def Dev.setQueue (d : Dev) (x : Queue) : Dev :=
  let below := d.wfg.queues.filter (fun y => decide (y.num < x.num))
  let above := d.wfg.queues.filter (fun y => decide (x.num < y.num))
  let this := if x = Queue.empty x.num then [] else [x]
  { d with wfg := { d.wfg with queues := below ++ this ++ above } }

/-- A port with nothing queued. -/
def Port.idle (l : Nat) : Port := ⟨l, List.replicate 8 [], [], none, none, [], [], 0, 0, false⟩

/-- The logical port `l`. -/
def Dev.port (d : Dev) (l : Nat) : Port := (d.qay.ports.find? (·.lport == l)).getD (Port.idle l)

/-- The device with a port replaced. -/
def Dev.setPort (d : Dev) (x : Port) : Dev :=
  let below := d.qay.ports.filter (fun y => decide (y.lport < x.lport))
  let above := d.qay.ports.filter (fun y => decide (x.lport < y.lport))
  let this := if x = Port.idle x.lport then [] else [x]
  { d with qay := { d.qay with ports := below ++ this ++ above } }

/-- The Quay page of a logical port. -/
def qayPage (l : Nat) : Page := ⟨.qay, l / 4⟩

/-- The index of a logical port's block: its Quay and its electrical lane (R159). -/
def portIx (l : Nat) : List Nat := [l / 4, l % 4]

/-- Whether a logical port exists in its Quay's mode (R158, R159). -/
def Dev.portExists (d : Dev) (l : Nat) : Bool :=
  decide (l < 16) && d.live (qayPage l) &&
  match d.get Reg.qay_MODE [l / 4] with
  | 1 => l % 4 == 0
  | 2 => l % 2 == 0
  | 3 => true
  | _ => false

/-- The rate of a logical port in Gb/s, which is bits per ns (R158). -/
def Dev.portRate (d : Dev) (l : Nat) : Nat :=
  match d.get Reg.qay_MODE [l / 4] with
  | 1 => 400
  | 2 => 200
  | _ => 100

/-- Whether priority `p` of a port is asked into XOFF: by its receive buffer or by a queue (R125, R169). -/
def Dev.xoffWanted (d : Dev) (l p : Nat) : Bool :=
  ((d.port l).rxbXoff && bitAt (d.get Reg.qay_RXB_PFC_MASK (portIx l)) p) ||
  d.wfg.queues.any fun x => x.above && d.flag Reg.wfg_PFC_EN [x.num] &&
    d.get Reg.wfg_PFC_LPORT [x.num] == l && d.get Reg.wfg_PFC_PRIO [x.num] == p

/-- PFC quanta due on a port for a priority, replacing what was due for it. -/
def Port.due (x : Port) (p quanta : Nat) : Port :=
  { x with pfcDue := (x.pfcDue.filter fun y => y.1 != p) ++ [(p, quanta)] }

/-- Half a pause time of PFC_QUANTA in ns (R174). -/
def Dev.halfPause (d : Dev) (l : Nat) : Nat := d.get Reg.qay_PFC_QUANTA (portIx l) * 512 / (2 * d.portRate l)

/-- The PFC that a change of requests makes due on a port (R174): quanta for each priority that entered XOFF, zero for each that
left it. While the port may not send PFC (R173) nothing is due. `before` is the device before the change. -/
def Dev.pfcEdge (d before : Dev) (l : Nat) : Dev :=
  let sends := d.flag Reg.qay_PFC_TX_EN (portIx l)
  let x := (List.range 8).foldl (fun x p =>
    if d.xoffWanted l p && !before.xoffWanted l p then
      { x.due p (d.get Reg.qay_PFC_QUANTA (portIx l)) with
        xoff := x.xoff.filter (fun y => y.1 != p) ++ [(p, d.ns + d.halfPause l)] }
    else if !d.xoffWanted l p && before.xoffWanted l p then { x.due p 0 with xoff := x.xoff.filter fun y => y.1 != p }
    else x) (d.port l)
  d.setPort (if sends then x else { x with pfcDue := [] })

end Sys2Proof.Machine
end

