-- ==== Sys2Proof/Machine/Queue.lean ====
section
/-!
DEFINITION. Spill queues (R120–R125, R129, R130): pushing and popping items, shares, watermarks and commands.
-/

namespace Sys2Proof.Machine

/-- The Berth field value that names no row (R96). -/
def noBerth : Nat := 0x3FFFFFF

/-- The lane of an item: PRIO (R120). -/
def Item.prio (i : Item) : Nat := wfld i.words 0 31 29

/-- Whether an item is the first of its packet. -/
def Item.first (i : Item) : Bool := wfld i.words 0 28 28 == 1

/-- Whether an item is the last of its packet. -/
def Item.last (i : Item) : Bool := wfld i.words 0 27 27 == 1

/-- TYPE of an item (R120). -/
def Item.type (i : Item) : Nat := wfld i.words 0 26 24

/-- LENGTH of an item. -/
def Item.length (i : Item) : Nat := wfld i.words 0 15 0

/-- The data address of an item. -/
def Item.addr (i : Item) : Nat := wfld i.words 1 31 0 + 2 ^ 32 * wfld i.words 2 7 0

/-- BERTH of an item. -/
def Item.berth (i : Item) : Nat := wfld i.words 3 25 0

/-- META words 6 and 7 of an item. -/
def Item.meta6 (i : Item) : Nat := wfld i.words 6 31 0
/-- META word 7 of an item. -/
def Item.meta7 (i : Item) : Nat := wfld i.words 7 31 0

/-- An item of one packet whose data lie in an entry of the packet buffer. -/
def packetItem (prio : Nat) (type : Nat) (berth m6 m7 : Nat) (data : Bytes) (entry : Option (Nat × Nat)) : Item :=
  { words := [BitVec.ofNat 32 (prio * 2 ^ 29 + 0x18000000 + type * 2 ^ 24 + data.length % 65536),
      (entry.map fun (e : Nat × Nat) => (Config.bufferAddress e.1).setWidth 32).getD 0, 0x100,
      BitVec.ofNat 32 (berth % 2 ^ 26), 0, 0, BitVec.ofNat 32 m6, BitVec.ofNat 32 m7]
    data := data
    entry := entry }

/-- An item of one packet that names bytes in Hold. -/
def holdItem (prio type len addr berth m6 m7 : Nat) : Item :=
  { words := [BitVec.ofNat 32 (prio * 2 ^ 29 + 0x18000000 + type * 2 ^ 24 + len % 65536),
      BitVec.ofNat 32 addr, BitVec.ofNat 32 (addr / 2 ^ 32 % 256),
      BitVec.ofNat 32 (berth % 2 ^ 26), 0, 0, BitVec.ofNat 32 m6, BitVec.ofNat 32 m7] }

/-- An item stamped with the Tide and phase of its enqueue; a completion item keeps its own words (R120). -/
def Item.stamped (i : Item) (tide phase : Nat) : Item :=
  if i.type = 1 then i
  else { i with words := (i.words.set 4 (BitVec.ofNat 32 tide)).set 5 (BitVec.ofNat 32 (phase % 2 ^ 21)) }

/-! ### Queues -/

/-- Items present: QDEPTH. -/
def Queue.depth (x : Queue) : Nat := (x.lanes.map List.length).sum

/-- The items of the open share. -/
def Queue.openUse (x : Queue) : Nat := (x.lanes.map fun l => (l.filter (·.opn)).length).sum

/-- Every item that the device holds: queued, with a producer that waits, with an operation or held for its flow, or in an
assembler. -/
def Dev.items (d : Dev) : List Item :=
  (d.wfg.queues.flatMap fun x => x.lanes.flatMap id) ++ d.wfg.stalled.map (·.item) ++
    (d.wfg.slots.flatMap fun s => (s.inst.map fun (i : Inst) => i.taken ++ i.outs).getD []) ++
    (d.wfg.flows.flatMap fun f => f.held.flatMap fun h => h.compl :: h.items) ++
    d.dec.asms.flatMap fun a => a.pkts.map (·.item)

/-- The entries of the packet buffer in use, each with its length: a frame stays there until the last item that references it is
gone, and items of one frame share its entry (R225). -/
def Dev.bufEntries (d : Dev) : List (Nat × Nat) := (d.items.filterMap (·.entry)).eraseDups

/-- Whether the packet buffer of 64 MiB can hold `n` bytes more (R45, R226). -/
def Dev.bufRoom (d : Dev) (n : Nat) : Bool := decide ((d.bufEntries.map (·.2)).sum + n ≤ 67108864)

/-- Whether an admission holds a slot (R99). -/
def Slot.admitted (s : Slot) : Bool :=
  match s.owner with
  | .adm _ => true
  | .tenant _ => false

/-- The reserved share of a queue: what live slots reserve in it, and QEGRESS_RESERVE (R124). -/
def Dev.queueReserved (d : Dev) (q : Nat) : Nat :=
  ((d.wfg.slots.filter fun s => s.admitted && !s.detached).map fun s =>
    (if Desc.inQueue s.desc = some q then Desc.inReserve s.desc else 0) +
    (if Desc.outQueue s.desc = some q then Desc.outReserve s.desc else 0)).sum +
  32 * d.get Reg.wfg_QEGRESS_RESERVE [q]

/-- The space an instance keeps in a share of its OUT_QUEUE (R108, R113). -/
def Inst.kept (i : Inst) (opn : Bool) : Nat :=
  (if i.claimOpn == opn then i.claim else 0) + (i.outs.filter (·.opn == opn)).length

/-- The space a slot keeps in a share of its OUT_QUEUE: its instance's, and that of the frame its assembler is at. -/
def Dev.slotKept (d : Dev) (s : Slot) (opn : Bool) : Nat :=
  (s.inst.map fun (i : Inst) => i.kept opn).getD 0 +
  (if d.dec.asms.any fun a => a.order == s.order && a.claim == some opn then outItems s.desc else 0)

/-- The space of a share of a queue that is kept for instances that run, and for those held for their flow (R108, R113). -/
def Dev.kept (d : Dev) (q : Nat) (opn : Bool) : Nat :=
  ((d.wfg.slots.filter fun s => Desc.outQueue s.desc == some q).map fun s => d.slotKept s opn).sum +
  ((d.wfg.flows.flatMap fun f => f.held.filter fun h => h.claimed && h.outQueue == q).map fun h =>
    (h.items.filter (·.opn == opn)).length).sum

/-- Whether a queue holds `k` items more than it does and keeps space for, and no more than QSPILL_SIZE (R122). -/
def Dev.sizeRoom (d : Dev) (q k : Nat) : Bool :=
  decide ((d.queue q).depth + d.kept q true + d.kept q false + k ≤ d.get Reg.wfg_QSPILL_SIZE [q])

/-- Whether the open share of a queue has room for `k` more items (R124). -/
def Dev.openRoom (d : Dev) (q k : Nat) : Bool :=
  decide ((d.queue q).openUse + d.kept q true + k + d.queueReserved q ≤ d.get Reg.wfg_QSPILL_SIZE [q]) && d.sizeRoom q k

/-- Whether the reserved share of a queue has room for `k` more items (R124). -/
def Dev.reservedRoom (d : Dev) (q : Nat) (k : Nat := 1) : Bool :=
  decide ((d.queue q).depth - (d.queue q).openUse + d.kept q false + k ≤ d.queueReserved q) && d.sizeRoom q k

/-- The space in OUT_QUEUE that an operation is to have before it takes input (R108): how much, and whether in the open
share. A disabled or host-bound queue never makes it wait (R124); none where there is no room. -/
def Dev.outSpace (d : Dev) (s : Slot) : Option (Nat × Bool) :=
  match Desc.outQueue s.desc with
  | none => some (0, true)
  | some q =>
    let n := outItems s.desc
    if n = 0 ∨ !d.flag Reg.wfg_Q_EN [q] then some (0, true)
    else if s.admitted ∧ d.reservedRoom q n then some (n, false)
    else if d.openRoom q n then some (n, true)
    else if d.flag Reg.wfg_Q_HOST_BOUND [q] then some (0, true)
    else none

/-- Items dropped by a queue, counted in QDROP with its events (R124, R131, R602). -/
def Dev.queueDropped (d : Dev) (q k : Nat) : Dev :=
  if k = 0 then d
  else (d.countRaise wfgPage 2 Reg.wfg_QDROP [q] k).raiseTenant (d.get Reg.wfg_Q_TENANT [q]) 7

/-- A queue enters or leaves ABOVE_HIGH, and the PFC it drives is asked for or ended (R125, R174). -/
def Dev.setAbove (d : Dev) (q : Nat) (up : Bool) : Dev :=
  let d' := d.setQueue { d.queue q with above := up }
  if d.flag Reg.wfg_PFC_EN [q] then d'.pfcEdge d (d.get Reg.wfg_PFC_LPORT [q]) else d'

/-- The watermark state of a queue after its depth changed (R125). -/
def Dev.watermark (d : Dev) (q : Nat) : Dev :=
  let x := d.queue q
  let high := 32 * d.get Reg.wfg_HIGH_WM [q]
  let low := 32 * d.get Reg.wfg_LOW_WM [q]
  if high = 0 then (if x.above then d.setAbove q false else d)
  else if !x.above && decide (high < x.depth) then
    ((d.setAbove q true).raise wfgPage 1).raiseTenant (d.get Reg.wfg_Q_TENANT [q]) 6
  else if x.above && decide (x.depth < low) then d.setAbove q false
  else d

/-- How a producer pushes: from the ingress, into the open share, or into the reserved share while that has room, as booked
producers and those of items past the Bond may (R124). -/
inductive Push where
  | ingress | open_ | booked
  deriving DecidableEq, Repr

/-- What became of a push. -/
inductive Pushed where
  | stored | dropped | full
  deriving DecidableEq, Repr

/-- An item put into its lane, whatever room there is (R113). -/
def Dev.store (d : Dev) (q : Nat) (i : Item) (opn : Bool) : Dev :=
  let x := d.queue q
  let i := { i.stamped (d.tide % 2 ^ 32) d.phase with opn := opn }
  let l := min i.prio 7
  if x.dropping.contains l then
    let d := d.queueDropped q 1
    if i.last then d.setQueue { x with dropping := x.dropping.filter (· != l) } else d
  else (d.setQueue { x with lanes := x.lanes.set l (x.lanes.getD l [] ++ [i]) }).watermark q

/-- A push (R124): a disabled queue drops the item; a booked producer uses the reserved share and then the open
one; a full open share tail-drops on a host-bound queue and is reported `full` otherwise. -/
def Dev.push (d : Dev) (q : Nat) (i : Item) (how : Push := .open_) : Dev × Pushed :=
  if !d.flag Reg.wfg_Q_EN [q] then (d.queueDropped q 1, .dropped)
  else if how = .booked ∧ d.reservedRoom q then (d.store q i false, .stored)
  else if d.openRoom q 1 then (d.store q i true, .stored)
  else if d.flag Reg.wfg_Q_HOST_BOUND [q] then (d.queueDropped q 1, .dropped)
  else (d, .full)

/-- An item for which space is kept enters its queue (R113); a queue that has been disabled drops it (R124). -/
def Dev.putKept (d : Dev) (q : Nat) (i : Item) : Dev :=
  if d.flag Reg.wfg_Q_EN [q] then d.store q i i.opn else d.queueDropped q 1

/-- A push whose producer stalls on a full share: the item waits at the queue, behind those that wait for the same share
(R124). -/
def Dev.pushWait (d : Dev) (q : Nat) (i : Item) (how : Push := .open_) (frees : Option Nat := none) : Dev :=
  let wait : Dev → Dev := fun d =>
    { d with wfg := { d.wfg with stalled := d.wfg.stalled ++ [⟨q, i, how == .booked, frees⟩] } }
  if d.wfg.stalled.any fun s => s.queue == q && s.egress == (how == .booked) then wait d
  else
    match d.push q i how with
    | (d, .full) => wait d
    | (d, _) =>
      match frees with
      | some o => { d with wfg := { d.wfg with slots := d.wfg.slots.filter fun x => x.order != o } }
      | none => d

/-- The lane the read side sees (R121): the one it is inside a packet of, else the highest that is not empty. -/
def Queue.readLane (x : Queue) : Option Nat :=
  match x.reading with
  | some l => some l
  | none => [7, 6, 5, 4, 3, 2, 1, 0].find? fun l => !(x.lanes.getD l []).isEmpty

/-- The head item of a queue, if its read lane holds one. -/
def Dev.peek (d : Dev) (q : Nat) : Option Item :=
  match (d.queue q).readLane with
  | some l => ((d.queue q).lanes.getD l []).head?
  | none => none

/-- Whether a stalled producer's push would no longer find its share full. -/
def Dev.canPush (d : Dev) (s : Stalled) : Bool :=
  match d.push s.queue s.item (if s.egress then .booked else .open_) with
  | (_, .full) => false
  | _ => true

/-- The producers stalled at a queue push, oldest first of those that find room (R124). -/
def Dev.unstall (d : Dev) (q : Nat) : Nat → Dev
  | 0 => d
  | n + 1 =>
    match d.wfg.stalled.find? fun s => s.queue == q && d.canPush s with
    | none => d
    | some s =>
      match d.push q s.item (if s.egress then .booked else .open_) with
      | (_, .full) => d
      | (d, _) =>
        let slots := match s.frees with
          | some o => d.wfg.slots.filter fun x => x.order != o
          | none => d.wfg.slots
        ({ d with wfg := { d.wfg with stalled := d.wfg.stalled.erase s, slots := slots } }).unstall q n

/-- A pop: the head of the lane the read side sees, and the packet it is inside of from then on (R121). -/
def Dev.pop (d : Dev) (q : Nat) : Dev × Option Item :=
  let x := d.queue q
  match x.readLane with
  | none => (d, none)
  | some l =>
    match x.lanes.getD l [] with
    | [] => (d, none)
    | i :: t =>
      let reading := if i.last then none else if i.first then some l else x.reading
      ((d.setQueue { x with lanes := x.lanes.set l t, reading := reading }).watermark q, some i)

/-- A pop, and room it makes given to the producers stalled at the queue. -/
def Dev.takeHead (d : Dev) (q : Nat) : Dev × Option Item :=
  match d.pop q with
  | (d, none) => (d, none)
  | (d, some i) => (d.unstall q 1, some i)

/-- Whether an item, other than a completion, refers to a CLOSED row (R137). -/
def Dev.closedItem (d : Dev) (i : Item) : Bool :=
  i.type != 1 && decide (i.berth < d.rowCount) && d.rowState i.berth == stClosed

/-- The items at the head of a queue that refer to CLOSED rows are dropped at their consumer, and counted in QDROP (R137; the
counter is DEDUCED, log entry 141). -/
def Dev.dropClosed (d : Dev) (q : Nat) : Nat → Dev
  | 0 => d
  | n + 1 =>
    match d.peek q with
    | some i => if d.closedItem i then ((d.takeHead q).1.queueDropped q 1).dropClosed q n else d
    | none => d

/-- What a consumer takes: the first item whose row is not CLOSED. -/
def Dev.take (d : Dev) (q : Nat) : Dev × Option Item := (d.dropClosed q (d.queue q).depth).takeHead q

/-- The items of a packet: pops until one with LAST. -/
def Dev.takePacket (d : Dev) (q : Nat) : Nat → Dev × List Item
  | 0 => (d, [])
  | n + 1 =>
    match d.take q with
    | (d, none) => (d, [])
    | (d, some i) => if i.last then (d, [i]) else let (d, r) := d.takePacket q n; (d, i :: r)

/-! ### Queue commands (R123, R129) -/

/-- DROP_REST with lane p (R123). -/
def Dev.dropRest (d : Dev) (q p : Nat) : Dev :=
  let x := d.queue q
  let lane := x.lanes.getD p []
  let gone := lane.takeWhile (fun i => !i.last)
  let midPacket := x.reading == some p || (match lane with | i :: _ => !i.first | [] => false)
  if lane.isEmpty && !midPacket then d
  else if gone.length < lane.length then
    let x := { x with lanes := x.lanes.set p (lane.drop (gone.length + 1)),
                      reading := if x.reading == some p then none else x.reading }
    (((d.setQueue x).watermark q).queueDropped q (gone.length + 1)).unstall q (gone.length + 1)
  else
    let x := { x with lanes := x.lanes.set p [], reading := if x.reading == some p then none else x.reading,
                      dropping := if x.dropping.contains p then x.dropping else p :: x.dropping }
    (((d.setQueue x).watermark q).queueDropped q gone.length).unstall q gone.length

/-- FLUSH: every item is discarded and counted in QDROP. -/
def Dev.flushQueue (d : Dev) (q : Nat) : Dev :=
  let x := d.queue q
  let n := x.depth
  (((d.setQueue { x with lanes := List.replicate 8 [], reading := none }).watermark q).queueDropped q n).unstall q n

/-- CLEAR_DROP clears QDROP. -/
def Dev.clearDrop (d : Dev) (q : Nat) : Dev := d.set Reg.wfg_QDROP 0 [q]

/-- A producer stalled on a queue pushes once room appears (R124). -/
def Dev.stallResume (d : Dev) (q : Nat) : Dev := d.unstall q d.wfg.stalled.length

end Sys2Proof.Machine
end

