-- ==== Sys2Proof/Machine/Wharf.lean ====
section
/-!
DEFINITION. Operation slots, descriptors, ordered flows and the ending of instances (R96, R99–R101, R109–R113).
-/

namespace Sys2Proof.Machine

/-! ### Slots -/

/-- Whether an instance has started and not ended. -/
def Inst.onEngine (i : Inst) : Bool := i.state == .running || i.state == .preempted

/-- The slot numbered `n`: the one whose instance has started, if two carry the number. -/
def Dev.slot? (d : Dev) (n : Nat) : Option Slot :=
  (d.wfg.slots.find? fun s => s.num == n && s.detached).orElse fun _ => d.wfg.slots.find? (·.num == n)

/-- The device with a slot replaced. -/
def Dev.setSlot (d : Dev) (x : Slot) : Dev :=
  { d with wfg := { d.wfg with slots := d.wfg.slots.map fun s => if s.order = x.order then x else s } }

/-- The device without a slot. -/
def Dev.dropSlot (d : Dev) (order : Nat) : Dev :=
  { d with wfg := { d.wfg with slots := d.wfg.slots.filter fun s => s.order != order } }

/-- The instances that live. -/
def Dev.instances (d : Dev) : List (Slot × Inst) := d.wfg.slots.filterMap fun s => s.inst.map fun i => (s, i)

/-- The instance that runs on an engine. -/
def Dev.runningOn (d : Dev) (u : UnitId) : Option (Slot × Inst) :=
  d.instances.find? fun x => x.2.state == .running && x.2.engine == some u

/-- Slots, and the 64 of them reserved for management (R99). -/
def slotCount : Nat := 32768
def isReservedSlot (n : Nat) : Bool := decide (slotCount - 64 ≤ n)

/-- General slots that unbooked operations occupy: UNBOOKED_USE. -/
def Dev.unbookedUse (d : Dev) : Nat :=
  (d.wfg.slots.filter fun s => !s.admitted && !isReservedSlot s.num).length

/-- Slots that admissions hold. -/
def Dev.heldSlots (d : Dev) : Nat := (d.wfg.slots.filter fun s => s.admitted && !s.detached).length

/-- The first number in a span from the `n`-th on, going round, that is not used; `k` numbers are tried. -/
def probe (used : List Nat) (base span : Nat) : Nat → Nat → Option Nat
  | 0, _ => none
  | k + 1, n => if used.contains (base + n % span) then probe used base span k (n + 1) else some (base + n % span)

/-- The numbers of the slots that are not free (R99). -/
def Dev.usedSlots (d : Dev) : List Nat := (d.wfg.slots.filter fun s => !s.detached).map (·.num)

/-- General slots that are neither held nor occupied (R100). -/
def Dev.freeGeneral (d : Dev) : Nat := slotCount - 64 - (d.usedSlots.filter fun n => !isReservedSlot n).length

/-- `k` general slot numbers that nothing holds; which of the free ones, the spec leaves open (`n`). -/
def Dev.generalSlots (d : Dev) (n k : Nat) : List Nat :=
  let used := d.usedSlots
  (List.range k).foldl (fun l _ =>
    match probe (used ++ l) 0 (slotCount - 64) (min (slotCount - 64) (used.length + l.length + 1)) n with
    | some x => l ++ [x]
    | none => l) []

/-- A reserved slot number that nothing holds (R99). -/
def Dev.reservedSlot (d : Dev) (n : Nat) : Option Nat := probe d.usedSlots (slotCount - 64) 64 64 n

/-! ### Flows (R110–R113) -/

/-- A live flow. -/
def Dev.flow? (d : Dev) (id : Nat) : Option Flow := d.wfg.flows.find? (·.id == id)

/-- The device with a flow replaced. -/
def Dev.setFlow (d : Dev) (f : Flow) : Dev :=
  { d with wfg := { d.wfg with flows := d.wfg.flows.map fun x => if x.id = f.id then f else x } }

/-- How far a sequence number lies past the number expected. -/
def seqAhead (next seq : Nat) : Nat := (seq + 65536 - next % 65536) % 65536

/-- The flow that a slot's instances pass through. -/
def Dev.flowOf (d : Dev) (s : Slot) : Option Flow :=
  if Desc.ordered s.desc then (d.flow? (Desc.flowId s.desc)).filter (·.owner == s.owner) else none

/-- What an ended instance hands over: its items into OUT_QUEUE, where space is kept for them if it could be, then its
completion item; an unbooked slot is freed with it (R101, R113). -/
def Dev.handOver (d : Dev) (h : HeldInst) : Dev :=
  let how : Push := if h.booked then .booked else .open_
  let d := h.items.foldl (fun d i => if h.claimed then d.putKept h.outQueue i else d.pushWait h.outQueue i how) d
  let frees := if h.booked then none else some h.order
  match h.complQueue with
  | some q => d.pushWait q h.compl how frees
  | none => if h.booked then d else d.dropSlot h.order

/-- A flow of a tenant stops being live once nothing of it is ready, running or held (R110). -/
def Dev.flowIdle (d : Dev) (id : Nat) : Dev :=
  match d.flow? id with
  | none => d
  | some f =>
    let mine := fun (s : Slot) => Desc.ordered s.desc && Desc.flowId s.desc == id && s.owner == f.owner
    let gone := fun (d : Dev) => { d with wfg := { d.wfg with flows := d.wfg.flows.filter (·.id != id) } }
    match f.owner with
    | .tenant _ => if f.held.isEmpty && !(d.wfg.slots.any mine) then gone d else d
    | .adm _ =>
      if f.ending && !(d.wfg.slots.any fun s => mine s && s.inst.isSome) then
        let order := sortBy (fun (a b : HeldInst) => decide (seqAhead f.next a.seq ≤ seqAhead f.next b.seq)) f.held
        order.foldl Dev.handOver (gone d)
      else d

/-- Held instances with consecutive numbers from N on are released (R111). -/
def Dev.advance (d : Dev) (id : Nat) : Nat → Dev
  | 0 => d
  | k + 1 =>
    match d.flow? id with
    | none => d
    | some f =>
      match f.held.find? (·.seq == f.next) with
      | none => d
      | some h =>
        let f := { f with next := (f.next + 1) % 65536, held := f.held.erase h }
        ((d.setFlow f).handOver h).advance id k

/-- An ended instance passes through its flow (R111, R112): released with number N, held otherwise. -/
def Dev.passFlow (d : Dev) (f : Flow) (h : HeldInst) : Dev :=
  if h.seq = f.next then
    let d := (d.setFlow { f with next := (f.next + 1) % 65536 }).handOver h
    (d.advance f.id 65536).flowIdle f.id
  else
    let d := d.setFlow { f with held := f.held ++ [h] }
    let d := if f.held.length + 1 = 256 then d.raise wfgPage 5 else d
    d.flowIdle f.id

/-- FLOW_SKIP (R112, R129): N takes the number given, and held instances below it are released in order. -/
def Dev.flowSkip (d : Dev) (id seq : Nat) : Dev :=
  let d := { d with wfg := { d.wfg with flowSel := id } }
  match d.flow? id with
  | none => d
  | some f =>
    let span := seqAhead f.next seq
    let below := sortBy (fun (a b : HeldInst) => decide (seqAhead f.next a.seq ≤ seqAhead f.next b.seq))
      (f.held.filter fun h => decide (seqAhead f.next h.seq < span))
    let rest := f.held.filter fun h => !decide (seqAhead f.next h.seq < span)
    let d := d.setFlow { f with next := seq % 65536, held := rest }
    ((below.foldl Dev.handOver d).advance id 65536).flowIdle id

/-! ### The end of an instance (R109) -/

/-- The completion item of an instance. -/
def Dev.complItem (d : Dev) (s : Slot) (i : Inst) (st : Status) : Item :=
  let w := s.desc
  let handle := match s.owner with
    | .adm h => h
    | .tenant _ => 0
  { words := [BitVec.ofNat 32 (Desc.complPrio w * 2 ^ 29 + 0x19000000), BitVec.ofNat 32 (s.num * 65536 + Desc.tag w),
      BitVec.ofNat 32 (Desc.kind w * 4096 + st.code), BitVec.ofNat 32 handle, BitVec.ofNat 32 d.tide,
      BitVec.ofNat 32 (d.phase % 2 ^ 21), BitVec.ofNat 32 (Desc.flowId w * 65536 + i.seq), BitVec.ofNat 32 i.count] }

/-- The completion of an instance, its status and the picture it made, is noted at the operations of its admission that
name it (R72). -/
def Dev.notePreds (d : Dev) (s : Slot) (st : Status) (pic : Nat) : Dev :=
  let idx := Desc.opIndex s.desc
  let upd := fun (x : Slot) =>
    if x.admitted && x.owner == s.owner && (Desc.preds x.desc).contains idx then
      { x with predsDone := assocSet idx ((assoc? idx x.predsDone).getD [] ++ [(st.code, pic)]) x.predsDone }
    else x
  if s.admitted && !s.detached then { d with wfg := { d.wfg with slots := d.wfg.slots.map upd } } else d

/-- Whether a status is a FAILED code or CANCELLED, with which no output items are released (R112). -/
def Status.barren (s : Status) : Bool := decide (0x10 ≤ s.code)

/-- An instance ends (R109): its status is counted, its completion and its items go through its flow, its slot
waits for the next instance, or is freed. -/
def Dev.endInst (d : Dev) (s : Slot) (st : Status) (items : List Item) (pic : Nat := 0) : Dev :=
  match s.inst with
  | none => d
  | some i =>
    let made := i.outs ++ items.map fun (x : Item) => { x with opn := i.claimOpn }
    let h : HeldInst := ⟨s.num, s.order, i.seq, s.admitted, (Desc.outQueue s.desc).getD 0, i.claim != 0 || !i.outs.isEmpty,
      if st.barren || (Desc.outQueue s.desc).isNone then [] else made, Desc.complQueue s.desc, d.complItem s i st⟩
    let d := d.bump Reg.wfg_STATUS_COUNT [st.code]
    let flow := d.flowOf s
    let d := if s.detached then d.dropSlot s.order else d.setSlot { s with inst := none, ended := true }
    let d := d.notePreds s st pic
    match flow with
    | some f => d.passFlow f h
    | none => d.handOver h

end Sys2Proof.Machine
end

