-- ==== Sys2Proof/Machine/Mixer.lean ====
section
/-!
DEFINITION. The Abacus at work (chapter 10): taking blocks, accumulation, output, levels, talker selection.
-/

namespace Sys2Proof.Machine

/-- The Abacus page. -/
def abxPage : Page := ⟨.abx, 0⟩

/-- A mix as it stands; one never set is at its defaults. -/
def Dev.mix (d : Dev) (m : Nat) : Mix := (assoc? m d.abx.mixes).getD {}

/-- An input, if its record was set. -/
def Dev.input? (d : Dev) (i : Nat) : Option Input := assoc? i d.abx.inputs

/-- The device with a mix, an input, a Basin or an entry replaced. -/
def Dev.setMix (d : Dev) (m : Nat) (x : Mix) : Dev := { d with abx := { d.abx with mixes := assocSet m x d.abx.mixes } }
def Dev.setInput (d : Dev) (i : Nat) (x : Input) : Dev := { d with abx := { d.abx with inputs := assocSet i x d.abx.inputs } }
def Dev.setBasin (d : Dev) (b : Nat) (x : Basin) : Dev := { d with abx := { d.abx with basins := assocSet b x d.abx.basins } }
def Dev.setEntry (d : Dev) (k : Nat) (x : Entry) : Dev := { d with abx := { d.abx with entries := assocSet k x d.abx.entries } }
def Dev.dropEntry (d : Dev) (k : Nat) : Dev := { d with abx := { d.abx with entries := assocDel k d.abx.entries } }

/-! ### Records (R321, R322, R352) -/

/-- SRC_KIND, SRC_INDEX, BASIN, TALK_ELIG and DRESS of an input. -/
def Input.kind (x : Input) : Nat := wfld x.args 0 2 0
def Input.index (x : Input) : Nat := wfld x.args 0 28 16
def Input.basin (x : Input) : Nat := wfld x.args 1 11 0
def Input.elig (x : Input) : Bool := wfld x.args 1 16 16 == 1
def Input.path (x : Input) : Option Nat := if wfld x.args 2 9 0 = 0x3FF then none else some (wfld x.args 2 9 0)

/-- BASIN, COMPAT, LIM_EN, DEST_KIND, DEST_INDEX, MIX_GAIN, LIM_THRESH, REL_COEF and COMPAT_RAMP of a mix. -/
def Mix.word (x : Mix) (i : Nat) : Word := wordAt (x.args.getD []) i
def Mix.basin (x : Mix) : Option Nat := x.args.map fun w => wfld w 0 11 0
def Mix.compat (x : Mix) : Bool := Word.fld (x.word 0) 16 16 == 1
def Mix.limEn (x : Mix) : Bool := Word.fld (x.word 0) 17 17 == 1
def Mix.destKind (x : Mix) : Nat := Word.fld (x.word 0) 21 20
def Mix.destIndex (x : Mix) : Nat := Word.fld (x.word 0) 31 22
def Mix.gain (x : Mix) : Nat := Word.fld (x.word 1) 16 0
def Mix.thresh (x : Mix) : Nat := Word.fld (x.word 2) 23 0
def Mix.relCoef (x : Mix) : Nat := Word.fld (x.word 3) 31 16
def Mix.compatRamp (x : Mix) : Nat := clampN 1 64 (Word.fld (x.word 3) 14 8)

/-- The tenant a Basin belongs to, if a BASIN_SET defined it. -/
def Dev.basinTenant (d : Dev) (b : Nat) : Option Nat := (assoc? b d.abx.basins).map (·.tenant)

/-- The tenant of a mix and of an input, by their Basins. -/
def Dev.mixTenant (d : Dev) (m : Nat) : Option Nat := (d.mix m).basin.bind d.basinTenant
def Dev.inputTenant (d : Dev) (i : Nat) : Option Nat := (d.input? i).bind fun x => d.basinTenant x.basin

/-- The slot of the live admission that holds a mix number. -/
def Dev.mixSlot (d : Dev) (m : Nat) : Option Slot :=
  d.wfg.slots.find? fun s => s.admitted && !s.detached && Desc.kind s.desc == opMIX && wfld s.desc 10 28 16 == m

/-- The contributors a mix was admitted with; 64 where it is not admitted (R329). -/
def Dev.contributors (d : Dev) (m : Nat) : Nat :=
  match d.mixSlot m with
  | some s => wfld s.desc 10 6 0
  | none => 64

/-- The entries of a mix that are in use, with their numbers. -/
def Dev.entriesOf (d : Dev) (m : Nat) : List (Nat × Entry) :=
  d.abx.entries.filterMap fun x => if x.1 / 64 = m then some (x.1 % 64, x.2) else none

/-! ### Input blocks (R323–R325) -/

/-- The block that is being written into a slot of an input's ring: what stands there until its first word is written. -/
def Input.filling (x : Input) (slot : Nat) : List Word :=
  ((assoc? slot x.fill).orElse fun _ => assoc? slot x.ring).getD (List.replicate 64 0)

/-- A word written to the input memory of an input with SRC_KIND 0x1. Word 48 ends a block and labels it: one that is late or
early is discarded whole and counted (R324). -/
def Dev.abxWriteWord (d : Dev) (i slot n : Nat) (w : Word) : Dev :=
  match d.input? i with
  | none => d
  | some x =>
    if x.kind ≠ 1 then d
    else
      let block := (x.filling slot).set n w
      if n ≠ 48 then d.setInput i { x with fill := assocSet slot block x.fill }
      else
        let ahead := seqDiff 32 w.toNat (d.tide % 2 ^ 32)
        let x := { x with fill := assocDel slot x.fill }
        if ahead < 0 then (d.setInput i x).countRaise abxPage 2 Reg.abx_IN_LATE
        else if 2 ≤ ahead then (d.setInput i x).countRaise abxPage 2 Reg.abx_IN_EARLY
        else d.setInput i { x with ring := assocSet slot block x.ring }

/-- Words written by Reckoner DMA to the input memory from a byte address on (R323). -/
def Dev.abxWrite (d : Dev) (addr : Nat) : List Word → Dev
  | [] => d
  | w :: t => (d.abxWriteWord (addr / 1024) (addr / 256 % 4) (addr / 4 % 64) w).abxWrite (addr + 4) t

/-- Words of the input memory, as a DMA reads them. -/
def Dev.abxRead (d : Dev) (addr n : Nat) : List Word :=
  (List.range n).map fun k =>
    let a := addr + 4 * k
    match d.input? (a / 1024) with
    | some x => wordAt (x.filling (a / 256 % 4)) (a / 4 % 64)
    | none => 0

/-- The output block of a mix for an input Tide, if it is still at hand. -/
def Mix.outAt (x : Mix) (tide : Nat) : List Int := ((x.outs.find? (·.tide == tide)).map (·.samples)).getD silence

/-- The block of input `i` for input Tide `t`, taken at the boundary that ends it (R324, R325); `label` is the
number the Tide had while it ran, and `ext` gives the blocks of APU channels (kind 2) and ESS channels (kind 3). -/
def Dev.takeBlock (d : Dev) (ext : Nat → Nat → List Int) (t label i : Nat) (x : Input) : Dev :=
  match x.kind with
  | 1 =>
    let w := (assoc? (label % 4) x.ring).getD []
    if w ≠ [] ∧ (wordAt w 48).toNat = label % 2 ^ 32 then d.setInput i { x with block := samplesOf w }
    else (d.setInput i { x with block := silence }).countRaise abxPage 1 Reg.abx_IN_MISSING
  | 2 => d.setInput i { x with block := ext 2 x.index }
  | 3 => d.setInput i { x with block := ext 3 x.index }
  | 4 =>
    let y := if (d.mixSlot x.index).isSome ∧ 3 ≤ t then (d.mix x.index).outAt (t - 3) else silence
    d.setInput i { x with block := y }
  | _ => d.setInput i { x with block := silence }

/-- Every input's block for input Tide `t` is taken, while the Abacus is in service. -/
def Dev.takeBlocks (d : Dev) (ext : Nat → Nat → List Int) (t label : Nat) : Dev :=
  if !d.flag Reg.abx_EN then d
  else d.abx.inputs.foldl (fun d x => match d.input? x.1 with
    | some i => d.takeBlock ext t label x.1 i
    | none => d) d

/-! ### Dressed paths (R348–R350) -/

/-- Bytes in a path's delay ring, and where it begins in Hold. -/
def dressRing : Nat := 196608
def Dev.dressBase (d : Dev) (p : Nat) : Nat := d.get Reg.abx_DRESS_DELAY_BASE * 65536 + dressRing * p

/-- 48 samples of a delay ring from a sample position on; bytes that Hold cannot give are free. -/
def Dev.ringRead (d : Dev) (p pos : Nat) : Dev × List Int :=
  let first := min 48 (49152 - pos)
  let part := fun (d : Dev) (a n : Nat) =>
    if n = 0 then (d, []) else
    match d.holdRead (d.dressBase p + 4 * a) (4 * n) abxPage with
    | (d, .ok b) => (d, b)
    | (d, .error _) => d.drawBytes (4 * n)
  let (d, b) := part d pos first
  let (d, c) := part d 0 (48 - first)
  (d, (wordsOf 48 (b ++ c)).map fun w => toSigned 32 w.toNat)

/-- A dressed path; one that no DRESS_SET has set passes its samples on, 24 later. -/
def Dev.path (d : Dev) (p : Nat) : DressPath := (assoc? p d.abx.paths).getD { params := [] }

/-- A block through its dressed path: the samples that enter the accumulation. -/
def Dev.dress (d : Dev) (p : Nat) (block : List Int) : Dev × List Int :=
  let x := d.path p
  let (st, v, sats) := biquadBlock x.params x.stages block
  let win := x.look ++ v
  let (c, env) := compressor x.params 48 win x.env
  let d := d.holdStore (d.dressBase p + 4 * x.pos) (bytesOfWords (c.map fun s => BitVec.ofNat 32 (ofSigned 32 s))) abxPage
  let (d, y) := d.ringRead p ((x.pos + 49152 - wfld x.params 44 15 0) % 49152)
  let out := y.map sat24
  let n := sats + ((y.zip out).filter fun a => a.1 != a.2).length
  let x := { x with stages := st, look := win.drop 48, env := env, pos := (x.pos + 48) % 49152 }
  let d := { d with abx := { d.abx with paths := assocSet p x d.abx.paths } }
  ((if n = 0 then d else d.bump Reg.abx_DRESS_SAT [] n), out)

/-- The samples of input `i` after its path, for the Tide just ended; a dressing lane that faulted in it delivers
silence (R320). -/
def Dev.pathOut (d : Dev) (x : Input) : Dev × List Int :=
  let block := if x.block.isEmpty then silence else x.block
  match x.path with
  | none => (d, block)
  | some p =>
    let (d, y) := d.dress p block
    if d.abx.dressSilent.contains (p / 128) then (d, silence) else (d, y)

/-- Whether an input is muted, by its record or with its dressing lane lost (R320), and since when. -/
def Dev.muteOf (d : Dev) (x : Input) : Bool × Option Nat :=
  match x.path.bind fun p => assoc? (p / 128) d.abx.dressLost with
  | some t => if x.mute then (true, x.muteAt) else (true, some t)
  | none => (x.mute, x.muteAt)

/-! ### Accumulation and output (R331–R336) -/

/-- The factor c[n] of a mix in a Tide (R335). -/
def Mix.cAt (x : Mix) (tide n : Nat) : Nat :=
  if tide < x.cStart then x.c0 else rampAt x.c0 x.c1 (48 * x.cRamp) (48 * (tide - x.cStart) + n)

/-- One sample of one entry: floor(x × g / 65,536), inverted if asked (R331). -/
def Dev.entryTerm (d : Dev) (mix : Mix) (tide n : Nat) (e : Entry) (ins : Nat → List Int) : Int :=
  let m := match d.input? e.input with
    | some i => d.muteOf i
    | none => (false, none)
  let g := muted m.1 m.2 tide n (e.gainAt tide n)
  let g := if mix.compat then g * mix.cAt tide n / 65536 else g
  let p := (ins e.input).getD n 0 * g / 65536
  if e.invert then -p else p

/-- a[n] of a mix in the Tide just ended. -/
def Dev.accumulate (d : Dev) (m tide : Nat) (ins : Nat → List Int) : List Int :=
  let mix := d.mix m
  let es := d.entriesOf m
  (List.range 48).map fun n => (es.map fun e => d.entryTerm mix tide n e.2 ins).sum * mix.gain / 65536

/-- The output stage of a mix (R333, R334): the samples, the limiter's gain, and how many samples were limited
and clipped. -/
def Mix.output (x : Mix) (a ahead : List Int) : List Int × Nat × Nat × Nat :=
  if x.limEn then
    let need := (a ++ padSamples ahead).map (limNeed x.thresh)
    let (y, r, n) := limit x.relCoef a need x.r
    let z := y.map sat24
    (z, r, n, ((y.zip z).filter fun p => p.1 != p.2).length)
  else
    let z := a.map sat24
    (z, x.r, 0, ((a.zip z).filter fun p => p.1 != p.2).length)
where
  /-- The 24 samples of lookahead, zero where the mix is no longer accumulated. -/
  padSamples (l : List Int) : List Int := l.take 24 ++ List.replicate (24 - l.length) 0

/-- An output block delivered into Hold (R326): the item that names it where DEST_KIND is 0x1, and whether Hold took it. -/
def Dev.deliver (d : Dev) (m : Nat) (x : Mix) (t : Nat) (y : List Int) (limited clipped : Bool) : Dev × Option Item × Bool :=
  let addr := d.get Reg.abx_OUT_BASE * 65536 + 1024 * m + 256 * (t % 4)
  let (d, e) := d.holdWrite addr (bytesOfWords (blockWords y t)) abxPage
  let silent := y.all (· == 0)
  let m6 := bitOf silent * 2 ^ 18 + bitOf clipped * 2 ^ 17 + bitOf limited * 2 ^ 16 + m
  (d, if x.destKind = 1 ∧ e.isNone then some (holdItem (Config.itemLane 0x0030 % 8) 0x3 192 addr noBerth m6 t) else none, e.isNone)

/-- The output stage of a mix for an accumulated block, with its record as it stood then (R338) and its lookahead from the
accumulation that followed: the item it makes, and whether Hold took the block. -/
def Dev.putOut (d : Dev) (m : Nat) (acc : AccBlock) (ahead : List Int) : Dev × Option Item × Bool :=
  let now := d.mix m
  let x : Mix := { now with args := acc.args }
  let (y, r, limited, clipped) := if acc.silent then (silence, x.r, 0, 0) else x.output acc.samples ahead
  let d := d.setMix m { now with
    r := r
    acc := none
    outs := ⟨acc.tide, y, acc.args⟩ :: x.outs.take 3
    energies := pushTen x.energies (energy y)
    peaks := pushTen x.peaks (peakOf y)
    gr := if x.limEn then gainReduction r else 0 }
  let d := if limited = 0 then d else d.bump Reg.abx_LIMITED [] limited
  let d := if clipped = 0 then d else d.countRaise abxPage 3 Reg.abx_CLIP [] clipped
  d.deliver m x acc.tide y (limited != 0) (clipped != 0)

/-- The inputs after their paths in the Tide just ended, their levels noted (R345); a muted input's level is that
of silence (R342). -/
def Dev.runPaths (d : Dev) : Dev × List (Nat × List Int) :=
  d.abx.inputs.foldl (fun (d, l) x =>
    match d.input? x.1 with
    | none => (d, l)
    | some i =>
      let (d, y) := d.pathOut i
      let heard := if (d.muteOf i).1 then silence else y
      let i := { i with energies := pushTen i.energies (energy heard), peaks := pushTen i.peaks (peakOf heard) }
      (d.setInput x.1 i, l ++ [(x.1, y)])) (d, [])

/-- The instances of MIX operations that were released for the Tide `tide`, by ascending mix number (R105). -/
def Dev.mixInstances (d : Dev) (tide : Nat) : List (Nat × Slot) :=
  let l := d.wfg.slots.filterMap fun s =>
    match s.inst with
    | some i => if Desc.kind s.desc = opMIX ∧ i.release ≤ tide then some (wfld s.desc 10 28 16, s) else none
    | none => none
  sortBy (fun (a b : Nat × Slot) => decide (a.1 ≤ b.1)) l

/-- The output stage of a mix in the Tide just ended, and the end of its instance in that Tide (R81, R111, R326, R336): the item
goes with the instance of its operation, or by itself where the mix has none any more. -/
def Dev.mixEnds (d : Dev) (insts : List (Nat × Slot)) (news : List (Nat × AccBlock)) (m : Nat) : Dev :=
  let inst := (assoc? m insts).bind fun s => d.wfg.slots.find? (·.order == s.order)
  match (d.mix m).acc with
  | none => match inst with
    | some s => d.endInst s .done []
    | none => d
  | some a =>
    let ahead := match assoc? m news with
      | some b => if b.silent then [] else b.samples
      | none => []
    let (d, item, ok) := d.putOut m a ahead
    let own := inst.any fun s => a.order == some s.order
    let d := match item, a.outQueue with
      | some i, some q => if own then d else d.pushWait q i .booked
      | _, _ => d
    match inst with
    | some s => d.endInst s (if ok then .done else .failedMemoryUe) (if own then item.toList else [])
    | none => d

/-- The Tide `tide` is over (R336): every admitted mix is accumulated for input Tide `tide` − 1, the blocks
accumulated before are put out, and the instances of the Tide end. A mix whose lane faulted in it keeps a silent block (R319). -/
def Dev.abxFinish (d : Dev) (tide : Nat) : Dev :=
  let (d, ins) := d.runPaths
  let src := fun i => (assoc? i ins).getD silence
  let insts := d.mixInstances tide
  let block (m : Nat) (s : Option Slot) (samples : List Int) (silent : Bool) : AccBlock :=
    ⟨tide - 1, samples, silent, s.bind fun s => Desc.outQueue s.desc, s.map (·.order), (d.mix m).args⟩
  let made := insts.map fun x => (x.1, block x.1 (some x.2) (d.accumulate x.1 tide src) false)
  let lost := d.abx.mixes.filterMap fun x => if !x.2.faulted then none else some (x.1, block x.1 (d.mixSlot x.1) [] true)
  let news := lost ++ made.filter fun x => !lost.any fun y => y.1 == x.1
  let waiting := d.abx.mixes.filterMap fun x => if x.2.acc.isSome then some x.1 else none
  let ms := sortBy (fun (a b : Nat) => decide (a ≤ b)) (waiting ++ insts.map (·.1)).eraseDups
  let d := ms.foldl (fun d m => d.mixEnds insts news m) d
  let d := news.foldl (fun d x => d.setMix x.1 { d.mix x.1 with acc := some x.2, faulted := false }) d
  { d with abx := { d.abx with dressSilent := [] } }

/-! ### Automatic scaling (R335) -/

/-- The level of an input, in signed Q8.8 dBFS (R345); a muted one's is −128 dBFS (R342). -/
def Dev.inputLevel (d : Dev) (x : Input) : Int := if (d.muteOf x).1 then -32768 else levelOf x.energies

/-- n of R335 for a mix. -/
def Dev.compatCount (d : Dev) (m : Nat) : Nat :=
  let floor := toSigned 16 (d.get Reg.abx_COMPAT_FLOOR)
  ((d.entriesOf m).filter fun e =>
    e.2.g1 != 0 && match d.input? e.2.input with
      | some i => !(d.muteOf i).1 && decide (floor ≤ d.inputLevel i)
      | none => false).length

/-- The target factor of every mix with COMPAT set, at the boundary that begins `d.tide`. -/
def Dev.compatUpdate (d : Dev) : Dev :=
  d.abx.mixes.foldl (fun d x =>
    let mix := d.mix x.1
    if !mix.compat then d
    else
      let n := d.compatCount x.1
      let c := if n = 0 then 65536 else 65536 / n
      let mix := { mix with active := n }
      if c = mix.c1 then d.setMix x.1 mix
      else
        let now := if d.tide ≤ mix.cStart then mix.c0 else mix.cAt (d.tide - 1) 47
        d.setMix x.1 { mix with c0 := now, c1 := c, cStart := d.tide, cRamp := mix.compatRamp }) d

/-! ### Talker selection (R343–R347) -/

/-- The cross-point entries of slot `j` of a Basin, as 64 × mix + entry: those of every N−1 mix but its own, and
that of the common mix (R343). -/
def Basin.entriesOfSlot (b : Basin) (j : Nat) : List Nat :=
  ((List.range (b.k + 1)).filter (· != j)).map fun m => 64 * (b.mixBase + m) + j

/-- Every talker entry of a Basin. -/
def Basin.entries (b : Basin) : List Nat := if b.k = 0 then [] else (List.range b.k).flatMap b.entriesOfSlot

/-- Whether entry `e` of mix `m` belongs to the Abacus (R343). -/
def Dev.talkerEntry (d : Dev) (m e : Nat) : Bool :=
  decide (e < 16) && d.abx.basins.any fun x =>
    decide (0 < x.2.k) && decide (x.2.mixBase ≤ m) && decide (m ≤ x.2.mixBase + x.2.k)

/-- The inputs that take part in a pending swap of a Basin or hold a slot of it. -/
def Basin.busyInputs (b : Basin) : List Nat :=
  b.slots.map (·.input) ++ b.swaps.flatMap fun s => s.incoming.toList ++ s.outgoing.toList

/-- The inputs of a Basin that compete, with their levels (R344). -/
def Dev.competitors (d : Dev) (n : Nat) (b : Basin) : List (Nat × Int) :=
  d.abx.inputs.filterMap fun x =>
    if x.2.basin = n ∧ x.2.elig ∧ !(d.muteOf x.2).1 ∧ !b.busyInputs.contains x.1 then some (x.1, d.inputLevel x.2) else none

/-- The strongest competitor: the highest level, then the lowest number. -/
def strongest : List (Nat × Int) → Option (Nat × Int)
  | [] => none
  | x :: t =>
    match strongest t with
    | none => some x
    | some y => if x.2 < y.2 ∨ (x.2 = y.2 ∧ y.1 < x.1) then some y else some x

/-- The level of the input in a talker slot. -/
def Dev.slotLevel (d : Dev) (s : TalkSlot) : Int :=
  match d.input? s.input with
  | some i => d.inputLevel i
  | none => -32768

/-- The weakest of these incumbents: the lowest level, then the highest slot. -/
def Dev.weakest (d : Dev) : List TalkSlot → Option TalkSlot
  | [] => none
  | x :: t =>
    match d.weakest t with
    | none => some x
    | some y =>
      if d.slotLevel y < d.slotLevel x ∨ (d.slotLevel x = d.slotLevel y ∧ x.slot < y.slot) then some y else some x

/-- The talker decision of a Basin, if it makes one (R346): slot, incoming and outgoing input. -/
def Dev.talkDecision (d : Dev) (n : Nat) (b : Basin) : Option (Nat × Option Nat × Option Nat) :=
  let swapping := b.swaps.map (·.slot)
  let best := strongest (d.competitors n b)
  let steady := b.slots.filter fun s => !swapping.contains s.slot
  let empty := (List.range b.k).find? fun j => !swapping.contains j && !(b.slots.any (·.slot == j))
  let fill := match empty, best with
    | some j, some c => if b.floor ≤ c.2 then some (j, some c.1, none) else none
    | _, _ => none
  let replace := match d.weakest steady, best with
    | some s, some c =>
      if s.since + b.hold ≤ d.tide ∧ d.slotLevel s + b.hyst < c.2 then some (s.slot, some c.1, some s.input) else none
    | _, _ => none
  let vacate := (d.weakest (steady.filter fun s => decide (b.hold ≤ s.below))).map fun s => (s.slot, none, some s.input)
  fill.orElse fun _ => replace.orElse fun _ => vacate

/-- The notice of a decision (R347); a full queue drops it. -/
def Dev.talkNotice (d : Dev) (n slot : Nat) (incoming outgoing : Option Nat) : Dev :=
  let q := d.get Reg.abx_TALK_QUEUE
  if q = 0 then d
  else
    let m6 := slot * 2 ^ 28 + incoming.getD 0x1FFF * 2 ^ 13 + outgoing.getD 0x1FFF
    match d.push q (holdItem (Config.itemLane 0x0030 % 8) 0x0 0 0 noBerth m6 n) with
    | (d, .full) => d.queueDropped q 1
    | (d, _) => d

/-- One Basin's turn at a boundary (R346, R347). -/
def Dev.talkBasin (d : Dev) (n : Nat) (b : Basin) : Dev :=
  let slots := b.slots.map fun s => { s with below := if d.slotLevel s < b.floor then s.below + 1 else 0 }
  let swaps := b.swaps.filter fun s => !(s.stage == 2 && decide (s.at_ + b.lead + 2 * b.ramp ≤ d.tide))
  let b := { b with slots := slots, swaps := swaps }
  let d := d.setBasin n b
  match d.talkDecision n b with
  | none => d
  | some (j, incoming, outgoing) =>
    let s : Swap := ⟨j, incoming, outgoing, d.tide, 0⟩
    ((d.setBasin n { b with swaps := b.swaps ++ [s] }).bump Reg.abx_TALK_SWAP).raise abxPage 4 |>.talkNotice n j incoming outgoing

/-- The talker decisions of a boundary, Basin by Basin, while the Abacus is in service. -/
def Dev.talkDecisions (d : Dev) : Dev :=
  if !d.flag Reg.abx_EN then d
  else d.abx.basins.foldl (fun d x => match assoc? x.1 d.abx.basins with
    | some b => if b.k = 0 then d else d.talkBasin x.1 b
    | none => d) d

/-- An entry starts a ramp at this boundary from the gain in effect (R340). -/
def Entry.rampTo (e : Entry) (tide g ramp : Nat) : Entry :=
  { e with g0 := e.gainNow tide, g1 := g, start := tide, ramp := ramp }

/-- At D + TALK_LEAD a slot's entries start a ramp to zero in every talker mix (R347). -/
def Dev.talkFadeOut (d : Dev) (n : Nat) : Dev :=
  match assoc? n d.abx.basins with
  | none => d
  | some b =>
    match b.swaps.find? fun s => s.stage == 0 && decide (s.at_ + b.lead ≤ d.tide) with
    | none => d
    | some s =>
      let swaps := b.swaps.map fun x => if x = s then { x with stage := 1 } else x
      (b.entriesOfSlot s.slot).foldl (fun d k => match assoc? k d.abx.entries with
        | some e => d.setEntry k (e.rampTo d.tide 0 b.ramp)
        | none => d) (d.setBasin n { b with swaps := swaps })

/-- After the fade-out the entries take the incoming input and ramp to TALK_GAIN (R347). -/
def Dev.talkFadeIn (d : Dev) (n : Nat) : Dev :=
  match assoc? n d.abx.basins with
  | none => d
  | some b =>
    match b.swaps.find? fun s => s.stage == 1 && decide (s.at_ + b.lead + b.ramp ≤ d.tide) with
    | none => d
    | some s =>
      let rest := b.slots.filter (·.slot != s.slot)
      match s.incoming with
      | none => d.setBasin n { b with slots := rest, swaps := b.swaps.erase s }
      | some i =>
        let swaps := b.swaps.map fun x => if x = s then { x with stage := 2 } else x
        let slot : TalkSlot := ⟨s.slot, i, d.tide, 0⟩
        (b.entriesOfSlot s.slot).foldl (fun d k => match assoc? k d.abx.entries with
          | some e => d.setEntry k { (e.rampTo d.tide b.gain b.ramp) with input := i, g0 := 0 }
          | none => d) (d.setBasin n { b with slots := rest ++ [slot], swaps := swaps })

/-- A cleared entry becomes free from the boundary after its ramp ends (R340). -/
def Dev.xpRampEnd (d : Dev) (m e : Nat) : Dev :=
  match assoc? (64 * m + e) d.abx.entries with
  | some x => if x.clearing ∧ x.start + x.ramp ≤ d.tide ∧ e < 64 then d.dropEntry (64 * m + e) else d
  | none => d

/-! ### Faults (R319, R320) -/

/-- The mixes that a faulted MAC lane computes are silenced, and their instances fail (R319). -/
def Dev.macSilence (d : Dev) (mixes : List Nat) : Dev :=
  mixes.foldl (fun d m =>
    match d.mixInstances d.tide |>.find? (·.1 == m) with
    | none => d
    | some (_, s) =>
      ((d.setMix m { d.mix m with faulted := true }).bump Reg.abx_FAULT_SILENT).endInst s .failedUnitFault []) d

/-- The paths of a faulted dressing lane deliver silence in the Tide of the fault (R320). -/
def Dev.dressSilence (d : Dev) (lane : Nat) : Dev :=
  { d with abx := { d.abx with dressSilent := lane :: d.abx.dressSilent } }

/-- A dressing lane is lost: its paths' inputs are muted (R320). -/
def Dev.dressGone (d : Dev) (lane : Nat) : Dev :=
  let lost := assocSet lane d.tide d.abx.dressLost
  let silent := d.abx.dressSilent.filter (· != lane)
  { d with abx := { d.abx with dressLost := lost, dressSilent := silent } }.raise abxPage 5

/-- A Tide break moves what the Abacus keeps by Tide number (R207). -/
def Dev.abxBreak (d : Dev) (f : Nat → Nat) : Dev :=
  let a := d.abx
  let moveStaged := fun (s : StagedWords) => { s with applyTide := f s.applyTide }
  let moveBasin := fun (x : Nat × Basin) => (x.1, { x.2 with
    slots := x.2.slots.map fun (s : TalkSlot) => { s with since := f s.since }
    swaps := x.2.swaps.map fun (s : Swap) => { s with at_ := f s.at_ } })
  let moveMix := fun (x : Nat × Mix) => (x.1, { x.2 with
    acc := x.2.acc.map fun (y : AccBlock) => { y with tide := f y.tide }
    outs := x.2.outs.map fun (y : OutBlock) => { y with tide := f y.tide }
    cStart := f x.2.cStart })
  let moveInput := fun (x : Nat × Input) => (x.1, { x.2 with muteAt := x.2.muteAt.map f })
  let moveEntry := fun (x : Nat × Entry) => (x.1, { x.2 with start := f x.2.start })
  { d with abx := { a with
    basins := a.basins.map moveBasin
    inputs := a.inputs.map moveInput
    mixes := a.mixes.map moveMix
    entries := a.entries.map moveEntry
    dressLost := a.dressLost.map fun (x : Nat × Nat) => (x.1, f x.2)
    staged := a.staged.map moveStaged } }

end Sys2Proof.Machine
end

