-- ==== Sys2Proof/Machine/Gauge.lean ====
section
/-!
DEFINITION. The Tide gauges (R569–R571, R579).
-/

namespace Sys2Proof.Machine

/-- The TGG page. -/
def tggPage : Page := ⟨.tgg, 0⟩

/-- A gauge. -/
def Dev.gauge (d : Dev) (g : Nat) : Gauge := (assoc? g d.tgg.sets).getD {}

/-- The device with a gauge replaced. -/
def Dev.setGauge (d : Dev) (g : Nat) (x : Gauge) : Dev := { d with tgg := { d.tgg with sets := assocPut {} g x d.tgg.sets } }

/-- Where a sample goes (R570): its bin, and whether it counts UNDER and OVER. -/
def gaugeBin (log : Bool) (width : Nat) (d : Int) : Nat × Bool × Bool :=
  if log then
    if d ≤ 0 then (0, decide (d < 0), false)
    else (min 31 (1 + Nat.log2 d.toNat), false, decide ((2 ^ 31 : Int) ≤ d))
  else if d < 0 then (0, true, false)
  else
    let b := d.toNat / atLeast1 width
    (min 31 b, false, decide (31 < b))

/-- A set with a sample (R570). -/
def GaugeSet.add (x : GaugeSet) (v : Int) (bin : Nat) (under excess : Bool) : GaugeSet :=
  { x with
    range := some (match x.range with
      | some (a, b) => (min a v, max b v)
      | none => (v, v))
    count := satAdd 32 x.count 1
    sum := clampI (-(2 ^ 63 : Int)) (2 ^ 63 - 1) (x.sum + v)
    under := satAdd 32 x.under (bitOf under)
    excess := satAdd 32 x.excess (bitOf excess)
    bins := assocSet bin (satAdd 32 ((assoc? bin x.bins).getD 0) 1) x.bins }

/-- Whether gauge `g` is in service. -/
def Dev.gaugeOn (d : Dev) (g : Nat) : Bool :=
  d.live tggPage && d.flag Reg.tgg_EN && decide (g < 256) && d.flag Reg.tgg_G_EN [g]

/-- A gauge takes a sample (R569, R570); one more in the same cycle is counted in DROPPED. -/
def Dev.gaugeTake (d : Dev) (g : Nat) (v : Int) (again : Bool) : Dev :=
  let x := d.gauge g
  if again then
    let e := d.setGauge g { x with live := { x.live with dropped := satAdd 32 x.live.dropped 1 } }
    if x.live.dropped < 2 ^ 32 - 1 then e.raise tggPage 1 else e
  else
    let base := toSigned 32 (d.get Reg.tgg_G_BASE [g])
    let (bin, under, excess) := gaugeBin (d.flag Reg.tgg_G_LOG_BINS [g]) (d.get Reg.tgg_G_WIDTH [g]) (v - base)
    let d := d.setGauge g { x with live := x.live.add v bin under excess }
    if excess ∧ x.live.excess < 2 ^ 32 - 1 then d.raise tggPage 0 else d

/-- The sample that a source of one sample in a Tide gives (R569): the age of the head item of a Spill queue, an audio level
in Q8.8 dBFS, the depth of a Spill queue. -/
def Dev.gaugeSource (d : Dev) (source index : Nat) : Option Int :=
  match source with
  | 0x03 =>
    match d.peek (index % 4096) with
    | some i => some (seqDiff 32 d.tide (wfld i.words 4 31 0))
    | none => some 0
  | 0x04 =>
    let n := index % 8192
    some (if 32768 ≤ index then levelOf (d.mix n).energies else ((d.input? n).map d.inputLevel).getD (-32768))
  | 0x06 => some (d.queue (index % 4096)).depth
  | _ => none

/-- GAUGE_SAMPLE: a gauge bins one sample (R569, R570). A queue's or a level's sample is what the device holds, once in a
Tide; of the other sources, one event in 2^SAMPLE_LOG2 passes, with the value measured. -/
def Dev.gaugeSample (d : Dev) (g : Nat) (value : Word) (again : Bool) : Dev :=
  if !d.gaugeOn g then d
  else
    let source := d.get Reg.tgg_G_SOURCE [g]
    match d.gaugeSource source (d.get Reg.tgg_G_INDEX [g]) with
    | some v =>
      let x := d.gauge g
      if x.last = some d.tide then d else (d.setGauge g { x with last := some d.tide }).gaugeTake g v again
    | none =>
      if ! [0x01, 0x02, 0x05].contains source then d
      else
        let x := d.gauge g
        let d := d.setGauge g { x with events := x.events + 1 }
        let n := 2 ^ d.get Reg.tgg_G_SAMPLE_LOG2 [g]
        if x.events % n = Config.gaugePhase % n then d.gaugeTake g value.toInt again else d

/-- A gauge whose PERIOD ends with this boundary moves its live set, empty or not, into the snapshot (R571). -/
def Dev.gaugeSnapshot (d : Dev) (g : Nat) : Dev :=
  let period := d.get Reg.tgg_G_PERIOD [g]
  if period = 0 ∨ d.tide % 2 ^ 32 % period ≠ 0 ∨ d.gaugeOn g = false then d
  else
    let x := d.gauge g
    d.setGauge g { x with live := {}, snap := { x.live with tide := d.tide % 2 ^ 32 } }

/-- The gauges in service at a Tide boundary. -/
def Dev.gaugeSnapshots (d : Dev) : Dev :=
  if !d.live tggPage || !d.flag Reg.tgg_EN then d else (List.range 256).foldl Dev.gaugeSnapshot d

/-- A set in the readout registers (R579). -/
def Dev.readout (d : Dev) (x : GaugeSet) : Dev :=
  let sum := ofSigned 64 x.sum
  let d := match x.range with
    | some (a, b) => (d.set Reg.tgg_RO_MIN (ofSigned 32 a)).set Reg.tgg_RO_MAX (ofSigned 32 b)
    | none => (d.set Reg.tgg_RO_MIN 0x7FFFFFFF).set Reg.tgg_RO_MAX 0x80000000
  let d := ((d.set Reg.tgg_RO_COUNT x.count).set Reg.tgg_RO_SUM_LO sum).set Reg.tgg_RO_SUM_HI (sum / 2 ^ 32)
  let d := ((d.set Reg.tgg_RO_UNDER x.under).set Reg.tgg_RO_OVER x.excess).set Reg.tgg_RO_DROPPED x.dropped
  let d := d.set Reg.tgg_RO_SNAP_TIDE x.tide
  (List.range 32).foldl (fun d b => d.set Reg.tgg_RO_BIN ((assoc? b x.bins).getD 0) [b]) d

/-- CAPTURE (R571): the live set or the snapshot of gauge SEL. -/
def Dev.capture (d : Dev) (snap : Bool) : Dev :=
  if !d.live tggPage then d
  else
    let x := d.gauge (d.get Reg.tgg_SEL)
    d.readout (if snap then x.snap else x.live)

/-- CLEAR (R579): the live set of gauge SEL. -/
def Dev.gaugeClear (d : Dev) : Dev :=
  if !d.live tggPage then d
  else
    let g := d.get Reg.tgg_SEL
    d.setGauge g { d.gauge g with live := {} }

/-- A write to word `i` of gauge `g` (R579): ignored and logged while its EN is 1, but for a write that clears EN. A write
of EN as 1 clears the live set and the snapshot. -/
def Dev.gaugeWrite (d : Dev) (g i : Nat) (w : Word) : Dev :=
  let a := 0x1A1000 + 0x10 * g + 4 * i
  if !d.live tggPage then d
  else if d.flag Reg.tgg_G_EN [g] then
    if i = 0 ∧ Word.fld w 31 31 = 0 then d.set Reg.tgg_G_EN 0 [g] else d.logIgnored tggPage a
  else
    let masks : List Word := [0xCFFFFFFF, 0xFFFFFFFF, 0x7FFFFFFF, 0xFFFF]
    let d := d.setWord a (w &&& masks.getD i 0)
    if i = 0 ∧ Word.fld w 31 31 = 1 then d.setGauge g {} else d

end Sys2Proof.Machine
end

