-- ==== Sys2Proof/Machine/Apply.lean ====
section
/-!
DEFINITION. Staged (ST) fields and the apply mechanism of every page (R14, R15, R54–R56, R591).
-/

namespace Sys2Proof.Machine

/-- APPLY_STATUS of a page that is IDLE, PENDING, APPLIED or LATE_APPLY (R591). -/
def applyIdle : Nat := 0
def applyPending : Nat := 1
def applyApplied : Nat := 2
def applyLate : Nat := 3

/-- APPLY_TIDE of a page. -/
def Dev.applyTide (d : Dev) (p : Page) : Nat := d.hdr p 0x020 31 0 + 2 ^ 32 * d.hdr p 0x024 31 0

/-- A write of bits of ST fields is held pending; a second write to the same field replaces the first (R14). -/
def Dev.stWrite (d : Dev) (p : Page) (addr : Nat) (mask value : Word) : Dev :=
  let old := (d.staged.find? fun s => s.addr == addr).getD ⟨pageBase p, addr, 0, 0⟩
  let new : StagedReg := ⟨pageBase p, addr, old.mask ||| mask, (old.value &&& ~~~mask) ||| (value &&& mask)⟩
  { d with staged := d.staged.filter (fun s => s.addr != addr) ++ [new] }

/-- ARM (R54, R55): the page is PENDING; its pending values stay. -/
def Dev.applyArm (d : Dev) (p : Page) : Dev := d.setHdr p 0x028 18 16 applyPending

/-- CANCEL (R14): every pending value of the page is discarded and the page is IDLE. -/
def Dev.applyCancel (d : Dev) (p : Page) : Dev :=
  { d with staged := d.staged.filter fun s => s.page != pageBase p }.setHdr p 0x028 18 16 applyIdle

/-- CANCEL as software gives it: in the boundary cycle at which the page applied it has no effect (R55). Phase 0 of a Tide
stands for that cycle (DESIGN CHOICE, log entry 125). -/
def Dev.applyCancelled (d : Dev) (p : Page) : Dev :=
  if d.phase = 0 ∧ d.applied.contains (pageBase p) then d else d.applyCancel p

/-- The pages that are PENDING. -/
def Dev.pendingPages (d : Dev) : List Page :=
  d.regs.filterMap fun x =>
    match pageAt x.1 with
    | some p => if p.kind ≠ .vf ∧ x.1 = pageBase p + 0x028 ∧ Word.fld x.2 18 16 = applyPending then some p else none
    | none => none

/-- The pending values of a page take effect in one step (R14). -/
def Dev.applyPage (d : Dev) (p : Page) : Dev :=
  let due := d.staged.filter fun s => s.page == pageBase p
  let d := due.foldl (fun d s => d.setWord s.addr ((d.word s.addr &&& ~~~s.mask) ||| s.value)) d
  let d := { d with staged := d.staged.filter fun s => s.page != pageBase p, applied := pageBase p :: d.applied }
  d.setHdr p 0x028 18 16 (if d.applyTide p = d.tide then applyApplied else applyLate)

/-- Step 1 of R50: every page due at this boundary applies (R54, R56). -/
def Dev.applyDue (d : Dev) : Dev :=
  (d.pendingPages.filter fun p => decide (d.applyTide p ≤ d.tide)).foldl Dev.applyPage { d with applied := [] }

/-- At anchoring every page still PENDING is cancelled (R199). -/
def Dev.applyCancelAll (d : Dev) : Dev := d.pendingPages.foldl Dev.applyCancel d

/-- A Tide number moved by the delta of a break (R206); one below zero is Tide 0. -/
def moved (delta : Int) (tide : Nat) : Nat := ((tide : Int) + delta).toNat

/-- At a Tide break every armed APPLY_TIDE moves by the break's delta (R207). -/
def Dev.applyBreak (d : Dev) (delta : Int) : Dev :=
  d.pendingPages.foldl (fun d p =>
    let t := moved delta (d.applyTide p)
    (d.setHdr p 0x020 31 0 (t % 2 ^ 32)).setHdr p 0x024 31 0 (t / 2 ^ 32)) d

/-- A staged command that is its port's last no more. -/
def StagedWords.old (s : StagedWords) : StagedWords := { s with last := false }

/-- Whether an apply Tide has begun (R149). -/
def Dev.begun (d : Dev) (t : Nat) : Bool := decide (t ≤ d.tide)

end Sys2Proof.Machine
end

