-- ==== Sys2Proof/Machine/Lfi.lean ====
section
/-!
DEFINITION. The Link Fault Injector (R572–R576, R580): its rules at a point, for a frame that passes it.
-/

namespace Sys2Proof.Machine

/-- The LFI page. -/
def lfiPage : Page := ⟨.lfi, 0⟩

/-- The next state of an LFSR of polynomial x³² + x²² + x² + x + 1 (R573). The spec does not say which register form it
has, nor which way it shifts: `form` tells. -/
def lfsrNext (form : Nat) (x : Word) : Word :=
  let odd (m : Nat) : Nat := ((List.range 32).filter fun i => bitAt m i && bitAt x.toNat i).length % 2
  match form % 4 with
  | 0 => BitVec.ofNat 32 (2 * x.toNat + odd 0x80200003)
  | 1 => BitVec.ofNat 32 (x.toNat / 2 + 2 ^ 31 * odd 0x00400007)
  | 2 => if bitAt x.toNat 31 then (x <<< 1) ^^^ 0x00400007#32 else x <<< 1
  | _ => if bitAt x.toNat 0 then (x >>> 1) ^^^ 0xE0000200#32 else x >>> 1

/-- The LFSR of a rule. -/
def Dev.lfsr (d : Dev) (r : Nat) : Word := (assoc? r d.lfi.lfsr).getD 1

/-- A write of LFSR_SEED seeds every rule (R573, R580). -/
def Dev.lfsrSeed (d : Dev) (w : Word) : Dev :=
  if !d.live lfiPage then d
  else
    let s : Word := if w = 0 then 1 else w
    { d with lfi := { d.lfi with lfsr := if s = 1 then [] else (List.range 16).map fun r => (r, s) } }

/-- Whether a frame is PFC or PTP (R572): by its EtherType, behind a VLAN tag if it has one, or its UDP port. -/
def controlFrame (b : Bytes) : Bool :=
  let o := if beAt b 12 2 = 0x8100 then 16 else 12
  let t := beAt b o 2
  let ip := o + 2
  let port (udp : Nat) : Bool := beAt b (udp + 2) 2 == 319 || beAt b (udp + 2) 2 == 320
  (t == 0x8808 && beAt b (o + 2) 2 == 0x0101) || t == 0x88F7 ||
    (t == 0x0800 && byteAt b (ip + 9) == 17 && port (ip + 4 * (byteAt b ip % 16))) ||
    (t == 0x86DD && byteAt b (ip + 6) == 17 && port (ip + 40))

/-- Whether rule `r` is for a point, and there for logical port `l` (R572, R580). -/
def Dev.ruleAt (d : Dev) (r point l : Nat) : Bool :=
  d.flag Reg.lfi_RULE_EN [r] && d.get Reg.lfi_RULE_POINT [r] == point &&
    (decide (8 ≤ point) || d.flag Reg.lfi_RULE_ANY_PORT [r] || d.get Reg.lfi_RULE_PORT_S [r] == l % 4)

/-- Whether a frame matches rule `r` (R572). -/
def Dev.ruleMatch (d : Dev) (r : Nat) (b : Bytes) (control : Bool) : Bool :=
  let o := d.get Reg.lfi_RULE_MATCH_OFS [r]
  let m := d.get Reg.lfi_RULE_MATCH_MASK [r]
  (!control || d.flag Reg.lfi_RULE_CTRL_EN [r]) &&
    (m == 0 || (decide (o + 4 ≤ b.length) && Nat.land (beAt b o 4) m == Nat.land (d.get Reg.lfi_RULE_MATCH_VAL [r]) m))

/-- A rule acts: HITS, and LIMIT_REACHED once it reaches its limit (R573). -/
def Dev.ruleHit (d : Dev) (r : Nat) : Dev :=
  let n := satAdd 32 (d.get Reg.lfi_RULE_HITS [r]) 1
  let d := d.set Reg.lfi_RULE_HITS n [r]
  let limit := d.get Reg.lfi_RULE_LIMIT [r]
  if limit ≠ 0 ∧ n = limit then d.raise lfiPage 0 else d

/-- A frame on its way past the rules of a point: its bytes, whether bits were inverted before and after the FCS was made
or checked, whether it goes twice, and whether it goes on at all. -/
structure LfiPass where
  bytes : Bytes
  pre : Bool := false
  post : Bool := false
  twice : Bool := false
  gone : Bool := false
  deriving DecidableEq, Repr

/-- Bytes with a bit inverted, counted from the most significant bit of the first byte (R574). -/
def invertBit (b : Bytes) (i : Nat) : Bytes := b.modify (i / 8) fun x => x ^^^ BitVec.ofNat 8 (2 ^ (7 - i % 8))

/-- The action of a rule that acts on a frame at a point (R574, R576). -/
def Dev.ruleAct (d : Dev) (r point l : Nat) (x : LfiPass) (hold : LfiPass → LfiFrame) : Dev × LfiPass :=
  match d.get Reg.lfi_RULE_ACTION [r] with
  | 1 => (d.ruleHit r, { x with gone := true })
  | 2 =>
    let i := d.get Reg.lfi_RULE_CORRUPT_BIT [r]
    if 8 * x.bytes.length ≤ i then (d, x)
    else
      let pre := d.flag Reg.lfi_RULE_CORRUPT_PRE [r]
      (d.ruleHit r, { x with bytes := invertBit x.bytes i, pre := x.pre || pre, post := x.post || !pre })
  | 3 => (d.ruleHit r, { x with twice := true })
  | 4 =>
    if 4 ≤ (d.lfi.held.filter (·.point == point)).length then (d.raise lfiPage 2, x)
    else
      let h : LfiHeld := ⟨point, l, r, d.ns, clampN 1 16 (d.get Reg.lfi_RULE_HOLD_N [r]), hold x⟩
      (({ d with lfi := { d.lfi with held := d.lfi.held ++ [h] } }).ruleHit r, { x with gone := true })
  | _ => (d, x)

/-- One rule for a frame: its LFSR advances if the frame matches, and it acts if the LFSR and its limit let it (R573). -/
def Dev.rulePass (d : Dev) (point l : Nat) (control : Bool) (hold : LfiPass → LfiFrame) (x : LfiPass) (r : Nat) : Dev × LfiPass :=
  if x.gone || !d.ruleAt r point l || !d.ruleMatch r x.bytes control then (d, x)
  else
    let s := lfsrNext Config.lfsrForm (d.lfsr r)
    let d := { d with lfi := { d.lfi with lfsr := assocSet r s d.lfi.lfsr } }
    let limit := d.get Reg.lfi_RULE_LIMIT [r]
    if (limit ≠ 0 ∧ limit ≤ d.get Reg.lfi_RULE_HITS [r]) ∨ d.get Reg.lfi_RULE_PROB [r] ≤ s.toNat % 65536 then (d, x)
    else d.ruleAct r point l x hold

/-- A frame has passed a point: the holds there wait for one frame less, and those that have waited for all follow it
(R574). -/
def Dev.lfiPassed (d : Dev) (point l : Nat) : Dev × List LfiFrame :=
  let held := d.lfi.held.map fun (h : LfiHeld) => if h.point = point ∧ h.lport = l then { h with left := h.left - 1 } else h
  let due (h : LfiHeld) : Bool := h.point == point && h.lport == l && h.left == 0
  ({ d with lfi := { d.lfi with held := held.filter fun h => !due h } }, (held.filter due).map (·.frame))

/-- The rules of a point for a frame (R572–R576): what becomes of it, and the held frames that follow it. -/
def Dev.lfiPoint (d : Dev) (point l : Nat) (b : Bytes) (control : Bool) (hold : LfiPass → LfiFrame) :
    Dev × LfiPass × List LfiFrame :=
  if !d.live lfiPage || !d.flag Reg.lfi_EN then (d, { bytes := b }, [])
  else
    let (d, x) := (List.range 16).foldl (fun (acc : Dev × LfiPass) r => acc.1.rulePass point l control hold acc.2 r)
      (d, { bytes := b })
    if x.gone then (d, x, [])
    else
      let (d, fs) := d.lfiPassed point l
      (d, x, fs)

/-- LFI_HOLD_TIMEOUT: the frame held longest at a point and port goes on once it has been held for 100 µs (R574, R576). -/
def Dev.lfiTimeout (d : Dev) (point l : Nat) : Dev × Option LfiFrame :=
  match d.lfi.held.find? fun h => h.point == point && h.lport == l with
  | none => (d, none)
  | some h =>
    if d.ns < h.since + 100000 then (d, none)
    else (({ d with lfi := { d.lfi with held := d.lfi.held.erase h } }).raise lfiPage 1, some h.frame)

/-! ### Mooring frames as bytes -/

/-- The code of a frame's TYPE (R532). -/
def MrgBody.type : MrgBody → Nat
  | .heartbeat _ => 1 | .delta _ => 2 | .deltaEnd => 3 | .bulk _ => 4 | .bulkEnd => 5 | .rowReq _ => 6 | .joinReq _ => 7

/-- The bytes of a Mooring frame: its header, and what the spec lays out of its body; the layout of records is open, and
their bytes are free values (R532, R541). -/
def Dev.mrgBytes (d : Dev) (f : MrgFrame) : Dev × Bytes :=
  let h := f.head
  let head := beBytes 2 h.magic ++ beBytes 1 h.version ++ beBytes 1 f.body.type ++ beBytes 4 h.tideLo ++ beBytes 4 h.claim ++
    beBytes 2 h.fseq ++ beBytes 2 h.count
  match f.body with
  | .heartbeat b =>
    (d, head ++ beBytes 1 b.role ++ beBytes 1 b.sync ++ beBytes 1 b.skipLog2 ++ beBytes 1 (bitOf b.ok) ++ beBytes 4 b.tideHi ++
      List.replicate 40 0)
  | .joinReq ks => (d, head ++ ks.flatMap (beBytes 4))
  | .delta rs | .bulk rs | .rowReq rs => let (d, b) := d.drawBytes (8 * rs.length); (d, head ++ b)
  | _ => (d, head)

/-- A Mooring frame with bits of its bytes inverted: its header as the bytes now spell it. A body stays as it was, since
the spec lays out no records. -/
def MrgFrame.altered (f : MrgFrame) (x : LfiPass) (intact : Bool) : MrgFrame :=
  let b := x.bytes
  { f with head := ⟨intact && f.head.intact, beAt b 0 2, byteAt b 2, beAt b 4 4, beAt b 8 4, beAt b 12 2, beAt b 14 2⟩ }

/-- A write to word `i` of rule `r` (R580): ignored and logged while its EN is 1, but for a write that clears EN. A write of
EN as 1 clears HITS. -/
def Dev.ruleWrite (d : Dev) (r i : Nat) (w : Word) : Dev :=
  let a := 0x1B0100 + 0x20 * r + 4 * i
  if !d.live lfiPage then d
  else if d.flag Reg.lfi_RULE_EN [r] then
    if i = 0 ∧ Word.fld w 31 31 = 0 then d.set Reg.lfi_RULE_EN 0 [r] else d.logIgnored lfiPage a
  else if 7 ≤ i then d
  else
    let masks : List Word := [0xFFC7001F, 0xFF, 0xFFFFFFFF, 0xFFFFFFFF, 0x1FFFF, 0x1FFFF, 0xFFFFFFFF]
    let d := d.setWord a (w &&& masks.getD i 0)
    if i = 0 ∧ Word.fld w 31 31 = 1 then d.set Reg.lfi_RULE_HITS 0 [r] else d

end Sys2Proof.Machine
end

