-- ==== Sys2Proof/Machine/Outputs.lean ====
section
/-!
DEFINITION. The role of the device, whether its outputs are open (R537, R613, R618), and what an active notes for its
delta (R541).
-/

namespace Sys2Proof.Machine

/-- The roles of R535: SOLO, ACTIVE, STANDBY, FENCED. -/
def roleSolo : Nat := 0
def roleActive : Nat := 1
def roleStandby : Nat := 2
def roleFenced : Nat := 3

/-- The role of the device. -/
def Dev.role (d : Dev) : Nat := d.get Reg.mrg_ROLE

/-- Whether outputs are open (R537): the role is SOLO or ACTIVE, and the claim exceeds every partner claim heard
in the current and the previous Tide. They are closed while the fabric PLL is not locked (R613). -/
def Dev.outputsOpen (d : Dev) : Bool :=
  bitAt (d.get Reg.pwr_CLK_OK) 0 && (d.role == roleSolo || d.role == roleActive) &&
  (d.mrg.heardNow ++ d.mrg.heardPrev).all fun c => decide (c < d.get Reg.mrg_CLAIM_OWN)

/-- Whether the device is a STANDBY or FENCED, whose transport state changes only through the Mooring (R540). -/
def Dev.follows (d : Dev) : Bool := d.role == roleStandby || d.role == roleFenced

/-- The Mooring page. -/
def mrgPage : Page := ⟨.mrg, 0⟩

/-- A frame leaves on the Mooring. -/
def Dev.mrgOut (d : Dev) (f : MrgFrame) : Dev := { d with mrg := { d.mrg with sent := f :: d.mrg.sent } }

/-- What leaves when a held frame of the Mooring's transmit point goes on. -/
def Dev.mrgRelease (d : Dev) (f : LfiFrame) : Dev :=
  match f with
  | .mrg g => d.mrgOut g
  | _ => d

/-- A frame meets the rules of the Mooring's transmit point (R572, R574, R575). -/
def Dev.mrgInject (d : Dev) (f : MrgFrame) : Dev :=
  let (d, b) : Dev × Bytes := d.mrgBytes f
  let made := fun (x : LfiPass) => f.altered x (!x.post)
  match d.lfiPoint 9 0 b false (fun x => .mrg (made x)) with
  | (d, x, held) =>
    let d := if x.gone then d else if x.twice then (d.mrgOut (made x)).mrgOut (made x) else d.mrgOut (made x)
    held.foldl Dev.mrgRelease d

/-- A frame sent on the Mooring with this Tide and claim (R532), while the Mooring is in service and its link is up. -/
def Dev.mrgSend (d : Dev) (body : MrgBody) (tide : Nat) (fseq : Nat := 0) (count : Nat := 0) : Dev :=
  if d.flag Reg.mrg_EN && d.flag Reg.mrg_LINK_UP then
    let h : MrgHead := { tideLo := tide % 2 ^ 32, claim := d.get Reg.mrg_CLAIM_OWN, fseq := fseq, count := count }
    if d.live lfiPage && d.flag Reg.lfi_EN then d.mrgInject ⟨h, body⟩ else d.mrgOut ⟨h, body⟩
  else d

/-- A SYNCED standby met an uncorrectable error in a row: it asks for the row, for up to 64 rows in a Tide (R552). -/
def Dev.askRow (d : Dev) (b : Nat) : Dev :=
  if d.role = roleStandby ∧ d.get Reg.mrg_SYNC = 2 ∧ d.mrg.asked.length < 64 ∧ b ∉ d.mrg.asked then
    ({ d with mrg := { d.mrg with asked := b :: d.mrg.asked } }).mrgSend (.rowReq [.row b]) d.tide 0 1
  else d

/-- A note for the delta of the Tide in progress (R541); only an ACTIVE keeps one. -/
def Dev.note (d : Dev) (n : MrgNote) : Dev :=
  if d.role = roleActive then { d with mrg := { d.mrg with notes := d.mrg.notes ++ [n] } } else d

/-- The send state row `b` began the Tide with, if it has changed in it. -/
def Dev.noted (d : Dev) (b : Nat) : Option (Nat × Nat × Nat) :=
  d.mrg.notes.findSome? fun n => match n with
    | .send x n t i => if x = b then some (n, t, i) else none
    | _ => none

end Sys2Proof.Machine
end

