-- ==== Sys2Proof/Machine/Units.lean ====
section
/-!
DEFINITION. The units that the Slipway numbers (R555): which exist, which are spares, what each stands at, and who
executes for whom (R24–R28, R74, R117).
-/

namespace Sys2Proof.Machine

/-- Kinds of R555. -/
def ukVde : Nat := 0x0
def ukSvy : Nat := 0x1
def ukLtr : Nat := 0x2
def ukLcp : Nat := 0x3
def ukMac : Nat := 0x4
def ukCore : Nat := 0x5
def ukAes : Nat := 0x7
def ukBwr : Nat := 0x8
def ukFry : Nat := 0x9
def ukTly : Nat := 0xA
def ukPcs : Nat := 0xB
def ukSha : Nat := 0xC
def ukDress : Nat := 0xD
def ukHold : Nat := 0xE

/-- Engines of a kind in service where nothing is repaired or retired (R1, R24, R28). -/
def Dev.serviceCount (d : Dev) (k : Nat) : Nat :=
  let piers := if d.half then 4 else 8
  match k with
  | 0x0 => if d.video then 4 * piers else 0
  | 0x1 => if d.video then 2 * piers else 0
  | 0x2 => if d.video then 6 * piers else 0
  | 0x3 => if d.video then piers else 0
  | 0x4 => 32
  | 0x5 => 128 * piers
  | 0x6 => 16
  | 0x7 => 16
  | 0x8 => 2
  | 0x9 => 4
  | 0xA => 1
  | 0xB => if d.half then 8 else 16
  | 0xC => 9
  | 0xD => 4
  | 0xE => d.channels
  | _ => 0

/-- The spares of a kind as the part is built (R24, R28, R555), numbered above the units in service. -/
def Dev.bornSpares (d : Dev) (k : Nat) : List Nat :=
  match k with
  | 0x0 => if d.video then [32, 33] else []
  | 0x1 => if d.video then [16] else []
  | 0x2 => if d.video then [48, 49] else []
  | 0x3 => if d.video then [8] else []
  | 0x4 => [32]
  | 0x5 => (List.range (if d.half then 32 else 64)).map (1024 + ·)
  | 0x7 => [16]
  | 0x8 => [2]
  | 0x9 => [4]
  | 0xA => [1]
  | 0xB => if d.half then [16, 17] else [16, 17, 18, 19]
  | 0xC => [9]
  | 0xD => [4]
  | 0xE => if d.half then [64] else [64, 65]
  | _ => []

/-- Whether a unit exists on the part. -/
def Dev.unitExists (d : Dev) (u : UnitId) : Bool := decide (u.idx < d.serviceCount u.kind) || (d.bornSpares u.kind).contains u.idx

/-- What a unit stands at. -/
def Dev.unit (d : Dev) (u : UnitId) : UnitState := ((d.slw.units.find? (·.1 == u)).map (·.2)).getD {}

/-- The device with a unit's standing replaced. -/
def Dev.setUnit (d : Dev) (u : UnitId) (x : UnitState) : Dev :=
  let rest := d.slw.units.filter fun y => y.1 != u
  { d with slw := { d.slw with units := if x = {} then rest else rest ++ [(u, x)] } }

/-- The pier of an engine or a core (R24, R74, R26). -/
def UnitId.pier (u : UnitId) : Nat :=
  match u.kind with
  | 0x0 => u.idx / 4
  | 0x1 => u.idx / 2
  | 0x2 => u.idx / 6
  | 0x3 => u.idx
  | 0x5 => if u.idx < 1024 then u.idx / 128 else (u.idx - 1024) / 8
  | _ => 8

/-- The index of a core's block on its pier's page (R412). -/
def coreLocal (i : Nat) : Nat := if i < 1024 then i % 128 else 128 + (i - 1024) % 8

/-- The core of a block. -/
def coreAt (pier c : Nat) : Nat := if c < 128 then 128 * pier + c else 1024 + 8 * pier + (c - 128)

/-- The page of a unit. -/
def UnitId.page (u : UnitId) : Page :=
  match u.kind with
  | 0x0 => ⟨.vde, u.idx⟩
  | 0x1 => ⟨.svy, u.idx⟩
  | 0x2 => ⟨.ltr, u.idx⟩
  | 0x3 => ⟨.lcp, u.idx⟩
  | 0x5 => ⟨.rkn, u.pier⟩
  | 0x6 => ⟨.gwy, 0⟩
  | 0x7 | 0xC => ⟨.bnd, 0⟩
  | 0x8 => ⟨.bwr, 0⟩
  | 0x9 => ⟨.fry, 0⟩
  | 0xA => ⟨.tly, 0⟩
  | 0xB => ⟨.qay, if u.idx < 16 then u.idx / 4 else u.idx - 16⟩
  | 0xE => ⟨.hld, 0⟩
  | 0x4 | 0xD => ⟨.abx, 0⟩
  | _ => ⟨.slw, 0⟩

/-- The unit that executes the calendar of `u`: itself, or the spare that carries it. -/
def Dev.executor (d : Dev) (u : UnitId) : UnitId :=
  match (d.unit u).carrier with
  | some s => ⟨u.kind, s⟩
  | none => u

/-- The unit whose calendar `u` executes: the one it carries, or its own if it is in service and no spare carries it. -/
def Dev.home (d : Dev) (u : UnitId) : Option UnitId :=
  let x := d.unit u
  match x.carries with
  | some h => if (d.unit ⟨u.kind, h⟩).carrier = some u.idx then some ⟨u.kind, h⟩ else none
  | none => if u.idx < d.serviceCount u.kind ∧ x.carrier = none ∧ !x.returned then some u else none

/-- Whether a unit is fit to run something: present, powered, no fault, not retired, not under audit. -/
def Dev.unitFit (d : Dev) (u : UnitId) : Bool :=
  let x := d.unit u
  d.unitExists u && d.live u.page && !x.fault && !x.retired && !x.audit

/-- Whether a unit takes dispatches: fit, enabled by its page's header, and of a state of its own that allows it (R118); a pipeline
of the Bond only while the Bond is in service (R273). -/
def Dev.unitTakes (d : Dev) (u : UnitId) : Bool :=
  d.unitFit u && d.enabled u.page && !(d.unit u).mgmtRetired && (d.unit u).reports.isNone && (u.kind != ukAes || d.flag Reg.bnd_EN)

/-- The free spares of a kind (of a pier, for cores): fit, and carrying nothing (R565). -/
def Dev.freeSpares (d : Dev) (u : UnitId) : List Nat :=
  let cands := d.bornSpares u.kind ++ (d.slw.units.filter fun x => x.1.kind == u.kind && x.2.returned && !x.2.untested).map (·.1.idx)
  (cands.filter fun i =>
    let v : UnitId := ⟨u.kind, i⟩
    (u.kind != ukCore || v.pier == u.pier) && (u.kind != ukPcs || v.page == u.page) &&
      (u.kind != ukHold || i - 64 == u.idx / 32) && d.unitFit v && (d.unit v).carries.isNone)

/-- Whether a unit of a kind is in service: it, or the spare that carries its calendar or will from the next boundary,
can run its work. -/
def Dev.inService (d : Dev) (u : UnitId) : Bool :=
  decide (u.idx < d.serviceCount u.kind) && !(d.unit u).lost &&
    (d.unitFit (d.executor u) || (d.unit u).next.isSome)

/-- One of the entries of a list; which, the spec leaves open. -/
def Dev.pick (d : Dev) (l : List Nat) : Dev × Option Nat :=
  match l with
  | [] => (d, none)
  | [x] => (d, some x)
  | x :: _ => let (d, n) := d.draw; (d, some (l.getD (n % l.length) x))

/-- The STATE a page reports: OFF without power and before the first roll-call, else what won the last one (R117, R591). -/
def Dev.pageState (d : Dev) (p : Page) : Nat :=
  if !d.live p then 0 else ((d.slw.states.find? (·.1 == p)).map (·.2)).getD 0

end Sys2Proof.Machine
end

