-- ==== Sys2Proof/Machine/Quay.lean ====
section
/-!
DEFINITION. The Quays (chapter 5): port modes, transmit queues, priority flow control, gate lists and
transmit timestamps.
-/

namespace Sys2Proof.Machine

/-- MAX_FRAME in effect on a port (R165): values outside the range act as the nearer limit. -/
def Dev.maxFrame (d : Dev) (l : Nat) : Nat := clampN 1518 9600 (d.get Reg.qay_MAX_FRAME (portIx l))

/-- Whether LINK_UP of a port is 1. -/
def Dev.linkUp (d : Dev) (l : Nat) : Bool := bitAt (d.get Reg.qay_LINK_UP [l / 4]) (l % 4)

/-- The length of a frame on the wire's count (R165): at least 64 bytes, the FCS included (R172). -/
def TxFrame.length (f : TxFrame) : Nat := max 64 (f.bytes.length + 4)

/-- The PFC priority of transmit queue t of a port (R176). -/
def Dev.txqPrio (d : Dev) (l t : Nat) : Nat := bits (d.get Reg.qay_TXQ_PRIO (portIx l)) (3 * t + 2) (3 * t)

/-! ### Gate lists (R177–R184) -/

/-- The entries of a list from `off` ns into its cycle on, the first cut to what is left of it. -/
def entriesFrom : List (Nat × Nat) → Nat → List (Nat × Nat)
  | [], _ => []
  | (s, n) :: t, off => if off < n then (s, n - off) :: t else entriesFrom t (off - n)

/-- How long queue `q`'s gate stays open from `off` ns into the cycle on; none is for ever (R182). -/
def GateList.openFor (g : GateList) (off q : Nat) : Option Nat :=
  if g.entries.all fun e => bitAt e.1 q then none
  else some (((entriesFrom g.entries off ++ g.entries).takeWhile fun e => bitAt e.1 q).map (·.2)).sum

/-- Where in the cycle of a running list an instant lies. -/
def GateList.offsetAt (g : GateList) (t : Nat) : Nat :=
  if g.cycle = 0 then 0 else (((t : Int) - g.base) % g.cycle).toNat

/-- Where the entries of a list begin in its cycle. -/
def entryStarts : List (Nat × Nat) → Nat → List Nat
  | [], _ => []
  | (_, n) :: t, off => off :: entryStarts t (off + n)

/-- W_t of R183: the longest continuous time queue `q`'s gate is open; none is unbounded. -/
def GateList.longest (g : GateList) (q : Nat) : Option Nat :=
  if g.entries.all fun e => bitAt e.1 q then none
  else some ((entryStarts g.entries 0).foldl (fun m o => max m ((g.openFor o q).getD 0)) 0)

/-- The first `n` entries of bank `b` of a port. -/
def Dev.gateEntries (d : Dev) (l b n : Nat) : List (Nat × Nat) :=
  (List.range n).map fun e =>
    (d.get Reg.qay_GATE_STATES (portIx l ++ [b, e]), d.get Reg.qay_GATE_INTERVAL (portIx l ++ [b, e]))

/-- A pending list with the entries its bank holds now: only its cycle, its count and its base are captured at ARM (R181,
R187). -/
def Dev.listNow (d : Dev) (l : Nat) (g : GateList) : GateList :=
  { g with entries := d.gateEntries l g.bank g.entries.length }

/-- The time left until queue `q`'s gate next closes, across cycle ends and the start of a pending list
(R182); none is for ever. A port whose gates are in force and that has no list keeps its gates open. -/
def Dev.gateLeft (d : Dev) (l q : Nat) : Option Nat :=
  let x := d.port l
  let now := d.ns
  let first := match x.oper with
    | some g => g.openFor (g.offsetAt now) q
    | none => none
  match x.pend with
  | none => first
  | some (g, start) =>
    let g := d.listNow l g
    let toStart := start - now
    match first with
    | some n => if n < toStart then some n else (g.openFor 0 q).map (toStart + ·)
    | none => (g.openFor 0 q).map (toStart + ·)

/-- Whether a time on the wire, in bits at the port's rate, fits into a window in ns of which `frac` 2⁻¹⁶ ns have passed. -/
def fitsWindow (bitsOnWire rate : Nat) (w : Option Nat) (frac : Nat := 0) : Bool :=
  match w with
  | none => true
  | some w => decide (bitsOnWire * 65536 ≤ (w * 65536 - frac) * rate)

/-- A frame's time on the wire in bits at the port's rate, GATE_GUARD included (R182). -/
def Dev.wireBits (d : Dev) (l : Nat) (f : TxFrame) : Nat :=
  (f.length + 8) * 8 + d.get Reg.qay_GATE_GUARD (portIx l) * d.portRate l

/-- Whether a frame at the head of queue `q` can never fit the lists in force (R183). -/
def Dev.neverFits (d : Dev) (l q : Nat) (f : TxFrame) : Bool :=
  d.flag Reg.qay_GATE_EN (portIx l) &&
  match (d.port l).oper with
  | none => false
  | some g =>
    !fitsWindow (d.wireBits l f) (d.portRate l) (g.longest q) &&
    match (d.port l).pend with
    | none => true
    | some (p, _) => !fitsWindow (d.wireBits l f) (d.portRate l) ((d.listNow l p).longest q)

/-- The frames that a queue drops as they reach its head: too long (R172), or never fitting (R183). -/
def Dev.settleHead (d : Dev) (l q : Nat) : Nat → Dev
  | 0 => d
  | n + 1 =>
    let x := d.port l
    match x.txq.getD q [] with
    | [] => d
    | f :: t =>
      let drop := d.setPort { x with txq := x.txq.set q t }
      if d.maxFrame l < f.length then (drop.bump Reg.qay_TX_OVERSIZE (portIx l)).settleHead l q n
      else if d.neverFits l q f then
        ((drop.bump Reg.qay_TX_NEVER_FITS (portIx l ++ [q])).raise (qayPage l) 6).settleHead l q n
      else d

/-- A head that has passed its check leaves its queue if the lists in force now never let it start (R183). -/
def Dev.refitHead (d : Dev) (l q : Nat) : Dev :=
  let x := d.port l
  match x.txq.getD q [] with
  | [] => d
  | f :: t =>
    if d.neverFits l q f then
      (((d.setPort { x with txq := x.txq.set q t }).bump Reg.qay_TX_NEVER_FITS (portIx l ++ [q])).raise (qayPage l) 6).settleHead l q
        t.length
    else d

/-- A frame handed to a transmit queue (R160, R170); into an empty queue it reaches the head (R172, R183). -/
def Dev.enqueueTx (d : Dev) (l q : Nat) (f : TxFrame) : Dev :=
  if !d.portExists l || !d.flag Reg.qay_PORT_EN (portIx l) then
    d.countRaise (qayPage l) 10 Reg.qay_QAY_NO_PORT [l / 4]
  else
    let x := d.port l
    let old := x.txq.getD q []
    let d := d.setPort { x with txq := x.txq.set q (old ++ [f]) }
    if old.isEmpty then d.settleHead l q 1 else d

/-- The pause of a priority that holds at this instant (R175). -/
def Dev.pauseOf (d : Dev) (l p : Nat) : Option Pause :=
  (d.port l).pauses.find? fun x => x.prio == p && decide (x.since ≤ d.ns) && decide (d.ns < x.until_)

/-- Whether queue `q` may start its head frame `frac` 2⁻¹⁶ ns past this instant (R170): its gate open long enough, its priority
not paused or its pause no longer honoured (R128). -/
def Dev.eligible (d : Dev) (l q : Nat) (frac : Nat := 0) : Bool :=
  match ((d.port l).txq.getD q []).head? with
  | none => false
  | some f =>
    (!d.flag Reg.qay_GATE_EN (portIx l) || fitsWindow (d.wireBits l f) (d.portRate l) (d.gateLeft l q) frac) &&
    match d.pauseOf l (d.txqPrio l q) with
    | none => true
    | some p => p.expired

/-- The queue whose head frame starts at this frame boundary: the highest that is eligible (R170). -/
def Dev.nextTxq (d : Dev) (l : Nat) (frac : Nat := 0) : Option Nat := [7, 6, 5, 4, 3, 2, 1, 0].find? (d.eligible l · frac)

/-- A transmit timestamp entered in the Quay's FIFO of 64 entries (R186). -/
def Dev.pushStamp (d : Dev) (s : TxStamp) : Dev :=
  let q := s.lport / 4
  if (d.qay.stamps.filter fun x => x.1 == q).length < 64 then
    { d with qay := { d.qay with stamps := d.qay.stamps ++ [(q, s)] } }
  else (d.bump Reg.qay_TXTS_OVF [q]).raise ⟨.qay, q⟩ 8

/-- Reading TXTS_FRAC of Quay q removes the head entry (R186, R187). -/
def Dev.popStamp (d : Dev) (q : Nat) : Dev :=
  match d.qay.stamps.find? fun x => x.1 == q with
  | none => d
  | some x => { d with qay := { d.qay with stamps := d.qay.stamps.erase x } }

/-! ### Arming and starting gate lists -/

/-- The checks of R179 on a list's count, cycle and entries. -/
def gateListOk (count cycle : Nat) (es : List (Nat × Nat)) : Bool :=
  decide (1 ≤ count) && decide (count ≤ 256) && es.all (fun e => decide (32 ≤ e.2) && decide (e.2 ≤ 1000000000)) &&
  (es.map (·.2)).sum == cycle &&
  ((decide (1000 ≤ cycle) && 1000000 % cycle == 0) ||
    (decide (0 < cycle) && cycle % 1000000 == 0 && decide (cycle ≤ 1000000000)))

/-- The first instant base + N × cycle at least 2 µs after the arm, and its N (R180). -/
def gateStart (base : Int) (cycle now : Nat) : Nat × Nat :=
  let n := ceilDiv ((now : Int) + 2000 - base).toNat cycle
  ((base + n * cycle).toNat, n)

/-- ARM on a port (R179, R180, R181); on a port that its Quay's mode does not have it has no effect (R187). -/
def Dev.gateArm (d : Dev) (l : Nat) : Dev :=
  if !d.portExists l then d else
  let ix := portIx l
  let bank := d.get Reg.qay_GATE_BANK ix
  let count := d.get Reg.qay_GATE_COUNT ix
  let cycle := d.get Reg.qay_GATE_CYCLE ix
  let es := d.gateEntries l bank (min count 256)
  if gateListOk count cycle es then
    let base := d.get64 Reg.qay_GATE_BASE_TIDE_LO Reg.qay_GATE_BASE_TIDE_HI ix * 1000000 + d.get Reg.qay_GATE_BASE_PHASE ix
    let start := gateStart base cycle d.ns
    let d := d.setPort { d.port l with pend := some (⟨bank, cycle, base, es⟩, start.1) }
    (d.set Reg.qay_GATE_PENDING 1 ix).set Reg.qay_GATE_CFG_BAD 0 ix
  else (d.set Reg.qay_GATE_CFG_BAD 1 ix).raise (qayPage l) 5

/-- LONGEST_WIN_t of the operational list (R183). -/
def Dev.noteLongest (d : Dev) (l : Nat) (g : GateList) : Dev :=
  (List.range 8).foldl (fun d t => d.set Reg.qay_LONGEST_WIN ((g.longest t).getD 0xFFFFFFFF) (portIx l ++ [t])) d

/-- An armed list becomes operational at its start instant (R180, R181, R57). -/
def Dev.gateListStart (d : Dev) (l : Nat) : Dev :=
  match (d.port l).pend with
  | none => d
  | some (g, start) =>
    if d.ns < start then d
    else
      let g := d.listNow l g
      let late := g.base < start
      let d := d.setPort { d.port l with oper := some g, pend := none }
      let d := ((d.set Reg.qay_GATE_PENDING 0 (portIx l)).set Reg.qay_GATE_OPER_BANK g.bank (portIx l)).set
        Reg.qay_GATE_LATE (bitOf late) (portIx l)
      let d := (List.range 8).foldl (·.refitHead l ·) (d.noteLongest l g)
      if late then d.raise (qayPage l) 4 else d

/-- A Tide break moves the base of a port's lists by the break's delta in Tides (R184). -/
def Dev.gateBreak (d : Dev) (delta : Int) : Dev :=
  let move (g : GateList) : GateList := { g with base := g.base + delta * 1000000 }
  let start (n : Nat) : Nat := (n + delta * 1000000).toNat
  { d with qay := { d.qay with ports := d.qay.ports.map fun x =>
      { x with oper := x.oper.map move, pend := x.pend.map fun y => (move y.1, start y.2) } } }

/-! ### Priority flow control (R171–R175, R128) -/

/-- The MAC address of a logical port (R242). -/
def Dev.lmac (d : Dev) (l : Nat) : Bytes :=
  beBytes 6 (d.get Reg.bwr_LMAC_LO [l] + 2 ^ 32 * d.get Reg.bwr_LMAC_HI [l])

/-- A PFC frame of IEEE 802.1Qbb, its FCS excluded, with these (priority, quanta). -/
def pfcFrame (src : Bytes) (due : List (Nat × Nat)) : Bytes :=
  let mask := due.foldl (fun m x => m ||| 2 ^ x.1) 0
  padTo 60 ([0x01, 0x80, 0xC2, 0x00, 0x00, 0x01] ++ src ++ [0x88, 0x08, 0x01, 0x01] ++ beBytes 2 mask ++
    (List.range 8).flatMap fun p => beBytes 2 ((assoc? p due).getD 0))

/-- A port's receive buffer asks for XOFF, or ends its request (R169): it had `before` bytes in it and has `after` now. -/
def Dev.rxBuffer (d : Dev) (l before after : Nat) : Dev :=
  let xoff := d.get Reg.qay_RXB_XOFF (portIx l)
  let xon := d.get Reg.qay_RXB_XON (portIx l)
  let x := d.port l
  let kept := x.rxbXoff && xoff != 0 && !decide (min before after < 1024 * xon)
  let now := kept || (xoff != 0 && decide (1024 * xoff < after))
  (d.setPort { x with rxBytes := after, rxAt := if after = 0 then 0 else d.ns, rxbXoff := now }).pfcEdge d l

/-- What a port's receive buffer holds by now: between frames it empties at the port's rate. -/
def Dev.rxNow (d : Dev) (l : Nat) : Nat := (d.port l).rxBytes - (d.ns - (d.port l).rxAt) * d.portRate l / 8

/-- A receive buffer that asks for XOFF is looked at again as it empties (R169). -/
def Dev.rxDrained (d : Dev) (l : Nat) : Dev := if (d.port l).rxbXoff then d.rxBuffer l (d.rxNow l) (d.rxNow l) else d

/-- Whether a PFC frame of the Quay's own goes ahead of every queue of a port (R171, R173, R160). -/
def Dev.pfcReady (d : Dev) (l : Nat) : Bool :=
  d.portExists l && d.flag Reg.qay_PORT_EN (portIx l) && d.flag Reg.qay_PFC_TX_EN (portIx l) && !(d.port l).pfcDue.isEmpty

/-- The PFC frame due on a port at this frame boundary, one frame for every priority due (R171, R174); a priority it pauses is
repeated half a pause time later. -/
def Dev.pfcTake (d : Dev) (l : Nat) : Dev × Option TxFrame :=
  let x := d.port l
  if d.pfcReady l then
    let again (y : Nat × Nat) : Nat × Nat := if x.pfcDue.any fun z => z.1 == y.1 then (y.1, d.ns + d.halfPause l) else y
    (d.setPort { x with pfcDue := [], xoff := x.xoff.map again }, some { bytes := pfcFrame (d.lmac l) x.pfcDue, note := .pfc })
  else (d, none)

/-- While XOFF of a priority holds, its frame is repeated every half pause time (R174). -/
def Dev.pfcRefresh (d : Dev) (l : Nat) : Dev :=
  let d := d.rxDrained l
  if d.flag Reg.qay_PFC_TX_EN (portIx l) then
    let x := d.port l
    let due := x.xoff.filter fun y => decide (y.2 ≤ d.ns)
    d.setPort (due.foldl (fun x y => x.due y.1 (d.get Reg.qay_PFC_QUANTA (portIx l))) x)
  else d

/-- The pauses of a port after a PFC frame paused priority `p` from `from_` to `till`: a pause that still holds then goes on to
`till`, one that ends before keeps its own end. -/
def pausesAfter (ps : List Pause) (now p from_ till : Nat) : List Pause :=
  let live := ps.filter fun y => y.prio != p || decide (now < y.until_)
  match live.find? fun y => y.prio == p && decide (from_ ≤ y.until_) with
  | some y => { y with until_ := till } :: live.erase y
  | none => live ++ [⟨p, till, from_, false⟩]

/-- A received PFC frame pauses, restarts or ends the priorities it enables (R173, R175): a pause holds from 200 ns after the last
byte of the frame, whose first bit crosses the reference plane at this instant. -/
def Dev.rxPfc (d : Dev) (l : Nat) (b : Bytes) : Dev :=
  if !d.flag Reg.qay_PFC_RX_EN (portIx l) then d
  else
    let mask := beAt b 16 2
    let wire := 8 * (b.length + 4)
    let from_ := d.ns + 200 + ceilDiv wire (d.portRate l)
    (List.range 8).foldl (fun d p =>
      if bitAt mask p then
        let quanta := beAt b (18 + 2 * p) 2
        let x := d.port l
        if quanta = 0 then d.setPort { x with pauses := x.pauses.filter fun y => y.prio != p }
        else
          let till := d.ns + 200 + ceilDiv (wire + quanta * 512) (d.portRate l)
          let going := x.pauses.any fun y => y.prio == p && decide (from_ ≤ y.until_)
          let d := d.setPort { x with pauses := pausesAfter x.pauses d.ns p from_ till }
          if going then d else d.raise (qayPage l) 7
      else d) d

/-- A received pause ends when its time has passed (R175). -/
def Dev.pauseEnd (d : Dev) (l p : Nat) : Dev :=
  let x := d.port l
  d.setPort { x with pauses := x.pauses.filter fun y => y.prio != p || decide (d.ns < y.until_) }

/-- A pause held longer than PAUSE_LIMIT Tides is no longer honoured (R128). -/
def Dev.pauseExpired (d : Dev) (l p : Nat) : Dev :=
  match d.pauseOf l p with
  | none => d
  | some y =>
    if !y.expired && decide (atLeast1 (d.get Reg.wfg_PAUSE_LIMIT) * 1000000 ≤ d.ns - y.since) then
      let x := d.port l
      (d.setPort { x with pauses := { y with expired := true } :: x.pauses.erase y }).raise wfgPage 3
    else d

/-! ### Mode, links -/

/-- The links of a Quay go down (R160, R164, R565). -/
def Dev.quayLinksDown (d : Dev) (q : Nat) : Dev :=
  if d.get Reg.qay_LINK_UP [q] = 0 then d else (d.set Reg.qay_LINK_UP 0 [q]).raise ⟨.qay, q⟩ 0

/-- The frames queued on a port that no longer exists, or whose EN is 0, are dropped and counted, and no PFC frame of its own is
due (R160). -/
def Dev.dropNoPort (d : Dev) (l : Nat) : Dev :=
  if d.portExists l && d.flag Reg.qay_PORT_EN (portIx l) then d
  else
    let x := d.port l
    (d.setPort { x with txq := List.replicate 8 [], pfcDue := [] }).countRaise (qayPage l) 10 Reg.qay_QAY_NO_PORT [l / 4]
      (x.txq.map List.length).sum

/-- What a write to a port's block does beside its store: the requests of its receive buffer (R169) and of its priorities (R173,
R174), the frames of a port switched off (R160), the heads of queues whose gates come into force (R183). `before` is the
device before the write. -/
def Dev.portWritten (d before : Dev) (l : Nat) : Dev :=
  let d := (d.rxBuffer l (d.rxNow l) (d.rxNow l)).pfcEdge before l
  let d := d.dropNoPort l
  if d.flag Reg.qay_GATE_EN (portIx l) && !before.flag Reg.qay_GATE_EN (portIx l) then (List.range 8).foldl (·.refitHead l ·) d else d

/-- A write to MODE of Quay q (R160): a change takes every link down. -/
def Dev.modeWrite (d : Dev) (q w : Nat) : Dev :=
  if d.pageState ⟨.qay, q⟩ = 3 ∨ d.pageState ⟨.qay, q⟩ = 0 then
    if d.get Reg.qay_MODE [q] = w % 4 then d
    else
      let d := (d.set Reg.qay_MODE w [q]).quayLinksDown q
      (List.range 4).foldl (fun d f => d.dropNoPort (4 * q + f)) d
  else d.logIgnored ⟨.qay, q⟩ (pageBase ⟨.qay, q⟩ + 0x040)

/-- Whether every PCS lane set of a Quay serves (R565). -/
def Dev.pcsOk (d : Dev) (q : Nat) : Bool := (List.range 4).all fun j => d.inService ⟨ukPcs, 4 * q + j⟩

/-- The link state of a port changes (R164): locked on every lane, a local fault, a remote fault received; `signal` has a bit for
each physical lane of the Quay that a signal is detected on. -/
def Dev.linkChange (d : Dev) (l : Nat) (locked local_ remote : Bool) (signal : Nat) : Dev :=
  let q := l / 4
  let s := l % 4
  if !d.live ⟨.qay, q⟩ || decide (16 ≤ l) then d else
  let d := d.set Reg.qay_SIGNAL signal [q]
  let old := d.linkUp l
  let oldRemote := bitAt (d.get Reg.qay_REMOTE_FAULT [q]) s
  let up := locked && !local_ && !remote && d.pcsOk q && d.portExists l && d.clkOk (1 + q / 2)
  let setBit (f : RegField) (v : Bool) (d : Dev) : Dev := d.set f (putBits (d.get f [q]) s s (bitOf v)) [q]
  let d := setBit Reg.qay_LINK_UP up (setBit Reg.qay_LOCAL_FAULT local_ (setBit Reg.qay_REMOTE_FAULT remote d))
  let d := if up != old then d.raise ⟨.qay, q⟩ 0 else d
  if remote && !oldRemote then d.raise ⟨.qay, q⟩ 1 else d

end Sys2Proof.Machine
end

