-- ==== Sys2Proof/Machine/Rows.lean ====
section
/-!
DEFINITION. Rows of the Berth Table: what changes them, the Berth cache (R140–R145), the classifier's keys (R138, R218),
tenants' ranges (R154) and the copies in Hold (R139, R145).
-/

namespace Sys2Proof.Machine

/-- The BTC page. -/
def btcPage : Page := ⟨.btc, 0⟩

/-! ### Access -/

/-- The Hold address of row `b` (R139). -/
def Dev.rowAddr (d : Dev) (b : Nat) : Nat := d.get Reg.btc_ROW_BASE * 65536 + 256 * b

/-- The Hold address of the key annex entry of row `b`. -/
def Dev.annexAddr (d : Dev) (b : Nat) : Nat := d.get Reg.btc_ANNEX_BASE * 65536 + 128 * b

/-! ### The Berth cache (R140–R145) -/

/-- The frame of the general partition that holds row `b`: the lines of the row it holds. -/
def Dev.frame? (d : Dev) (b : Nat) : Option (List Nat) := assoc? b d.btc.frames

/-- Whether the BTC holds a line of a row, and so does not read it from Hold: every line of a pinned row (R141), those of its
frame, and those it has not written back yet. The annex entry is not cached. -/
def Dev.lineHeld (d : Dev) (b line : Nat) : Bool :=
  decide (line < 4) && (d.rowGet b RowF.PINNED == 1 || d.btc.dirty.contains (b, line) ||
    ((d.frame? b).getD []).contains line)

/-- The Hold address of a line of a row; lines 4 and 5 are those of its annex entry. -/
def Dev.lineAddr (d : Dev) (b line : Nat) : Nat :=
  if line < 4 then d.rowAddr b + 64 * line else d.annexAddr b + 64 * (line - 4)

/-- Whether the one copy of a line is poisoned. -/
def Dev.poisonedLine (d : Dev) (b line : Nat) : Bool := !d.lineHeld b line && d.hold.poison.contains (d.lineAddr b line)

/-- Lines of a row marked dirty in the Tide in progress (R145). -/
def Dev.markDirty (d : Dev) (b : Nat) (lines : List Nat) : Dev :=
  { d with btc := { d.btc with dirty := lines.foldl (fun l i =>
      if l.contains (b, i) then l else l ++ [(b, i)]) d.btc.dirty } }

/-- The lines of a row image that differ. -/
def changedLines (old new : List Word) (n : Nat) : List Nat :=
  (List.range n).filter fun i => decide (slice old (16 * i) 16 ≠ slice new (16 * i) 16)

/-- N of R254: the next index of a row. -/
def Row.next (r : Row) : Nat := r.get RowF.TX_ROC * 65536 + r.get RowF.TX_SEQ

/-- N of row `b`: what its line holds, and 2^48 more once N has passed 2^48 − 1, so that no index goes out again. -/
def Dev.nextIndex (d : Dev) (b : Nat) : Nat := (d.row b).next + (if d.bnd.spent.contains b then 2 ^ 48 else 0)

/-- N of row `b` is to be `n`: whether it has passed what its line can hold. -/
def Dev.noteNext (d : Dev) (b n : Nat) : Dev :=
  if n < 2 ^ 48 ∨ d.bnd.spent.contains b then d else { d with bnd := { d.bnd with spent := b :: d.bnd.spent } }

/-- A row that is FREE begins again at what it is opened with. -/
def Dev.unspent (d : Dev) (b : Nat) (r : Row) : Dev :=
  if r.get RowF.STATE = stFree ∧ d.bnd.spent.contains b then { d with bnd := { d.bnd with spent := d.bnd.spent.filter (· != b) } }
  else d

/-- What a SEND record carries of a row (R541). -/
def Row.sendState (r : Row) : Nat × Nat × Nat := (r.next, r.get RowF.TX_TWSEQ, r.get RowF.SRTCP_TX_INDEX)

/-- A change of the send state of row `b`, noted once in a Tide with what it was (R541, R547). -/
def Dev.noteSend (d : Dev) (b : Nat) (old new : Row) : Dev :=
  if old.sendState = new.sendState ∨ (d.noted b).isSome then d
  else
    let (n, t, i) := old.sendState
    d.note (.send b n t i)

/-- The entry of zeros, which feeds nothing. -/
def Route.none : Route := ⟨0, 0, 0⟩

/-- The route entry of a source row as it stands in Hold (R280), if it can be read. -/
def Dev.fetchRoute (d : Dev) (b : Nat) : Dev × Option Route :=
  match d.holdWords (d.get Reg.fry_ROUTE_BASE * 65536 + 16 * b) 3 ⟨.fry, 0⟩ with
  | (d, .ok w) => (d, some ⟨wordAt w 0, wordAt w 1, wordAt w 2⟩)
  | (d, .error _) => (d, .none)

/-- The words of a list from the first to the last that differ from another's: the first's place, and they. -/
def changedSpan (old new : List Word) : Nat × List Word :=
  let diff := (List.range new.length).filter fun i => wordAt old i != wordAt new i
  match diff.head?, diff.getLast? with
  | some a, some z => (a, slice new a (z + 1 - a))
  | _, _ => (0, [])

/-- Row `b` replaced: the lines that change become dirty (R145), but for poisoned ones, which only a write of every line
makes good (R136, R524). The annex entry is not cached (R141), so what changes of it is written to Hold at once. -/
def Dev.setRow (d : Dev) (b : Nat) (r : Row) : Dev :=
  let old := d.row b
  let lines := (changedLines old.words r.words 4).filter fun i => !d.poisonedLine b i
  let (n, ws) := changedSpan old.annex r.annex
  let rows := assocPut Row.zero b r d.btc.rows
  let d := d.noteSend b old r
  let d := (({ d with btc := { d.btc with rows := rows } }).markDirty b lines).unspent b r
  if ws.isEmpty then d else d.holdStore (d.annexAddr b + 4 * n) (bytesOfWords ws) btcPage

/-- Which parts of a row differ, as the bits of the LINE_MASK of a LINES record: line 0, line 1 send half, line 1 receive
half, line 2, line 3, annex entry (R541). -/
def changedParts (old new : Row) : Nat :=
  let p (a n : Nat) : Bool := decide (slice old.words a n ≠ slice new.words a n)
  bitOf (p 0 16) + 2 * bitOf (p 16 8) + 4 * bitOf (p 24 8) + 8 * bitOf (p 32 16) + 16 * bitOf (p 48 16) +
    32 * bitOf (decide (old.annex ≠ new.annex))

/-- A command changed row `b` (R541): its LINES note stands ahead of what else the command noted, which `before` had
not. -/
def Dev.noteLines (d before : Dev) (b : Nat) : Dev :=
  let m := changedParts (before.row b) (d.row b)
  let k := before.mrg.notes.length
  if m = 0 ∨ d.role ≠ roleActive then d
  else { d with mrg := { d.mrg with notes := d.mrg.notes.take k ++ [.lines b m] ++ d.mrg.notes.drop k } }

/-- Row `b` changed by a function. -/
def Dev.mapRow (d : Dev) (b : Nat) (f : Row → Row) : Dev := d.setRow b (f (d.row b))

/-- A field of row `b` set. -/
def Dev.rowSet (d : Dev) (b : Nat) (f : RowField) (v : Nat) : Dev := d.mapRow b (·.set f v)

/-- A counter of row `b` advanced by one, wrapping. -/
def Dev.rowBump (d : Dev) (b : Nat) (f : RowField) (k : Nat := 1) : Dev := d.mapRow b (·.bump f k)

/-- The dirty lines written back to Hold (R145). -/
def Dev.writeBack (d : Dev) : Dev :=
  let d' := d.btc.dirty.foldl (fun d x =>
    d.holdStore (d.lineAddr x.1 x.2) (bytesOfWords (slice (d.row x.1).words (16 * x.2) 16)) btcPage) d
  { d' with btc := { d'.btc with dirty := [] } }

/-- Rows in state `s` (BTC_STATE_COUNT). -/
def Dev.stateCount (d : Dev) (s : Nat) : Nat :=
  let n := (d.btc.rows.filter fun x => x.2.get RowF.STATE == s).length
  if s = stFree then d.rowCount - (d.btc.rows.filter fun x => x.2.get RowF.STATE != stFree).length else n

/-- Rows pinned (BTC_PIN_USED). -/
def Dev.pinUsed (d : Dev) : Nat := (d.btc.rows.filter fun x => x.2.get RowF.PINNED == 1).length

/-! ### Hold regions of the BTC (R152) -/

/-- Whether `n` bytes from an address on touch the row or annex region. -/
def Dev.inRowRegion (d : Dev) (a n : Nat) : Bool :=
  overlap a n (d.get Reg.btc_ROW_BASE * 65536) (256 * d.rowCount) ||
    overlap a n (d.get Reg.btc_ANNEX_BASE * 65536) (128 * d.rowCount)

/-- The row that a block of Hold holds a line or a part of the annex entry of. -/
def Dev.rowOfBlock (d : Dev) (blk : Nat) : Option Nat :=
  let r := d.get Reg.btc_ROW_BASE * 65536
  let x := d.get Reg.btc_ANNEX_BASE * 65536
  if r ≤ blk ∧ blk < r + 256 * d.rowCount then some ((blk - r) / 256)
  else if x ≤ blk ∧ blk < x + 128 * d.rowCount then some ((blk - x) / 128)
  else none

/-! ### The classifier (R138, R218) -/

/-- A transport key (R218). -/
structure TransportKey where
  quay : Nat
  lport : Nat
  vlanEn : Nat
  vlanId : Nat
  remote : Bytes
  remotePort : Nat
  localAddr : Nat
  localPort : Nat
  deriving DecidableEq, Repr

/-- The transport key of a row; a row without VLAN_EN has no VLAN identifier to match. -/
def Row.transport (r : Row) : TransportKey :=
  ⟨r.get RowF.QUAY, r.get RowF.LPORT, r.get RowF.VLAN_EN, if r.get RowF.VLAN_EN = 1 then r.get RowF.VLAN_ID else 0,
    r.bytes 0x18 16, r.get RowF.REMOTE_PORT, r.get RowF.LOCAL_ADDR, r.get RowF.LOCAL_PORT⟩

/-- The rows of a transport group: those in the classifier with this key, by rising index. -/
def Dev.group (d : Dev) (k : TransportKey) : List Nat :=
  (d.btc.rows.filter fun x => x.2.get RowF.STATE != stFree && decide (x.2.transport = k)).map (·.1)

/-- The anchor of a transport group (R218). -/
def Dev.anchor (d : Dev) (k : TransportKey) : Option Nat :=
  let g := d.group k
  match g.find? fun b => d.rowState b == stOpening || d.rowState b == stLive with
  | some b => some b
  | none => g.head?

/-- Whether another row that is not FREE has this key and this non-zero RX_SSRC (R138). -/
def Dev.duplicate (d : Dev) (b : Nat) (r : Row) : Bool :=
  r.get RowF.RX_SSRC != 0 &&
  (d.group r.transport).any fun x => x != b && d.rowGet x RowF.RX_SSRC == r.get RowF.RX_SSRC

/-- The later of two Tide numbers modulo 2^32 (R234). -/
def laterTide (a b : Nat) : Nat := if (a + 2 ^ 32 - b) % 2 ^ 32 < 2 ^ 31 then a else b

/-- A change of rows under which the anchors of two keys may change: a row that becomes its group's anchor
takes the later CONSENT_TIDE of the former anchor and itself (R234). -/
def Dev.keepAnchors (before d : Dev) (ks : List TransportKey) : Dev :=
  ks.foldl (fun d k =>
    match before.anchor k, d.anchor k with
    | some a, some b =>
      if a = b then d
      else d.rowSet b RowF.CONSENT_TIDE (laterTide (d.rowGet b RowF.CONSENT_TIDE) (before.rowGet a RowF.CONSENT_TIDE))
    | _, _ => d) d

/-! ### Tenants (R154) -/

/-- The range of tenant t: its first index and the first beyond it. -/
def Dev.tenantRange (d : Dev) (t : Nat) : Nat × Nat :=
  (d.get Reg.btc_TRANGE_BASE [t] * 4096, d.get Reg.btc_TRANGE_LIMIT [t] * 4096)

/-- Whether an index lies in a tenant's range. -/
def Dev.inTenantRange (d : Dev) (t b : Nat) : Bool :=
  decide ((d.tenantRange t).1 ≤ b) && decide (b < (d.tenantRange t).2)

/-- The tenant of VF v (R587). -/
def Dev.vfTenant (d : Dev) (v : Nat) : Nat := d.get Reg.gwy_VF_TENANT [v - 1]

/-- A write to BTC_TRANGE_t (R154, R156). -/
def Dev.trangeWrite (d : Dev) (t w : Nat) : Dev :=
  let base := bits w 12 0
  let limit := bits w 29 16
  if d.rowCount < limit * 4096 then d.logIgnored btcPage (0x1D0400 + 4 * t)
  else if (List.range 64).any fun u =>
      u != t && decide (base < limit) && decide ((d.tenantRange u).1 < (d.tenantRange u).2) &&
      overlap (base * 4096) ((limit - base) * 4096) (d.tenantRange u).1 ((d.tenantRange u).2 - (d.tenantRange u).1) then
    d.raiseLog btcPage 5 (detail := leBytes 8 (0x1D0400 + 4 * t))
  else (d.set Reg.btc_TRANGE_BASE base [t]).set Reg.btc_TRANGE_LIMIT limit [t]

/-- A write to BTC_PIN_ROWS (R140). The general partition divides anew and begins empty (DESIGN CHOICE, log entry 139). -/
def Dev.pinRowsWrite (d : Dev) (w : Nat) : Dev :=
  if w % 16384 = 0 ∧ w ≤ 262144 ∧ d.pinUsed = 0 then
    { d with btc := { d.btc with frames := if w = d.get Reg.btc_PIN_ROWS then d.btc.frames else [] } }.set Reg.btc_PIN_ROWS w
  else d.logIgnored btcPage 0x1D0050

/-! ### Data-path access to a row (R136, R140–R144) -/

/-- The accesses of R144. -/
inductive RowUse where
  | media | stun | rtcp | copy | lsnCopy | ess | hst
  deriving DecidableEq, Repr

/-- The lines of a row that an access reads; 4 and 5 are those of its annex entry. -/
def RowUse.lines : RowUse → List Nat
  | .media => [0, 1, 4, 5]
  | .stun => [0, 4, 5]
  | .rtcp => [0, 1, 3, 4, 5]
  | .copy => [0, 1, 2, 3]
  | .lsnCopy => [0, 1, 2]
  | .ess => [0, 3]
  | .hst => [0]

/-- Whether an error response means that the row's content is lost: Hold is not ready, or maps no memory there, otherwise
(DEDUCED, log entry 138). -/
def HoldErr.losesRow : HoldErr → Bool
  | .ue | .poison | .ctrlFault => true
  | .unmapped | .notReady | .rmwFail => false

/-- Lines of a row read from Hold where the BTC does not hold them, and those that an uncorrectable error met. -/
def Dev.fetch (d : Dev) (b : Nat) (lines : List Nat) : Dev × List Nat :=
  lines.foldl (fun (x : Dev × List Nat) i =>
    if x.1.lineHeld b i then x
    else
      match x.1.readBlock (x.1.lineAddr b i) btcPage with
      | (d, .ok _) => (d, x.2)
      | (d, .error e) => (d, if e.losesRow then x.2 ++ [i] else x.2)) (d, [])

/-- The sets of the general partition: 16 frames each (R140). -/
def Dev.cacheSets (d : Dev) : Nat := (262144 - d.get Reg.btc_PIN_ROWS) / 16

/-- The set that row `b` falls into. -/
def Dev.cacheSet (d : Dev) (b : Nat) : Nat := Config.berthHash b % d.cacheSets

/-- The frames of the general partition without the one that a new row in the set of row `b` takes the place of: the least
recently used of a full set (R140). -/
def Dev.evicted (d : Dev) (b : Nat) : List (Nat × List Nat) :=
  let same := d.btc.frames.filter fun x => d.cacheSet x.1 == d.cacheSet b
  match same.getLast? with
  | some x => if same.length < 16 then d.btc.frames else assocDel x.1 d.btc.frames
  | none => d.btc.frames

/-- Row `b`, not pinned, was accessed: its frame holds the lines read, and is the most recently used; a row without a frame is
given one, but for an LSN row (R143). -/
def Dev.cacheTouch (d : Dev) (b : Nat) (lines : List Nat) : Dev :=
  match d.frame? b with
  | some l =>
    { d with btc := { d.btc with frames := (b, l ++ lines.filter fun i => !l.contains i) :: assocDel b d.btc.frames } }
  | none =>
    if d.rowGet b RowF.CLASS = classLsn ∨ d.cacheSets = 0 then d
    else { d with btc := { d.btc with frames := (b, lines) :: d.evicted b } }

/-- An access to lines of row `b`, and those that an uncorrectable error met. A row that is pinned or has a frame hits; hits and
misses of rows that are not LSN are counted (R143, R155). -/
def Dev.rowAccess (d : Dev) (b : Nat) (lines : List Nat) : Dev × List Nat :=
  let pinned := d.rowGet b RowF.PINNED == 1
  let d := if d.rowGet b RowF.CLASS = classLsn then d
    else d.bump (if pinned || (d.frame? b).isSome then Reg.btc_HIT else Reg.btc_MISS)
  let (d, bad) := d.fetch b lines
  (if pinned then d else d.cacheTouch b (lines.filter fun i => decide (i < 4) && !bad.contains i), bad)

end Sys2Proof.Machine
end

