-- ==== Sys2Proof/Machine/Berth.lean ====
section
/-!
DEFINITION. Fan slots (R293–R300) and the states of a row (R133): joining and leaving a segment, and every
transition with what it brings with it.
-/

namespace Sys2Proof.Machine

/-- The Ferry page. -/
def fryPage : Page := ⟨.fry, 0⟩

/-- A fan list, if it is defined (R292). -/
def Dev.fan? (d : Dev) (f : Nat) : Option FanList := d.fry.fans.find? (·.num == f)

/-- The segment of a fan list on a logical port (R293). -/
def Dev.seg? (d : Dev) (f l : Nat) : Option Segment := d.fry.segs.find? fun s => s.fan == f && s.lport == l

/-- The device with a segment replaced. -/
def Dev.setSeg (d : Dev) (x : Segment) : Dev :=
  { d with fry := { d.fry with segs := d.fry.segs.map fun s => if s.fan = x.fan ∧ s.lport = x.lport then x else s } }

/-- The slots of a segment: n × m × PI (R297). -/
def Segment.count (s : Segment) : Nat := s.lanes.length * s.m * s.pi

/-- A number's low `k` bits in reverse order. -/
def revBits : Nat → Nat → Nat
  | 0, _ => 0
  | k + 1, n => n % 2 * 2 ^ k + revBits k (n / 2)

/-- The least B with 2^B not less than `n`. -/
def log2Up (n : Nat) : Nat := ((List.range 33).find? fun b => decide (n ≤ 2 ^ b)).getD 32

/-- The first free slot in bit-reversed order of `k` numbers from `v` on (R298). -/
def Segment.freeFrom (s : Segment) (tide : Nat) : Nat → Nat → Option Nat
  | 0, _ => none
  | k + 1, v =>
    let n := revBits (log2Up s.count) v
    if n < s.count ∧ (s.slots.all fun x => x.1 != n) ∧ (s.leaving.all fun x => x.1 != n || decide (x.2 ≤ tide)) then
      some n
    else s.freeFrom tide k (v + 1)

/-- The slot a joining leg takes: the free one whose bit-reversed number is smallest (R298). -/
def Segment.freeSlot (s : Segment) (tide : Nat) : Option Nat := s.freeFrom tide (2 ^ log2Up s.count) 0

/-- O_k in tenths of a ns (R297). -/
def Segment.ofs (s : Segment) (k : Nat) : Nat :=
  let n := s.lanes.length
  let i := k % n
  let r := k / n
  let cell := 16 * (r % s.m) + s.lanes.getD i 0
  r / s.m * 10000000 + cell * s.cell

/-- The launch Tide of a fan list that follows Tide `t` (R292). -/
def nextLaunch (pi ofs t : Nat) : Nat := t + 1 + (ofs + pi - (t + 1) % pi) % pi

/-- What refuses a row's joining of its fan list on its port: another tenant's list (R294), a full cap (R78) or
no free slot (R299). A list without a segment there takes no member and refuses none. -/
def Dev.joinRefusal (d : Dev) (b : Nat) (r : Row) : Option Status :=
  let f := r.get RowF.FAN_LIST
  let l := r.get RowF.LPORT
  match d.fan? f with
  | none => none
  | some fl =>
    if fl.tenant ≠ r.get RowF.TENANT then some .refusedTenant
    else
      match d.seg? f l with
      | none => none
      | some s =>
        if s.slots.any (·.2 == b) then none
        else if s.cap ≤ s.slots.length then some .refusedBudget
        else if (s.freeSlot d.tide).isNone then some .refusedBudget
        else none

/-- A segment after row `b` left it in Tide `tide` (R298): its slot becomes free at the next launch. -/
def Segment.without (s : Segment) (b ofs tide : Nat) : Segment :=
  match s.slots.find? (·.2 == b) with
  | none => s
  | some x =>
    { s with
      slots := s.slots.filter (·.2 != b)
      leaving := (s.leaving.filter fun y => decide (tide < y.2)) ++ [(x.1, nextLaunch s.pi ofs tide)] }

/-- A leg leaves its slot, which becomes free at the end of the packet interval (R298). -/
def Dev.fanLeave (d : Dev) (b : Nat) : Dev :=
  let segs := d.fry.segs.map fun s => s.without b (((d.fan? s.fan).map (·.launchOfs)).getD 0) d.tide
  { d with fry := { d.fry with segs := segs } }

/-- A leg joins the segment of its fan list on its port (R298); with no segment its FAN_SLOT_OFS reads as that
of an orphan (R300). -/
def Dev.fanJoin (d : Dev) (b : Nat) : Dev :=
  let r := d.row b
  match d.seg? (r.get RowF.FAN_LIST) (r.get RowF.LPORT) with
  | none => d.rowSet b RowF.FAN_SLOT_OFS 0xFFFFFFFF
  | some s =>
    match s.slots.find? (·.2 == b), s.freeSlot d.tide with
    | some _, _ => d
    | none, none => d.rowSet b RowF.FAN_SLOT_OFS 0xFFFFFFFF
    | none, some k =>
      ((d.setSeg { s with slots := s.slots ++ [(k, b)] }).rowSet b RowF.FAN_SLOT_OFS (s.ofs k / 10)).note (.slot b true k)

/-- A segment ends with its reservation: its lanes are released, its members stay LIVE as orphans (R295, R300). -/
def Dev.segEnd (d : Dev) (handle : Nat) : Dev :=
  match d.fry.segs.find? (·.handle == handle) with
  | none => d
  | some s =>
    let d := { d with fry := { d.fry with segs := d.fry.segs.filter (·.handle != handle) } }
    let d := s.slots.foldl (fun d x => d.rowSet x.2 RowF.FAN_SLOT_OFS 0xFFFFFFFF) d
    if s.slots.isEmpty then d else d.raise fryPage 3

/-- The free wheel lanes of logical port `l` (LANES_FREE). -/
def Dev.lanesFree (d : Dev) (l : Nat) : List Nat :=
  (List.range 16).filter fun i => (d.fry.segs.filter (·.lport == l)).all fun s => !s.lanes.contains i

/-! ### Transitions (R133) -/

/-- Whether an admission is a RESERVE_FWD that names row `b`. -/
def Admission.namesRow (a : Admission) (b : Nat) : Bool :=
  match a.kind with
  | .reserve r => !r.fan && r.target == b
  | _ => false

/-- A pinned row that enters CLOSED is unpinned, and a reservation that names it ends at the next Tide boundary
(R142). -/
def Dev.unpinClosed (d : Dev) (b : Nat) : Dev :=
  if d.rowGet b RowF.PINNED = 1 then
    let d := d.mapRow b fun r => (r.set RowF.PINNED 0).set RowF.PIN_SLOT 0
    let adms := d.ldg.adms.map fun a => if a.namesRow b then { a with ending := true, rowClosed := true } else a
    { d with ldg := { d.ldg with adms := adms } }
  else d

/-- Row `b` enters a state. Leaving LIVE gives up the fan slot (R298), entering LIVE takes one, a row that
drains is timed (R133), a row that closes is unpinned (R142), and the group's anchor keeps its consent (R234). -/
def Dev.enter (d : Dev) (b st : Nat) : Dev :=
  let r := d.row b
  let old := r.get RowF.STATE
  let d1 := if old = stLive ∧ st ≠ stLive ∧ r.get RowF.CLASS = classLsn then d.fanLeave b else d
  let d2 := d1.rowSet b RowF.STATE st
  let d3 := if st = stLive ∧ old ≠ stLive ∧ r.get RowF.CLASS = classLsn then d2.fanJoin b else d2
  let rest := assocDel b d3.btc.drainSince
  let d4 := { d3 with btc := { d3.btc with
    drainSince := if st = stDraining then assocSet b d.tide rest else rest } }
  let d5 := if st = stClosed then d4.unpinClosed b else d4
  d.keepAnchors d5 [r.transport]

/-- A row goes to QUARANTINE with a cause (R133); what renewed its key before counts no more (R135). -/
def Dev.enterQuarantine (d : Dev) (b cause : Nat) : Dev :=
  let d := (d.enter b stQuarantine).rowSet b RowF.QCAUSE cause
  { d with btc := { d.btc with renewed := d.btc.renewed.filter (· != b) } }

/-- A hardware cause quarantines a row (R133): the BTC page and the tenant's event page report it (R157, R602). -/
def Dev.quarantine (d : Dev) (b cause : Nat) : Dev :=
  (((d.enterQuarantine b cause).note (.state b)).raise btcPage 0).raiseTenant (d.rowGet b RowF.TENANT) 0

/-- A LIVE row is quarantined by a hardware cause; a row in another state is not. -/
def Dev.quarantineLive (d : Dev) (b cause : Nat) : Dev :=
  if d.rowState b = stLive then d.quarantine b cause else d

/-- An uncorrectable Hold error in row `b` or its annex entry (R136); a standby asks its partner for the row (R552). -/
def Dev.rowUe (d : Dev) (b : Nat) : Dev :=
  let d := if d.follows then d.askRow b
    else if [stOpening, stLive, stDraining].contains (d.rowState b) then d.quarantine b causeUe else d
  d.raiseLog btcPage 2 1 b (d.rowGet b RowF.TENANT)

/-- A data-path access to row `b`: one that finds a line of the row, or its annex entry, uncorrectable meets an error in the
row (R136, R144). -/
def Dev.useRow (d : Dev) (b : Nat) (u : RowUse) : Dev :=
  match d.rowAccess b u.lines with
  | (d, []) => d
  | (d, _) => d.rowUe b

/-- The access of an egress copy of row `b` (R144). -/
def Dev.useCopy (d : Dev) (b : Nat) : Dev :=
  d.useRow b (if d.rowGet b RowF.CLASS = classLsn then .lsnCopy else if d.rowGet b RowF.CLASS = classEss then .ess else .copy)

/-- Blocks of the row and annex regions that another agent's read of Hold found uncorrectable meet the rows they belong to
(R136); `before` is the device before it. -/
def Dev.spotRows (d before : Dev) : Dev :=
  let found := d.hold.poisonLogged.filter fun a => !before.hold.poisonLogged.contains a
  ((found.filterMap d.rowOfBlock).eraseDups).foldl Dev.rowUe d

/-- The boundary at which a DRAINING row has drained (R133): DRAIN_TIDES, with 0 acting as 1. -/
def Dev.drainEnd (d : Dev) (b : Nat) : Option Nat :=
  (assoc? b d.btc.drainSince).map (· + atLeast1 (d.get Reg.btc_DRAIN_TIDES))

/-- A row enters CLOSED once its drain has lasted DRAIN_TIDES (R133). -/
def Dev.drainExpire (d : Dev) (b : Nat) : Dev :=
  match d.drainEnd b with
  | some t =>
    if d.rowState b = stDraining ∧ t ≤ d.tide ∧ d.follows = false then (d.enter b stClosed).note (.state b) else d
  | none => d

/-- The rows whose drain ends at the boundary of the Tide that begins, ahead of the staged commands due there (R151). -/
def Dev.drainsEnd (d : Dev) : Dev := (d.btc.drainSince.map Prod.fst).foldl Dev.drainExpire d

end Sys2Proof.Machine
end

