-- ==== Sys2Proof/Machine/BerthCmd.lean ====
section
/-!
DEFINITION. The commands of the Berth Table Controller (R146–R151, R156): their checks, their effects, and staged
commands.
-/

namespace Sys2Proof.Machine

/-! ### Ports -/

/-- The address of CMD0 of a BTC command port (R156, R588). -/
def btcPortAddr : BtcPort → Nat
  | .pf p => 0x1D0200 + 0x40 * p
  | .vf v => 0x10001000 + 0x10000 * v

/-- The address of ROW_IMAGE of a port. -/
def btcImageAddr : BtcPort → Nat
  | .pf p => 0x1D0800 + 0x100 * p
  | .vf v => 0x10001100 + 0x10000 * v

/-- `n` register words from an address on. -/
def Dev.wordsAt (d : Dev) (a n : Nat) : List Word := (List.range n).map fun i => d.word (a + 4 * i)

/-- Register words from an address on, written. -/
def Dev.setWords (d : Dev) (a : Nat) : List Word → Dev
  | [] => d
  | w :: t => (d.setWord a w).setWords (a + 4) t

/-- The tenant that a port's commands carry: none for the PF, which may name any row (R154). -/
def Dev.btcTenant (d : Dev) : BtcPort → Option Nat
  | .pf _ => none
  | .vf v => some (d.vfTenant v)

/-- OPCODE of a command (R147). -/
def btcOp (w : List Word) : Nat := wfld w 0 31 24

/-- STAGED of a command. -/
def btcStaged (w : List Word) : Bool := wfld w 0 16 16 == 1

/-- LINE_MASK of a command. -/
def btcMask (w : List Word) : Nat := wfld w 0 3 0

/-- BERTH of a command. -/
def btcBerth (w : List Word) : Nat := wfld w 1 24 0

/-- APPLY_TIDE of a command. -/
def btcTide (w : List Word) : Nat := wfld w 2 31 0 + 2 ^ 32 * wfld w 3 31 0

/-- Whether a command sets a reserved bit of its words (R12, R147). -/
def btcReserved (w : List Word) : Bool :=
  wfld w 0 23 17 != 0 || wfld w 0 15 4 != 0 || wfld w 1 31 25 != 0 || (slice w 4 4).any (· != 0)

/-- The commands that may be staged. -/
def btcStageable (op : Nat) : Bool := [0x02, 0x03, 0x04, 0x06, 0x07].contains op

/-- The states that a command is accepted in (R147). -/
def btcFrom : Nat → List Nat
  | 0x01 => [stFree]
  | 0x02 => [stOpening, stLive, stQuarantine]
  | 0x03 => [stOpening]
  | 0x04 => [stLive]
  | 0x05 => [stLive]
  | 0x06 => [stQuarantine]
  | 0x07 => [stOpening, stLive, stDraining, stQuarantine]
  | 0x08 => [stClosed]
  | 0x0C => [stOpening, stLive, stDraining, stClosed, stQuarantine]
  | _ => [stFree, stOpening, stLive, stDraining, stClosed, stQuarantine]

/-! ### The row an OPEN or a MODIFY writes -/

/-- The bits of word `i` of a row that a command image may write (R139, R148): `opn` for an OPEN, `opening` while
the row is OPENING, `pf` for a command of the PF, `mask` the LINE_MASK. -/
def writable (opn opening pf : Bool) (mask i : Nat) : Nat :=
  let l0 := bitAt mask 0
  let tx := bitAt mask 1 && (opn || opening)
  let rx := bitAt mask 2 && (opn || opening)
  let m (c : Bool) (v : Nat) : Nat := if c then v else 0
  match i with
  | 0 => m l0 (0x0FFF0000 + m pf 0x3F + m opn 0x700)
  | 1 => m l0 0x7FFF0FFF
  | 2 | 3 | 4 | 5 | 6 | 7 | 8 | 9 => m l0 0xFFFFFFFF
  | 10 => m l0 0xFF73FFFF
  | 11 => m l0 0x0FFFFFFF
  | 16 => m tx 0xFFFFFFFF
  | 17 => m tx 0xFFFFFFFF
  | 18 | 19 => m (bitAt mask 1) 0xFFFFFFFF
  | 24 => m rx 0xFFFFFFFF
  | 49 => m (bitAt mask 3) 0xFFFFFFFF
  | _ => 0

/-- A word with the bits of a mask taken from another. -/
def merge (old new : Word) (mask : Nat) : Word := (old &&& ~~~(BitVec.ofNat 32 mask)) ||| (new &&& BitVec.ofNat 32 mask)

/-- The words of a row with what an image may write written. -/
def imaged (old img : List Word) (f : Nat → Nat) : List Word :=
  (List.range 64).map fun i => merge (wordAt old i) (wordAt img i) (f i)

/-- The row an OPEN makes of its image (R147): the rest zero, GEN advanced, TENANT that of a VF. -/
def openedRow (old : Row) (img : List Word) (mask : Nat) (tenant : Option Nat) : Row :=
  let r : Row := { words := imaged Row.zero.words img (writable true true tenant.isNone mask), annex := Row.zero.annex }
  let r := match tenant with
    | some t => r.set RowF.TENANT t
    | none => r
  (r.set RowF.STATE stOpening).set RowF.GEN (old.get RowF.GEN + 1)

/-- The row a MODIFY makes of its image (R148). -/
def modifiedRow (old : Row) (img : List Word) (mask : Nat) (pf : Bool) : Row :=
  { old with words := imaged old.words img (writable false (old.get RowF.STATE == stOpening) pf mask) }

/-- The row that a released row becomes: zeros but for GEN. -/
def releasedRow (old : Row) : Row := Row.zero.set RowF.GEN (old.get RowF.GEN)

/-! ### Checks (R147, R148, R151) -/

/-- Whether a RESERVE_FWD names row `b` (R142). -/
def Dev.reservedRow (d : Dev) (b : Nat) : Bool := d.ldg.adms.any fun a => a.namesRow b

/-- Whether a MODIFY would move a LIVE LSN row to a segment it is not in (R299, R300). -/
def Dev.joinsBy (d : Dev) (b : Nat) (r : Row) : Bool :=
  let old := d.row b
  old.get RowF.STATE == stLive && old.get RowF.CLASS == classLsn &&
  !(d.fry.segs.any fun s => s.fan == r.get RowF.FAN_LIST && s.lport == r.get RowF.LPORT && s.slots.any (·.2 == b))

/-- The first free index from `n` on, the rows rising by index. -/
def firstFree (rows : List (Nat × Row)) (n : Nat) : Nat :=
  rows.foldl (fun n x => if x.1 = n ∧ x.2.get RowF.STATE ≠ stFree then n + 1 else n) n

/-- What FIND_FREE finds from an index on (R147). -/
def Dev.findFree (d : Dev) (t : Option Nat) (b : Nat) : Option Nat :=
  let last := match t with
    | some t => min d.rowCount (d.tenantRange t).2
    | none => d.rowCount
  let n := firstFree d.btc.rows b
  if n < last then some n else none

/-- A command's refusal for what depends only on itself and on the row as it stands (R151, first check). A VF's FIND_FREE is
not refused for the tenant of the row at its first index (DEDUCED, log entry 132), and a PIN of a pinned row that drains or is
quarantined is refused for its state (DEDUCED, log entry 133). -/
def Dev.btcRefusal (d : Dev) (port : BtcPort) (w img : List Word) : Option Status :=
  let op := btcOp w
  let b := btcBerth w
  let r := d.row b
  let st := r.get RowF.STATE
  let t := d.btcTenant port
  let mask := btcMask w
  let namesQuay := (op == 1 || op == 2) && bitAt mask 0
  if !d.flag Reg.btc_EN || d.follows then some .refusedNoUnit
  else if op = 0 ∨ 0x0E < op ∨ d.rowCount ≤ b then some .refusedParam
  else if namesQuay && !(d.present ⟨.qay, wfld img 0 17 16⟩ && d.present ⟨.qay, wfld img 0 21 18 / 4⟩) then
    some .refusedNoUnit
  else if (t.map fun t => !d.inTenantRange t b || (op != 0x0D && st != stFree && r.get RowF.TENANT != t)).getD false then
    some .refusedTenant
  else if btcReserved w || (btcStaged w && !btcStageable op) then some .refusedParam
  else if !(btcFrom op).contains st then some .refusedParam
  else
    match op with
    | 0x01 =>
      let r' := openedRow r img mask t
      if 6 ≤ r'.get RowF.CLASS then some .refusedParam else none
    | 0x02 => if !btcStaged w && decide (1 < ((List.range 4).filter (bitAt mask)).length) then some .refusedParam else none
    | 0x03 =>
      if r.get RowF.PROFILE = 0 ∧ r.get RowF.CLASS ≠ classEss ∧ r.get RowF.CLASS ≠ classHst then some .refusedParam
      else none
    | 0x0A =>
      if ! [classFwd, classXcd, classTrk, classEss].contains (r.get RowF.CLASS) || !(st == stOpening || st == stLive) then
        some .refusedParam else none
    | 0x0B => if r.get RowF.PINNED = 0 ∨ d.reservedRow b = true then some .refusedParam else none
    | _ => none

/-- A command's refusal for what depends on other rows, shared resources or what was done since (R151, second
check). -/
def Dev.btcShared (d : Dev) (port : BtcPort) (w img : List Word) : Option Status :=
  let b := btcBerth w
  let r := d.row b
  let t := d.btcTenant port
  match btcOp w with
  | 0x01 => if d.duplicate b (openedRow r img (btcMask w) t) then some .refusedParam else none
  | 0x02 =>
    let r' := modifiedRow r img (btcMask w) t.isNone
    if d.duplicate b r' then some .refusedParam
    else if bitAt (btcMask w) 0 && d.joinsBy b r' then d.joinRefusal b r'
    else none
  | 0x03 => if r.get RowF.CLASS = classLsn then d.joinRefusal b r else none
  | 0x06 =>
    if r.get RowF.QCAUSE = causeUe then some .refusedParam
    else if r.get RowF.QCAUSE = causeKey ∧ !d.btc.renewed.contains b then some .refusedParam
    else if r.get RowF.CLASS = classLsn then d.joinRefusal b r
    else none
  | 0x0A => if r.get RowF.PINNED = 0 ∧ d.get Reg.btc_PIN_ROWS ≤ d.pinUsed then some .refusedBudget else none
  | 0x0D => if (d.findFree t b).isNone then some .refusedBudget else none
  | _ => none

/-! ### Effects -/

/-- Every line and the annex entry of row `b` written whole, which clears poison (R136). -/
def Dev.writeWhole (d : Dev) (b : Nat) (r : Row) : Dev :=
  ((d.setRow b r).markDirty b [0, 1, 2, 3, 4, 5]).holdStore (d.annexAddr b) (bytesOfWords r.annex) btcPage

/-- OPEN. -/
def Dev.btcOpen (d : Dev) (port : BtcPort) (b mask : Nat) (img : List Word) : Dev :=
  let r := openedRow (d.row b) img mask (d.btcTenant port)
  d.keepAnchors (d.writeWhole b r) [r.transport]

/-- The slot a row holds on its wheel. -/
def Dev.fanSlot? (d : Dev) (b : Nat) : Option Nat :=
  d.fry.segs.findSome? fun s => (s.slots.find? (·.2 == b)).map Prod.fst

/-- A slot left by a row that stays LIVE, noted (R541). -/
def Dev.noteLeft (d : Dev) (b : Nat) : Option Nat → Dev
  | some k => d.note (.slot b false k)
  | none => d

/-- MODIFY: the row changes, the classifier with it, and a LIVE LSN row moves to its new segment (R299). -/
def Dev.btcModify (d : Dev) (port : BtcPort) (b mask : Nat) (img : List Word) : Dev :=
  let old := d.row b
  let r := modifiedRow old img mask (d.btcTenant port).isNone
  let d1 := d.setRow b r
  let d2 := if bitAt mask 0 && d.joinsBy b r then ((d1.fanLeave b).noteLeft b (d.fanSlot? b)).fanJoin b else d1
  d.keepAnchors d2 [old.transport, r.transport]

/-- ACTIVATE (R134, R234). -/
def Dev.btcActivate (d : Dev) (b : Nat) : Dev :=
  (d.mapRow b fun r => (r.set RowF.CONSENT_TIDE d.tide).set RowF.EST_BPS (d.get Reg.bwr_EST_INIT)).enter b stLive

/-- RESUME. -/
def Dev.btcResume (d : Dev) (b : Nat) : Dev := (d.rowSet b RowF.QCAUSE 0).enter b stLive

/-- RELEASE. -/
def Dev.btcRelease (d : Dev) (b : Nat) : Dev :=
  d.keepAnchors (d.writeWhole b (releasedRow (d.row b))) [(d.row b).transport]

/-- READ: the row as ROW_IMAGE shows it, SEND_KEY_WRAP as zero, and a poisoned line as zeros (R136, R147). -/
def Dev.btcRead (d : Dev) (port : BtcPort) (b : Nat) : Dev :=
  let r := (d.row b).setBytes 0x80 (List.replicate 48 0)
  let (d, bad) := d.fetch b [0, 1, 2, 3]
  let ws := bad.foldl (fun ws i => splice ws (16 * i) (List.replicate 16 0)) r.words
  let d := d.setWords (btcImageAddr port) ws
  if bad.isEmpty then d else d.rowUe b

/-- The Ferry keeps the route of a row that is pinned from now on (R280). -/
def Dev.keepRoute (d : Dev) (b : Nat) : Dev :=
  match d.fetchRoute b with
  | (d, some e) => { d with fry := { d.fry with routes := assocPut Route.none b e d.fry.routes } }
  | (d, none) => d

/-- PIN: the row takes a free frame of the pinned partition, which its lines are read into; which one the spec leaves open
(R140–R142). -/
def Dev.btcPin (d : Dev) (b : Nat) : Dev :=
  if d.rowGet b RowF.PINNED = 1 then d
  else
    let used := (d.btc.rows.filter fun x => x.2.get RowF.PINNED == 1).map fun x => x.2.get RowF.PIN_SLOT
    let frees := (List.range (d.get Reg.btc_PIN_ROWS)).filter fun i => !used.contains i
    let (d, n) := d.draw
    let (d, bad) := d.fetch b [0, 1, 2, 3]
    let d := { d with btc := { d.btc with frames := assocDel b d.btc.frames } }
    let d := d.mapRow b fun r => (r.set RowF.PINNED 1).set RowF.PIN_SLOT (frees.getD (n % frees.length) 0)
    let d := d.keepRoute b
    if bad.isEmpty then d else d.rowUe b

/-- UNPIN. -/
def Dev.btcUnpin (d : Dev) (b : Nat) : Dev := d.mapRow b fun r => (r.set RowF.PINNED 0).set RowF.PIN_SLOT 0

/-- CLEAR_COUNTERS: the counters of line 3, TX_PKTS and TX_OCTETS. -/
def Dev.btcClear (d : Dev) (b : Nat) : Dev :=
  d.mapRow b fun r => [RowF.TX_PKTS, RowF.TX_OCTETS, RowF.RX_PKTS, RowF.RX_OCTETS, RowF.RX_LOST, RowF.AUTH_FAIL,
    RowF.REPLAY_DROP, RowF.POLICE_DROP, RowF.NACK_RX, RowF.PLI_TX, RowF.FIR_TX].foldl (fun r f => r.set f 0) r

/-- What an accepted command does (R147). -/
def Dev.btcDo (d : Dev) (port : BtcPort) (w img : List Word) : Dev :=
  let b := btcBerth w
  match btcOp w with
  | 0x01 => d.btcOpen port b (btcMask w) img
  | 0x02 => d.btcModify port b (btcMask w) img
  | 0x03 => d.btcActivate b
  | 0x04 => d.enter b stDraining
  | 0x05 => d.enterQuarantine b causeCommand
  | 0x06 => d.btcResume b
  | 0x07 => d.enter b stClosed
  | 0x08 => d.btcRelease b
  | 0x09 => d.btcRead port b
  | 0x0A => d.btcPin b
  | 0x0B => d.btcUnpin b
  | 0x0C => d.btcClear b
  | 0x0E => { d with btc := { d.btc with staged := d.btc.staged.filter fun (s : StagedCmd) => s.berth != b } }
  | _ => d

/-- The effect of an accepted command (R147), noted for the delta (R541). -/
def Dev.btcEffect (d : Dev) (port : BtcPort) (w img : List Word) : Dev :=
  (d.btcDo port w img).noteLines d (btcBerth w)

/-! ### A command at its port -/

/-- The result registers of a port: BUSY clear, VALID, APPLY, FOUND_STATE and STATUS (R156). -/
def Dev.btcResult (d : Dev) (port : BtcPort) (apply found : Nat) (st : Status) : Dev :=
  d.setWord (btcPortAddr port + 0x24) (BitVec.ofNat 32 (2 ^ 30 + apply * 2 ^ 27 + found * 2 ^ 24 + st.code))

/-- A staged command that is its port's last no more (R156). -/
def StagedCmd.aged (s : StagedCmd) (port : BtcPort) : StagedCmd := if s.port = port then { s with last := false } else s

/-- A command taken for its apply Tide: a second one for a row replaces the first (R149). -/
def Dev.btcStage (d : Dev) (port : BtcPort) (w img : List Word) (found : Nat) : Dev :=
  let b := btcBerth w
  let rest := d.btc.staged.filter fun (s : StagedCmd) => s.berth != b
  if 16384 ≤ rest.length then d.btcResult port 0 found .refusedBudget
  else
    let t := btcTide w
    let s : StagedCmd := ⟨b, port, w, img, t, decide (t ≤ d.tide), true⟩
    ({ d with btc := { d.btc with staged := rest ++ [s] } }).btcResult port 1 found .done

/-- GO of a BTC command port (R146–R151): the command in its registers is checked, staged or executed. -/
def Dev.btcGo (d : Dev) (port : BtcPort) : Dev :=
  let w := d.wordsAt (btcPortAddr port) 8
  let img := d.wordsAt (btcImageAddr port) 64
  let found := if d.rowCount ≤ btcBerth w then 0 else d.rowState (btcBerth w)
  let d := { d with btc := { d.btc with staged := d.btc.staged.map fun (s : StagedCmd) => s.aged port } }
  match d.btcRefusal port w img with
  | some st => d.btcResult port 0 found st
  | none =>
    if btcStaged w then d.btcStage port w img found
    else
      match d.btcShared port w img with
      | some st =>
        let d := if btcOp w = 0x0A then d.raise btcPage 3 else d
        d.btcResult port 0 found st
      | none =>
        let d := if btcOp w = 0x0D then
            d.setWord (btcPortAddr port + 0x28) (BitVec.ofNat 32 ((d.findFree (d.btcTenant port) (btcBerth w)).getD 0))
          else d
        (d.btcEffect port w img).btcResult port 0 found .done

/-- The APPLY field of a staged command's port, while it is the port's last command (R156). -/
def Dev.btcApplied (d : Dev) (s : StagedCmd) (apply : Nat) : Dev :=
  let a := btcPortAddr s.port + 0x24
  if s.last then d.setWord a (Word.withFld (d.word a) 29 27 apply) else d

/-- A staged command at its apply Tide (R150, R151): checked again, applied or dropped. -/
def Dev.btcApply (d : Dev) (s : StagedCmd) : Dev :=
  let found := d.rowState s.berth
  let bad := match d.btcRefusal s.port s.words s.image with
    | some st => some st
    | none => d.btcShared s.port s.words s.image
  match bad with
  | some _ =>
    (d.btcApplied s 4).raiseLog btcPage 1 1 s.berth (d.rowGet s.berth RowF.TENANT) (leBytes 4 s.berth ++ leBytes 1 found)
  | none => (d.btcEffect s.port s.words s.image).btcApplied s (if s.late then 3 else 2)

/-- The staged commands due in the Tide that begins, in the order they were accepted (R150). -/
def Dev.btcStagedApply (d : Dev) : Dev :=
  let due := d.btc.staged.filter fun (s : StagedCmd) => decide (s.applyTide ≤ d.tide)
  let d := { d with btc := { d.btc with staged := d.btc.staged.filter fun (s : StagedCmd) => decide (d.tide < s.applyTide) } }
  due.foldl Dev.btcApply d

end Sys2Proof.Machine
end

