-- ==== Sys2Proof/Machine/AbxCmd.lean ====
section
/-!
DEFINITION. Abacus commands (R321, R322, R327–R329, R338–R343, R348–R352).
-/

namespace Sys2Proof.Machine

/-- The address of CMD0 of Abacus command port p. -/
def abxPortAddr (p : Nat) : Nat := 0x100100 + 0x40 * p

/-- The commands that may be staged (R352). -/
def abxStageable (op : Nat) : Bool := [0x02, 0x03, 0x04, 0x05, 0x06].contains op

/-- TARGET of a command, and the mix and entry an XP command names. -/
def abxTarget (w : List Word) : Nat := wfld w 1 24 0
def xpMix (w : List Word) : Nat := wfld w 1 18 6
def xpEntry (w : List Word) : Nat := wfld w 1 5 0

/-- The record a command changes (R339): an input, a mix, a path or a cross-point entry. -/
def abxKey (w : List Word) : Nat :=
  match btcOp w with
  | 0x02 => abxTarget w
  | 0x03 => 2 ^ 25 + abxTarget w
  | 0x06 => 2 ^ 26 + abxTarget w
  | _ => 2 ^ 27 + abxTarget w

/-- The argument bits of W4 to W7 that a command does not use. -/
def abxReserved (w : List Word) : Bool :=
  let spare := fun (i : Nat) (mask : Word) => (wordAt w i) &&& ~~~mask != 0
  wfld w 0 23 17 != 0 || wfld w 0 15 0 != 0 || wfld w 1 31 25 != 0 ||
  match btcOp w with
  | 0x01 => spare 4 0x1FFF1F3F || spare 6 0x7FFF7F00 || spare 7 0x3FFFF
  | 0x02 => spare 4 0x1FFF0007 || spare 5 0x30FFF || spare 6 0x3FF || spare 7 0
  | 0x03 => spare 4 0xFFF30FFF || spare 5 0x1FFFF || spare 6 0xFFFFFF || spare 7 0xFFFF7F00
  | 0x04 => spare 4 0x7F010FFF || spare 5 0x3FFFF || spare 6 0 || spare 7 0
  | 0x05 => spare 4 0x7F000000 || spare 5 0 || spare 6 0 || spare 7 0
  | 0x06 => spare 5 0 || spare 6 0 || spare 7 0
  | 0x07 => spare 4 0xC0000000 || spare 5 0 || spare 6 0 || spare 7 0
  | _ => false

/-- Whether a parameter block of 64 words is one that R349 allows. -/
def dressOk (p : List Word) : Bool :=
  let clear := fun (i : Nat) (mask : Word) => (wordAt p i) &&& ~~~mask == 0
  clear 40 0x1FF && clear 41 0xFFFF00FF && clear 43 0x3FFFF && clear 44 0xFFFF &&
  ((List.range 19).all fun i => wordAt p (45 + i) == 0) &&
  decide (0x10 ≤ wfld p 41 7 0) && decide (wfld p 43 17 0 ≤ 0x3FB27) && decide (wfld p 44 15 0 ≤ 48000)

/-- Whether a dressing lane is lost, so that its paths serve no input (R320). -/
def Dev.pathLost (d : Dev) (p : Nat) : Bool := (assoc? (p / 128) d.abx.dressLost).isSome

/-- Whether another input uses a path, or a change that waits would make it so (R348). -/
def Dev.pathTaken (d : Dev) (i p : Nat) : Bool :=
  (d.abx.inputs.any fun x => x.1 != i && x.2.path == some p &&
    !(d.abx.held.any fun (s : StagedWords) => btcOp s.words == 0x02 && abxTarget s.words == x.1)) ||
  d.abx.held.any fun (s : StagedWords) =>
    btcOp s.words == 0x02 && abxTarget s.words != i && wfld s.words 6 9 0 == p

/-- The entries of a mix in use, those counted that held XP_SETs are about to take (R329). -/
def Dev.entriesInUse (d : Dev) (m : Nat) : List Nat :=
  let now := (d.entriesOf m).map (·.1)
  let soon := d.abx.held.filterMap fun (s : StagedWords) =>
    if btcOp s.words = 0x04 ∧ xpMix s.words = m then some (xpEntry s.words) else none
  now ++ (soon.filter fun e => !now.contains e).eraseDups

/-- Whether a BASIN_SET is refused while a mix of the Basin is admitted (R352). -/
def Dev.basinFixed (d : Dev) (b : Nat) (w : List Word) : Bool :=
  match assoc? b d.abx.basins with
  | none => false
  | some x =>
    ((wordAt w 4 ^^^ wordAt x.args 0) &&& 0x1FFF1F3F) != 0 &&
    d.abx.mixes.any fun m => m.2.basin == some b && (d.mixSlot m.1).isSome

/-- A field whose zero stands for a default. -/
def orDefault (v dflt : Nat) : Nat := if v = 0 then dflt else v

/-- The Basin that a BASIN_SET describes (R343, R352); a TALK_GAIN above the largest gain acts as it (R327). -/
def basinOf (w : List Word) : Basin :=
  { args := slice w 4 4, tenant := wfld w 4 5 0, k := wfld w 4 12 8, mixBase := wfld w 4 28 16,
    hyst := toSigned 16 (orDefault (wfld w 5 31 16) 0x0300), floor := toSigned 16 (orDefault (wfld w 5 15 0) 0xD800),
    lead := orDefault (wfld w 6 30 24) 8, hold := orDefault (wfld w 6 23 16) 100, ramp := orDefault (wfld w 6 14 8) 5,
    gain := min 0x3FB27 (orDefault (wfld w 7 17 0) 0x10000) }

/-- Whether a BASIN_SET would leave an admitted mix with more entries in use than it was admitted with (R329), or make its talker
mixes those of another Basin too (R321, R343). -/
def Dev.basinClash (d : Dev) (n : Nat) (w : List Word) : Bool :=
  let b := basinOf w
  let old := ((assoc? n d.abx.basins).map Basin.entries).getD []
  let talk := b.entries
  b.k != 0 && ((List.range (b.k + 1)).any fun j =>
    let m := b.mixBase + j
    let mine := (d.entriesInUse m).filter fun e => !old.contains (64 * m + e) && !talk.contains (64 * m + e)
    ((d.mixSlot m).isSome && decide (d.contributors m < mine.length + (talk.filter fun k => k / 64 == m).length)) ||
    d.abx.basins.any fun x => x.1 != n && decide (0 < x.2.k) && decide (x.2.mixBase ≤ m) && decide (m ≤ x.2.mixBase + x.2.k))

/-- A field that runs from `lo` to `hi`, and where 0 stands for the default. -/
def zeroOr (lo hi n : Nat) : Bool := n == 0 || (decide (lo ≤ n) && decide (n ≤ hi))

/-- Whether a channel number lies outside the ranges of R355: kind 2 is the APU's, kind 3 the ESS's. -/
def noChannel (kind c : Nat) : Bool := (kind == 2 && decide (264 ≤ c)) || (kind == 3 && decide (512 ≤ c))

/-- Whether a mix other than `m` names a destination channel, now or by a MIX_SET held for the next boundary (R356). -/
def Dev.channelTaken (d : Dev) (m kind c : Nat) (boundary : Bool) : Bool :=
  (kind == 2 || kind == 3) &&
  (d.abx.mixes.any (fun x => x.1 != m && x.2.args.isSome && x.2.destKind == kind && x.2.destIndex == c) ||
    (!boundary && d.abx.held.any fun (s : StagedWords) =>
      btcOp s.words == 0x03 && abxTarget s.words != m && wfld s.words 4 21 20 == kind && wfld s.words 4 31 22 == c))

/-- What refuses an Abacus command (R320, R322, R327, R329, R341, R343, R348, R349, R352); `boundary` is set where
a staged command is checked again. -/
def Dev.abxRefusal (d : Dev) (w : List Word) (boundary : Bool) : Option Status :=
  let op := btcOp w
  let x := abxTarget w
  if abxReserved w || (btcStaged w && !abxStageable op) then some .refusedParam
  else
    match op with
    | 0x01 =>
      let k := wfld w 4 12 8
      if 4096 ≤ x ∨ 16 < k ∨ (k ≠ 0 ∧ 8191 < wfld w 4 28 16 + k) ∨ !zeroOr 2 64 (wfld w 6 30 24) ∨
        !zeroOr 1 64 (wfld w 6 14 8) ∨ d.basinFixed x w ∨ d.basinClash x w then some .refusedParam else none
    | 0x02 =>
      let b := wfld w 5 11 0
      let p := wfld w 6 9 0
      let kind := wfld w 4 2 0
      let other := match d.mixTenant (wfld w 4 28 16), d.basinTenant b with
        | some t, some u => kind == 4 && t != u
        | _, _ => false
      if p < 512 ∧ d.pathLost p then some .refusedNoUnit
      else if other then some .refusedTenant
      else if 4096 ≤ x ∨ 4 < kind ∨ (d.basinTenant b).isNone ∨ (p ≠ 0x3FF ∧ 512 ≤ p) ∨ noChannel kind (wfld w 4 28 16)
      then some .refusedParam
      else if p < 512 ∧ (if boundary then d.abx.inputs.any fun y => y.1 != x && y.2.path == some p else d.pathTaken x p)
      then some .refusedParam
      else none
    | 0x03 =>
      let b := wfld w 4 11 0
      let moved := (d.mixSlot x).isSome && (d.mix x).basin != some b
      let cr := wfld w 7 14 8
      if 8192 ≤ x ∨ (d.basinTenant b).isNone ∨ 65536 < wfld w 5 16 0 ∨ moved ∨ 64 < cr ∨
        (wfld w 4 16 16 = 1 ∧ cr = 0) ∨ noChannel (wfld w 4 21 20) (wfld w 4 31 22) ∨
        d.channelTaken x (wfld w 4 21 20) (wfld w 4 31 22) boundary then some .refusedParam else none
    | 0x04 =>
      let m := xpMix w
      let e := xpEntry w
      let i := wfld w 4 11 0
      let ramp := wfld w 4 30 24
      let other := match d.inputTenant i, d.mixTenant m with
        | some t, some u => t != u
        | _, _ => false
      if other then some .refusedTenant
      else if x / 2 ^ 19 ≠ 0 ∨ ramp = 0 ∨ 64 < ramp ∨ d.talkerEntry m e then some .refusedParam
      else
        match assoc? (64 * m + e) d.abx.entries with
        | some y => if y.input ≠ i ∧ (y.gainNow d.tide ≠ 0 ∨ (!boundary ∧ y.gainNow (d.tide + 1) ≠ 0)) then some .refusedParam else none
        | none =>
          let used := if boundary then (d.entriesOf m).map (·.1) else d.entriesInUse m
          if !used.contains e && decide (d.contributors m ≤ used.length) then some .refusedBudget else none
    | 0x05 =>
      let ramp := wfld w 4 30 24
      if x / 2 ^ 19 ≠ 0 ∨ ramp = 0 ∨ 64 < ramp ∨ d.talkerEntry (xpMix w) (xpEntry w) then some .refusedParam
      else if (assoc? (64 * xpMix w + xpEntry w) d.abx.entries).isSome ||
        (!boundary && (d.entriesInUse (xpMix w)).contains (xpEntry w)) then none
      else some .refusedParam
    | 0x06 => if 512 ≤ x ∨ !dressOk (w.drop 8) then some .refusedParam else none
    | 0x07 =>
      let lim := match wfld w 4 31 30 with
        | 1 => 8192
        | 2 => 2 ^ 19
        | _ => 4096
      if lim ≤ x then some .refusedParam else none
    | _ => some .refusedParam

/-- BASIN_SET (R343, R352): the record, and the talker entries of its mixes in use with gain zero. -/
def Dev.basinSet (d : Dev) (n : Nat) (w : List Word) : Dev :=
  let old := assoc? n d.abx.basins
  let same := match old with
    | some x => ((wordAt w 4 ^^^ wordAt x.args 0) &&& 0x1FFF1F00) == 0
    | none => false
  let b := basinOf w
  match old with
  | some x =>
    if same then d.setBasin n { b with slots := x.slots, swaps := x.swaps }
    else
      let d := x.entries.foldl Dev.dropEntry d
      b.entries.foldl (fun d k => d.setEntry k ⟨[0, 0], 0, false, 0, 0, d.tide, 1, false⟩) (d.setBasin n b)
  | none => b.entries.foldl (fun d k => d.setEntry k ⟨[0, 0], 0, false, 0, 0, d.tide, 1, false⟩) (d.setBasin n b)

/-- The effect of a change to an input, a mix, an entry or a path at the boundary that begins `d.tide` (R338). -/
def Dev.abxChange (d : Dev) (w : List Word) : Dev :=
  let x := abxTarget w
  match btcOp w with
  | 0x02 =>
    let old := (d.input? x).getD { args := [] }
    let mute := wfld w 5 17 17 == 1
    let at_ := if mute = old.mute then old.muteAt else some d.tide
    d.setInput x { old with args := slice w 4 3, mute := mute, muteAt := at_ }
  | 0x03 => d.setMix x { d.mix x with args := some (slice w 4 4) }
  | 0x04 =>
    let k := 64 * xpMix w + xpEntry w
    let e := (assoc? k d.abx.entries).getD ⟨[0, 0], 0, false, 0, 0, d.tide, 1, false⟩
    let e := e.rampTo d.tide (min (wfld w 5 17 0) 0x3FB27) (wfld w 4 30 24)
    d.setEntry k { e with args := slice w 4 2, input := wfld w 4 11 0, invert := wfld w 4 16 16 == 1, clearing := false }
  | 0x05 =>
    let k := 64 * xpMix w + xpEntry w
    match assoc? k d.abx.entries with
    | some e => d.setEntry k { e.rampTo d.tide 0 (wfld w 4 30 24) with clearing := true }
    | none => d
  | 0x06 =>
    let p := (assoc? x d.abx.paths).getD { params := [] }
    { d with abx := { d.abx with paths := assocSet x { p with params := w.drop 8 } d.abx.paths } }
  | _ => d

/-- READ of a record: its argument words; of an entry also its gain in effect and whether it is in use. -/
def Dev.abxReadWords (d : Dev) (w : List Word) : List Word :=
  let x := abxTarget w
  let l := match wfld w 4 31 30 with
    | 0 => ((d.input? x).map (·.args)).getD []
    | 1 => (d.mix x).args.getD []
    | 2 =>
      match assoc? (64 * xpMix w + xpEntry w) d.abx.entries with
      | some e => e.args ++ [BitVec.ofNat 32 (e.gainNow d.tide), 0x80000000]
      | none => []
    | _ => ((assoc? x d.abx.basins).map (·.args)).getD []
  l ++ List.replicate (4 - l.length) 0

/-- The result registers of an Abacus port. -/
def Dev.abxResult (d : Dev) (p apply : Nat) (st : Status) : Dev :=
  d.setWord (abxPortAddr p + 0x24) (BitVec.ofNat 32 (2 ^ 30 + apply * 2 ^ 27 + st.code))

/-- GO of an Abacus port (R352): a change is held for the next boundary, or staged for its Tide (R338, R339). -/
def Dev.abxGo (d : Dev) (p : Nat) : Dev :=
  let w := d.wordsAt (abxPortAddr p) 8
  let older := d.abx.staged.map fun (s : StagedWords) => if s.port = p then s.old else s
  let d := { d with abx := { d.abx with staged := older } }
  let (d, block) := if btcOp w = 0x06 then d.holdWords (256 * wfld w 4 31 0) 64 abxPage else (d, .ok [])
  match block with
  | .error _ => d.abxResult p 0 .refusedParam
  | .ok b =>
    let w := w ++ b
    match d.abxRefusal w false with
    | some st => d.abxResult p 0 st
    | none =>
      let t := btcTide w
      if btcStaged w then
        let rest := older.filter fun (s : StagedWords) => s.key != abxKey w
        if 8192 ≤ rest.length then d.abxResult p 0 .refusedBudget
        else
          let s : StagedWords := ⟨abxKey w, p, w, t, d.begun t, true⟩
          ({ d with abx := { d.abx with staged := rest ++ [s] } }).abxResult p 1 .done
      else if btcOp w = 0x01 then (d.basinSet (abxTarget w) w).abxResult p 0 .done
      else if btcOp w = 0x07 then (d.setWords (abxPortAddr p + 0x30) (d.abxReadWords w)).abxResult p 0 .done
      else
        let rest := d.abx.held.filter fun (s : StagedWords) => s.key != abxKey w
        let s : StagedWords := ⟨abxKey w, p, w, 0, false, false⟩
        ({ d with abx := { d.abx with held := rest ++ [s] } }).abxResult p 0 .done

/-- A staged change at its boundary (R339): checked again, applied or dropped. -/
def Dev.abxApply (d : Dev) (s : StagedWords) : Dev :=
  let bad := (d.abxRefusal s.words true).isSome
  let d := if bad then d.raiseLog abxPage 6 else d.abxChange s.words
  if s.last then d.set Reg.abx_CMD_APPLY (if bad then 4 else if s.late then 3 else 2) [s.port] else d

/-- Whether an immediate change that was accepted may not be made at its boundary: a mix admitted since then fixes its BASIN, or has
no entry left, or a source would not enter from zero (R329, R341, R352; DESIGN CHOICE, log entry 173). -/
def Dev.heldBad (d : Dev) (w : List Word) : Bool :=
  (btcOp w == 0x03 && (d.mixSlot (abxTarget w)).isSome && (d.mix (abxTarget w)).basin != some (wfld w 4 11 0)) ||
  (btcOp w == 0x04 && (d.abxRefusal w true).isSome)

/-- The changes of a boundary (R338): those held first, then those staged. -/
def Dev.abxChanges (d : Dev) : Dev :=
  let held := d.abx.held
  let d := held.foldl (fun d (s : StagedWords) => if d.heldBad s.words then d else d.abxChange s.words) { d with abx := { d.abx with held := [] } }
  let due := d.abx.staged.filter fun (s : StagedWords) => decide (s.applyTide ≤ d.tide)
  let d := { d with abx := { d.abx with staged := d.abx.staged.filter fun (s : StagedWords) => decide (d.tide < s.applyTide) } }
  due.foldl Dev.abxApply d

end Sys2Proof.Machine
end

