-- ==== Sys2Proof/Machine/Cipher.lean ====
section
/-!
DEFINITION. The ciphers and hashes that chapter 8 takes from their standards (R250, R262, R271): AES (FIPS 197), counter mode
and XTS (SP 800-38A, IEEE 1619), GCM (SP 800-38D), SHA-1 and SHA-256 (FIPS 180-4) and HMAC (FIPS 198-1). The spec names these
standards and this text is what the model takes from them (PRESUMED, log entry 47).
-/

namespace Sys2Proof.Machine

/-- Two runs of bytes combined by exclusive or. -/
def xorBytes (a b : Bytes) : Bytes := List.zipWith (fun x y => x ^^^ y) a b

/-! ### AES -/

/-- The S-box of FIPS 197. -/
def aesSbox : List Byte :=
  [0x63, 0x7C, 0x77, 0x7B, 0xF2, 0x6B, 0x6F, 0xC5, 0x30, 0x01, 0x67, 0x2B, 0xFE, 0xD7, 0xAB, 0x76] ++
  [0xCA, 0x82, 0xC9, 0x7D, 0xFA, 0x59, 0x47, 0xF0, 0xAD, 0xD4, 0xA2, 0xAF, 0x9C, 0xA4, 0x72, 0xC0] ++
  [0xB7, 0xFD, 0x93, 0x26, 0x36, 0x3F, 0xF7, 0xCC, 0x34, 0xA5, 0xE5, 0xF1, 0x71, 0xD8, 0x31, 0x15] ++
  [0x04, 0xC7, 0x23, 0xC3, 0x18, 0x96, 0x05, 0x9A, 0x07, 0x12, 0x80, 0xE2, 0xEB, 0x27, 0xB2, 0x75] ++
  [0x09, 0x83, 0x2C, 0x1A, 0x1B, 0x6E, 0x5A, 0xA0, 0x52, 0x3B, 0xD6, 0xB3, 0x29, 0xE3, 0x2F, 0x84] ++
  [0x53, 0xD1, 0x00, 0xED, 0x20, 0xFC, 0xB1, 0x5B, 0x6A, 0xCB, 0xBE, 0x39, 0x4A, 0x4C, 0x58, 0xCF] ++
  [0xD0, 0xEF, 0xAA, 0xFB, 0x43, 0x4D, 0x33, 0x85, 0x45, 0xF9, 0x02, 0x7F, 0x50, 0x3C, 0x9F, 0xA8] ++
  [0x51, 0xA3, 0x40, 0x8F, 0x92, 0x9D, 0x38, 0xF5, 0xBC, 0xB6, 0xDA, 0x21, 0x10, 0xFF, 0xF3, 0xD2] ++
  [0xCD, 0x0C, 0x13, 0xEC, 0x5F, 0x97, 0x44, 0x17, 0xC4, 0xA7, 0x7E, 0x3D, 0x64, 0x5D, 0x19, 0x73] ++
  [0x60, 0x81, 0x4F, 0xDC, 0x22, 0x2A, 0x90, 0x88, 0x46, 0xEE, 0xB8, 0x14, 0xDE, 0x5E, 0x0B, 0xDB] ++
  [0xE0, 0x32, 0x3A, 0x0A, 0x49, 0x06, 0x24, 0x5C, 0xC2, 0xD3, 0xAC, 0x62, 0x91, 0x95, 0xE4, 0x79] ++
  [0xE7, 0xC8, 0x37, 0x6D, 0x8D, 0xD5, 0x4E, 0xA9, 0x6C, 0x56, 0xF4, 0xEA, 0x65, 0x7A, 0xAE, 0x08] ++
  [0xBA, 0x78, 0x25, 0x2E, 0x1C, 0xA6, 0xB4, 0xC6, 0xE8, 0xDD, 0x74, 0x1F, 0x4B, 0xBD, 0x8B, 0x8A] ++
  [0x70, 0x3E, 0xB5, 0x66, 0x48, 0x03, 0xF6, 0x0E, 0x61, 0x35, 0x57, 0xB9, 0x86, 0xC1, 0x1D, 0x9E] ++
  [0xE1, 0xF8, 0x98, 0x11, 0x69, 0xD9, 0x8E, 0x94, 0x9B, 0x1E, 0x87, 0xE9, 0xCE, 0x55, 0x28, 0xDF] ++
  [0x8C, 0xA1, 0x89, 0x0D, 0xBF, 0xE6, 0x42, 0x68, 0x41, 0x99, 0x2D, 0x0F, 0xB0, 0x54, 0xBB, 0x16]

/-- The inverse S-box of FIPS 197. -/
def aesInvSbox : List Byte :=
  [0x52, 0x09, 0x6A, 0xD5, 0x30, 0x36, 0xA5, 0x38, 0xBF, 0x40, 0xA3, 0x9E, 0x81, 0xF3, 0xD7, 0xFB] ++
  [0x7C, 0xE3, 0x39, 0x82, 0x9B, 0x2F, 0xFF, 0x87, 0x34, 0x8E, 0x43, 0x44, 0xC4, 0xDE, 0xE9, 0xCB] ++
  [0x54, 0x7B, 0x94, 0x32, 0xA6, 0xC2, 0x23, 0x3D, 0xEE, 0x4C, 0x95, 0x0B, 0x42, 0xFA, 0xC3, 0x4E] ++
  [0x08, 0x2E, 0xA1, 0x66, 0x28, 0xD9, 0x24, 0xB2, 0x76, 0x5B, 0xA2, 0x49, 0x6D, 0x8B, 0xD1, 0x25] ++
  [0x72, 0xF8, 0xF6, 0x64, 0x86, 0x68, 0x98, 0x16, 0xD4, 0xA4, 0x5C, 0xCC, 0x5D, 0x65, 0xB6, 0x92] ++
  [0x6C, 0x70, 0x48, 0x50, 0xFD, 0xED, 0xB9, 0xDA, 0x5E, 0x15, 0x46, 0x57, 0xA7, 0x8D, 0x9D, 0x84] ++
  [0x90, 0xD8, 0xAB, 0x00, 0x8C, 0xBC, 0xD3, 0x0A, 0xF7, 0xE4, 0x58, 0x05, 0xB8, 0xB3, 0x45, 0x06] ++
  [0xD0, 0x2C, 0x1E, 0x8F, 0xCA, 0x3F, 0x0F, 0x02, 0xC1, 0xAF, 0xBD, 0x03, 0x01, 0x13, 0x8A, 0x6B] ++
  [0x3A, 0x91, 0x11, 0x41, 0x4F, 0x67, 0xDC, 0xEA, 0x97, 0xF2, 0xCF, 0xCE, 0xF0, 0xB4, 0xE6, 0x73] ++
  [0x96, 0xAC, 0x74, 0x22, 0xE7, 0xAD, 0x35, 0x85, 0xE2, 0xF9, 0x37, 0xE8, 0x1C, 0x75, 0xDF, 0x6E] ++
  [0x47, 0xF1, 0x1A, 0x71, 0x1D, 0x29, 0xC5, 0x89, 0x6F, 0xB7, 0x62, 0x0E, 0xAA, 0x18, 0xBE, 0x1B] ++
  [0xFC, 0x56, 0x3E, 0x4B, 0xC6, 0xD2, 0x79, 0x20, 0x9A, 0xDB, 0xC0, 0xFE, 0x78, 0xCD, 0x5A, 0xF4] ++
  [0x1F, 0xDD, 0xA8, 0x33, 0x88, 0x07, 0xC7, 0x31, 0xB1, 0x12, 0x10, 0x59, 0x27, 0x80, 0xEC, 0x5F] ++
  [0x60, 0x51, 0x7F, 0xA9, 0x19, 0xB5, 0x4A, 0x0D, 0x2D, 0xE5, 0x7A, 0x9F, 0x93, 0xC9, 0x9C, 0xEF] ++
  [0xA0, 0xE0, 0x3B, 0x4D, 0xAE, 0x2A, 0xF5, 0xB0, 0xC8, 0xEB, 0xBB, 0x3C, 0x83, 0x53, 0x99, 0x61] ++
  [0x17, 0x2B, 0x04, 0x7E, 0xBA, 0x77, 0xD6, 0x26, 0xE1, 0x69, 0x14, 0x63, 0x55, 0x21, 0x0C, 0x7D]

/-- A table of 256 bytes as one number, its first entry lowest. -/
def boxNumber (t : List Byte) : Nat := leNat t

/-- A byte through a table. -/
def subByte (t : Nat) (b : Byte) : Byte := BitVec.ofNat 8 (t >>> (8 * b.toNat))

/-- A byte times x in the field of AES. -/
def xtime (b : Byte) : Byte := if b.msb then (b <<< 1) ^^^ 0x1B else b <<< 1

/-- A byte times a factor below 16 in the field of AES. -/
def fieldMul (n : Nat) (b : Byte) : Byte :=
  let b2 := xtime b
  let b4 := xtime b2
  let term (i : Nat) (x : Byte) : Byte := if bitAt n i then x else 0
  term 0 b ^^^ term 1 b2 ^^^ term 2 b4 ^^^ term 3 (xtime b4)

/-- The columns of a block mixed by the factors of a row. -/
def mixColumns (m : List Nat) (s : Bytes) : Bytes :=
  (List.range 16).map fun k =>
    (List.range 4).foldl (fun x j => x ^^^ fieldMul (m.getD ((j + 4 - k % 4) % 4) 0) (s.getD (k / 4 * 4 + j) 0)) 0

/-- The rows of a block shifted: row r by r columns to the left, `by_` times. -/
def shiftRows (by_ : Nat) (s : Bytes) : Bytes :=
  (List.range 16).map fun k => s.getD (k % 4 + 4 * ((k / 4 + by_ * (k % 4)) % 4)) 0

/-- The words of the expanded key of `nk` words, the latest first, from word `i` on. -/
def expandKey (box nk : Nat) : Nat → Nat → List Bytes → List Bytes
  | 0, _, ws => ws
  | k + 1, i, ws =>
    let prev := ws.headD []
    let t : Bytes :=
      if i % nk = 0 then
        xorBytes ((prev.drop 1 ++ prev.take 1).map (subByte box)) [Nat.repeat xtime (i / nk - 1) 1, 0, 0, 0]
      else if 6 < nk ∧ i % nk = 4 then prev.map (subByte box)
      else prev
    expandKey box nk k (i + 1) (xorBytes (ws.getD (nk - 1) []) t :: ws)

/-- A run of bytes cut into pieces of `n`. -/
def pieces (n : Nat) : Nat → Bytes → List Bytes
  | 0, _ => []
  | k + 1, b => if b.isEmpty then [] else b.take n :: pieces n k (b.drop n)

/-- The round keys of a key of 16 or 32 bytes. -/
def aesKeys (key : Bytes) : List Bytes :=
  let nk := key.length / 4
  let ws := expandKey (boxNumber aesSbox) nk (4 * (nk + 7) - nk) nk (pieces 4 nk key).reverse
  pieces 16 (nk + 7) (ws.reverse.flatMap id)

/-- One block encrypted under round keys. -/
def aesEncrypt (ks : List Bytes) (b : Bytes) : Bytes :=
  let box := boxNumber aesSbox
  let round (s k : Bytes) : Bytes := xorBytes (mixColumns [2, 3, 1, 1] (shiftRows 1 (s.map (subByte box)))) k
  let s := (ks.tail.dropLast).foldl round (xorBytes b (ks.headD []))
  xorBytes (shiftRows 1 (s.map (subByte box))) (ks.getLastD [])

/-- One block decrypted under round keys. -/
def aesDecrypt (ks : List Bytes) (b : Bytes) : Bytes :=
  let box := boxNumber aesInvSbox
  let back (s : Bytes) : Bytes := (shiftRows 3 s).map (subByte box)
  let round (s k : Bytes) : Bytes := mixColumns [14, 11, 13, 9] (xorBytes (back s) k)
  let s := (ks.tail.dropLast).reverse.foldl round (xorBytes b (ks.getLastD []))
  xorBytes (back s) (ks.headD [])

/-! ### Counter mode -/

/-- A counter block advanced in its low `w` bits. -/
def nextCounter (w c : Nat) : Nat := c / 2 ^ w * 2 ^ w + (c + 1) % 2 ^ w

/-- The key stream of `n` blocks from a counter block on. -/
def keyStream (ks : List Bytes) (w : Nat) : Nat → Nat → Bytes
  | 0, _ => []
  | n + 1, c => aesEncrypt ks (beBytes 16 c) ++ keyStream ks w n (nextCounter w c)

/-- AES counter mode from a counter block on, its low `w` bits counting. -/
def aesCtr (key : Bytes) (w c : Nat) (b : Bytes) : Bytes := xorBytes b (keyStream (aesKeys key) w (ceilDiv b.length 16) c)

/-! ### XTS -/

/-- A tweak times x (IEEE 1619). -/
def nextTweak (t : Nat) : Nat := if 2 ^ 128 ≤ 2 * t then Nat.xor (2 * t - 2 ^ 128) 0x87 else 2 * t

/-- A block through a cipher, with its tweak on both sides. -/
def tweaked (f : Bytes → Bytes) (t : Nat) (b : Bytes) : Bytes :=
  let m := leBytes 16 t
  xorBytes (f (xorBytes b m)) m

/-- A data unit of `n` bytes from a block of tweak `t` on; a last piece of less than a block steals from the block before it.
A unit of less than one block, which IEEE 1619 does not define, is a free value. -/
def xtsUnit (f : Bytes → Bytes) (decrypt : Bool) : Nat → Nat → Bytes → Bytes
  | 0, _, _ => []
  | k + 1, t, b =>
    if b.isEmpty then []
    else if b.length < 16 then padTo b.length (Config.xtsShort t b)
    else if b.length ≤ 16 ∨ 32 ≤ b.length then tweaked f t (b.take 16) ++ xtsUnit f decrypt k (nextTweak t) (b.drop 16)
    else
      let (t1, t2) := if decrypt then (nextTweak t, t) else (t, nextTweak t)
      let c := tweaked f t1 (b.take 16)
      let r := b.length - 16
      tweaked f t2 (b.drop 16 ++ c.drop r) ++ c.take r

/-- XTS-AES over data units of `unit` bytes: the first half of the key is the data key, the rest the tweak key, and the units
count on from `tweak`. -/
def xts (decrypt : Bool) (key : Bytes) (tweak unit : Nat) (b : Bytes) : Bytes :=
  let ks := aesKeys (key.take (key.length / 2))
  let f := if decrypt then aesDecrypt ks else aesEncrypt ks
  let kt := aesKeys (key.drop (key.length / 2))
  let us := pieces unit b.length b
  (List.range us.length).flatMap fun i =>
    let u := us.getD i []
    xtsUnit f decrypt (ceilDiv u.length 16) (leNat (aesEncrypt kt (leBytes 16 (tweak + i)))) u

/-- XTS encryption and decryption. -/
def xtsEncrypt (key : Bytes) (tweak unit : Nat) (b : Bytes) : Bytes := xts false key tweak unit b
def xtsDecrypt (key : Bytes) (tweak unit : Nat) (b : Bytes) : Bytes := xts true key tweak unit b

/-! ### GCM -/

/-- The product of two blocks in the field of GHASH, a block's first bit its highest: `k` bits of `x` are left. -/
def ghashMul (x : Nat) : Nat → Nat → Nat → Nat
  | 0, _, z => z
  | k + 1, v, z =>
    let z := if bitAt x k then Nat.xor z v else z
    let v := if v % 2 = 1 then Nat.xor (v / 2) (0xE1 * 2 ^ 120) else v / 2
    ghashMul x k v z

/-- GHASH of a run of bytes, a last piece of less than a block padded with zeros, going on from `y`. -/
def ghash (h : Nat) (y : Nat) (b : Bytes) : Nat :=
  (pieces 16 b.length b).foldl (fun y p => ghashMul (Nat.xor y (beNat (padTo 16 p))) 128 h 0) y

/-- The tag of additional data and ciphertext under a key and a 12-byte IV. -/
def gcmTag (key iv aad c : Bytes) : Bytes :=
  let ks := aesKeys key
  let h := beNat (aesEncrypt ks (List.replicate 16 0))
  let s := ghash h (ghash h (ghash h 0 aad) c) (beBytes 8 (8 * aad.length) ++ beBytes 8 (8 * c.length))
  xorBytes (beBytes 16 s) (aesEncrypt ks (iv ++ beBytes 4 1))

/-- The counter mode of GCM. -/
def gcmStream (key iv b : Bytes) : Bytes := aesCtr key 32 (beNat (iv ++ beBytes 4 2)) b

/-- AES-GCM encryption: the ciphertext with its 16-byte tag. -/
def gcmEncrypt (key iv aad p : Bytes) : Bytes :=
  let c := gcmStream key iv p
  c ++ gcmTag key iv aad c

/-- AES-GCM decryption; none where the tag does not match. -/
def gcmDecrypt (key iv aad c tag : Bytes) : Option Bytes := if gcmTag key iv aad c = tag then some (gcmStream key iv c) else none

/-! ### Hashes -/

/-- A message padded to whole blocks of 64 bytes. -/
def shaPad (m : Bytes) : Bytes := m ++ [0x80] ++ List.replicate ((119 - m.length % 64) % 64) 0 ++ beBytes 8 (8 * m.length)

/-- The words of a block, in network order. -/
def shaWords (b : Bytes) : List Word := (pieces 4 16 b).map fun p => BitVec.ofNat 32 (beNat p)

/-- A message schedule continued by `k` words, the latest first. -/
def shaSchedule (next : List Word → Word) : Nat → List Word → List Word
  | 0, ws => ws
  | k + 1, ws => shaSchedule next k (next ws :: ws)

/-- The hash value after every block of a message: `step` compresses a block of words into the value. -/
def shaFold (step : List Word → List Word → List Word) (init : List Word) (m : Bytes) : Bytes :=
  let b := shaPad m
  ((pieces 64 b.length b).foldl (fun h p => List.zipWith (fun x y => x + y) h (step h (shaWords p))) init).flatMap fun w =>
    beBytes 4 w.toNat

/-- The function and the constant of a round of SHA-1. -/
def sha1Round (t : Nat) (b c d : Word) : Word :=
  if t < 20 then ((b &&& c) ||| (~~~b &&& d)) + 0x5A827999
  else if t < 40 then (b ^^^ c ^^^ d) + 0x6ED9EBA1
  else if t < 60 then ((b &&& c) ||| (b &&& d) ||| (c &&& d)) + 0x8F1BBCDC
  else (b ^^^ c ^^^ d) + 0xCA62C1D6

/-- The rounds of SHA-1 over a schedule, from round `t` on. -/
def sha1Rounds : Nat → List Word → List Word → List Word
  | t, w :: ws, [a, b, c, d, e] =>
    sha1Rounds (t + 1) ws [a.rotateLeft 5 + sha1Round t b c d + e + w, a, b.rotateLeft 30, c, d]
  | _, _, h => h

/-- SHA-1 of a message. -/
def sha1 (m : Bytes) : Bytes :=
  let next (ws : List Word) : Word := (ws.getD 2 0 ^^^ ws.getD 7 0 ^^^ ws.getD 13 0 ^^^ ws.getD 15 0).rotateLeft 1
  shaFold (fun h ws => sha1Rounds 0 (shaSchedule next 64 ws.reverse).reverse h)
    [0x67452301, 0xEFCDAB89, 0x98BADCFE, 0x10325476, 0xC3D2E1F0] m

/-- The constants of SHA-256. -/
def sha256K : List Word :=
  [0x428A2F98, 0x71374491, 0xB5C0FBCF, 0xE9B5DBA5, 0x3956C25B, 0x59F111F1, 0x923F82A4, 0xAB1C5ED5] ++
  [0xD807AA98, 0x12835B01, 0x243185BE, 0x550C7DC3, 0x72BE5D74, 0x80DEB1FE, 0x9BDC06A7, 0xC19BF174] ++
  [0xE49B69C1, 0xEFBE4786, 0x0FC19DC6, 0x240CA1CC, 0x2DE92C6F, 0x4A7484AA, 0x5CB0A9DC, 0x76F988DA] ++
  [0x983E5152, 0xA831C66D, 0xB00327C8, 0xBF597FC7, 0xC6E00BF3, 0xD5A79147, 0x06CA6351, 0x14292967] ++
  [0x27B70A85, 0x2E1B2138, 0x4D2C6DFC, 0x53380D13, 0x650A7354, 0x766A0ABB, 0x81C2C92E, 0x92722C85] ++
  [0xA2BFE8A1, 0xA81A664B, 0xC24B8B70, 0xC76C51A3, 0xD192E819, 0xD6990624, 0xF40E3585, 0x106AA070] ++
  [0x19A4C116, 0x1E376C08, 0x2748774C, 0x34B0BCB5, 0x391C0CB3, 0x4ED8AA4A, 0x5B9CCA4F, 0x682E6FF3] ++
  [0x748F82EE, 0x78A5636F, 0x84C87814, 0x8CC70208, 0x90BEFFFA, 0xA4506CEB, 0xBEF9A3F7, 0xC67178F2]

/-- The rounds of SHA-256 over a schedule with its constants added. -/
def sha256Rounds : List Word → List Word → List Word
  | w :: ws, [a, b, c, d, e, f, g, h] =>
    let s1 := e.rotateRight 6 ^^^ e.rotateRight 11 ^^^ e.rotateRight 25
    let t1 := h + s1 + ((e &&& f) ^^^ (~~~e &&& g)) + w
    let s0 := a.rotateRight 2 ^^^ a.rotateRight 13 ^^^ a.rotateRight 22
    sha256Rounds ws [t1 + s0 + ((a &&& b) ^^^ (a &&& c) ^^^ (b &&& c)), a, b, c, d + t1, e, f, g]
  | _, h => h

/-- SHA-256 of a message. -/
def sha256 (m : Bytes) : Bytes :=
  let s0 (x : Word) : Word := x.rotateRight 7 ^^^ x.rotateRight 18 ^^^ x >>> 3
  let s1 (x : Word) : Word := x.rotateRight 17 ^^^ x.rotateRight 19 ^^^ x >>> 10
  let next (ws : List Word) : Word := s1 (ws.getD 1 0) + ws.getD 6 0 + s0 (ws.getD 14 0) + ws.getD 15 0
  shaFold (fun h ws => sha256Rounds (List.zipWith (fun x y => x + y) (shaSchedule next 48 ws.reverse).reverse sha256K) h)
    [0x6A09E667, 0xBB67AE85, 0x3C6EF372, 0xA54FF53A, 0x510E527F, 0x9B05688C, 0x1F83D9AB, 0x5BE0CD19] m

/-- HMAC of a message over a hash. -/
def hmac (hash : Bytes → Bytes) (key m : Bytes) : Bytes :=
  let k := padTo 64 (if 64 < key.length then hash key else key)
  hash (k.map (fun x => x ^^^ 0x5C) ++ hash (k.map (fun x => x ^^^ 0x36) ++ m))

/-- HMAC-SHA1 and HMAC-SHA256 of a message. -/
def hmacSha1 (key m : Bytes) : Bytes := hmac sha1 key m
def hmacSha256 (key m : Bytes) : Bytes := hmac sha256 key m

end Sys2Proof.Machine
end

