-- ==== Sys2Proof/Machine/Packet.lean ====
section
/-!
DEFINITION. Frames and packets: the CRC-32 of a frame, the checksums of IP and UDP, and the fields of Ethernet,
IP, UDP, RTP and header extensions (R216, R219, R220, R278).
-/

namespace Sys2Proof.Machine

/-! ### Checks -/

/-- One bit step of the CRC-32 of IEEE 802.3, least significant bit first. -/
def crcBit (poly c : Nat) : Nat := if c % 2 = 1 then Nat.xor (c / 2) poly else c / 2

/-- One byte step of a reflected CRC. -/
def crcByte (poly c : Nat) (b : Byte) : Nat := Nat.repeat (crcBit poly) 8 (Nat.xor c b.toNat)

/-- The CRC-32 of a run of bytes, as the FCS of a frame and the FINGERPRINT of a STUN message use it. -/
def crc32 (b : Bytes) : Nat := Nat.xor (b.foldl (crcByte 0xEDB88320) 0xFFFFFFFF) 0xFFFFFFFF

/-- The FCS of a frame, as its four bytes go on the wire. -/
def fcsOf (b : Bytes) : Bytes := leBytes 4 (crc32 b)

/-- A frame padded to 60 bytes, with its FCS (R172). -/
def withFcs (b : Bytes) : Bytes :=
  let p := b ++ List.replicate (60 - b.length) 0
  p ++ fcsOf p

/-- The sum of the 16-bit words of a run of bytes, an odd last byte padded with zero. -/
def sum16 : Bytes → Nat
  | [] => 0
  | [a] => 256 * a.toNat
  | a :: b :: t => 256 * a.toNat + b.toNat + sum16 t

/-- A sum folded to 16 bits in one's complement. -/
def fold16 (n : Nat) : Nat :=
  let n := n / 65536 + n % 65536
  let n := n / 65536 + n % 65536
  n / 65536 + n % 65536

/-- The Internet checksum of a sum. -/
def checksum (n : Nat) : Nat := 65535 - fold16 n

/-! ### Ethernet, IP and UDP -/

/-- What the first bytes of a frame say (R216). -/
structure Ether where
  dst : Bytes
  src : Bytes
  vlan : Option Nat
  stacked : Bool
  etype : Nat
  ofs : Nat
  deriving DecidableEq, Repr

/-- Whether an EtherType is a VLAN tag. -/
def isTag (t : Nat) : Bool := t == 0x8100 || t == 0x88A8

/-- The Ethernet header of a frame. -/
def etherOf (b : Bytes) : Ether :=
  let t := beAt b 12 2
  if isTag t then ⟨b.take 6, slice b 6 6, some (beAt b 14 2), isTag (beAt b 16 2), beAt b 16 2, 18⟩
  else ⟨b.take 6, slice b 6 6, none, false, t, 14⟩

/-- A datagram of IP (R216): addresses as 16 bytes with an IPv4 address in the first four. -/
structure Ip where
  v6 : Bool
  src : Bytes
  dst : Bytes
  proto : Nat
  ofs : Nat
  len : Nat
  frag : Bool
  ext : Bool
  deriving DecidableEq, Repr

/-- The IPv6 extension headers from offset `o` on, the first of type `next` (R216): the type and the offset of what follows them,
whether one is a Fragment header, and whether any other is there. What follows an ESP header cannot be read. -/
def ip6Chain (b : Bytes) : Nat → Nat → Nat → Bool × Bool → Nat × Nat × Bool × Bool
  | 0, next, o, seen => (next, o, seen)
  | k + 1, next, o, (frag, ext) =>
    if next = 44 then ip6Chain b k (byteAt b o) (o + 8) (true, ext)
    else if next = 50 then (next, o, frag, true)
    else if next = 51 then ip6Chain b k (byteAt b o) (o + 4 * (byteAt b (o + 1) + 2)) (frag, true)
    else if [0, 43, 60, 135, 139, 140].contains next then ip6Chain b k (byteAt b o) (o + 8 * (byteAt b (o + 1) + 1)) (frag, true)
    else (next, o, frag, ext)

/-- The IP datagram at offset `o` of a frame of `n` bytes without its FCS; none where it is bad (R216 step 6). -/
def ipOf (b : Bytes) (n o etype : Nat) : Option Ip :=
  if etype = 0x0800 then
    let ihl := byteAt b o % 16 * 4
    let len := beAt b (o + 2) 2
    if byteAt b o / 16 ≠ 4 ∨ ihl < 20 ∨ n < o + 20 ∨ len < ihl ∨ n < o + len ∨ fold16 (sum16 (slice b o ihl)) ≠ 65535
    then none
    else some ⟨false, padTo 16 (slice b (o + 12) 4), padTo 16 (slice b (o + 16) 4), byteAt b (o + 9), o + ihl, len - ihl,
      bitAt (beAt b (o + 6) 2) 13 || beAt b (o + 6) 2 % 8192 != 0, decide (20 < ihl)⟩
  else
    let len := beAt b (o + 4) 2
    if byteAt b o / 16 ≠ 6 ∨ n < o + 40 ∨ n < o + 40 + len then none
    else
      let (next, ofs, frag, ext) := ip6Chain (b.take (o + 40 + len)) (len / 8 + 1) (byteAt b (o + 6)) (o + 40) (false, false)
      some ⟨true, slice b (o + 8) 16, slice b (o + 24) 16, next, ofs, o + 40 + len - ofs, frag, ext⟩

/-- The sum of a pseudo header (UDP over IPv4 or IPv6). -/
def pseudoSum (src dst : Bytes) (len : Nat) : Nat := sum16 src + sum16 dst + 17 + len

/-- A datagram of UDP. -/
structure Udp where
  sport : Nat
  dport : Nat
  ofs : Nat
  len : Nat
  deriving DecidableEq, Repr

/-- The UDP datagram in an IP datagram; none where it is bad (R216 step 10). -/
def udpOf (b : Bytes) (ip : Ip) : Option Udp :=
  let o := ip.ofs
  let len := beAt b (o + 4) 2
  let sum := beAt b (o + 6) 2
  if ip.len < 8 ∨ len < 8 ∨ ip.len < len ∨ (sum = 0 ∧ ip.v6 = true) then none
  else if sum ≠ 0 ∧ fold16 (pseudoSum ip.src ip.dst len + sum16 (slice b o len)) ≠ 65535 then none
  else some ⟨beAt b o 2, beAt b (o + 2) 2, o + 8, len - 8⟩

/-- What a frame to be built carries in its headers (R278). -/
structure Headers where
  dst : Bytes
  src : Bytes
  vlan : Option Nat
  v6 : Bool
  ipSrc : Bytes
  ipDst : Bytes
  dscp : Nat
  ttl : Nat
  sport : Nat
  dport : Nat
  csum4 : Bool
  deriving DecidableEq, Repr

/-- The bytes of the headers before the UDP payload. -/
def Headers.length (h : Headers) : Nat := 14 + (if h.vlan.isSome then 4 else 0) + (if h.v6 then 40 else 20) + 8

/-- A UDP datagram with its checksum (R279): always over IPv6; over IPv4 while asked for, else zero. -/
def udpBytes (h : Headers) (p : Bytes) : Bytes :=
  let len := p.length + 8
  let head := beBytes 2 h.sport ++ beBytes 2 h.dport ++ beBytes 2 len
  let c := checksum (pseudoSum h.ipSrc h.ipDst len + sum16 head + sum16 p)
  let c := if c = 0 then 65535 else c
  head ++ beBytes 2 (if h.v6 || h.csum4 then c else 0) ++ p

/-- A frame, its FCS excluded, with these headers and this UDP payload (R278). -/
def frameOf (h : Headers) (p : Bytes) : Bytes :=
  let u := udpBytes h p
  let tag := match h.vlan with
    | some t => [0x81, 0x00] ++ beBytes 2 t
    | none => []
  let l3 :=
    if h.v6 then
      beBytes 4 (6 * 2 ^ 28 + h.dscp * 2 ^ 22) ++ beBytes 2 u.length ++ [17] ++ beBytes 1 h.ttl ++ padTo 16 h.ipSrc ++
        padTo 16 h.ipDst
    else
      let a := [0x45] ++ beBytes 1 (4 * h.dscp) ++ beBytes 2 (20 + u.length) ++ [0, 0, 0x40, 0] ++ beBytes 1 h.ttl ++ [17]
      let ips := padTo 4 h.ipSrc ++ padTo 4 h.ipDst
      a ++ beBytes 2 (checksum (sum16 a + sum16 ips)) ++ ips
  padTo 6 h.dst ++ padTo 6 h.src ++ tag ++ (if h.v6 then [0x86, 0xDD] else [0x08, 0x00]) ++ l3 ++ u

/-! ### RTP -/

/-- An element of an RTP header extension: its ID, the offset of its data, its length. -/
structure RtpExt where
  id : Nat
  ofs : Nat
  len : Nat
  deriving DecidableEq, Repr

/-- An RTP packet's header. -/
structure Rtp where
  marker : Bool
  pt : Nat
  seq : Nat
  ts : Nat
  ssrc : Nat
  exts : List RtpExt
  hdrLen : Nat
  deriving DecidableEq, Repr

/-- The elements of a header extension from an offset to its end: one-byte or two-byte form (RFC 8285). -/
def extElements (b : Bytes) (twoByte : Bool) : Nat → Nat → Nat → List RtpExt
  | 0, _, _ => []
  | k + 1, o, last =>
    if last ≤ o then []
    else if byteAt b o = 0 then extElements b twoByte k (o + 1) last
    else if twoByte then
      ⟨byteAt b o, o + 2, byteAt b (o + 1)⟩ :: extElements b twoByte k (o + 2 + byteAt b (o + 1)) last
    else if byteAt b o / 16 = 15 then []
    else ⟨byteAt b o / 16, o + 1, byteAt b o % 16 + 1⟩ :: extElements b twoByte k (o + 2 + byteAt b o % 16) last

/-- The RTP header of a packet; none if its version is not 2 or a part of it runs past the packet (R220). -/
def rtpOf (b : Bytes) : Option Rtp :=
  let cc := byteAt b 0 % 16
  let x := bitAt (byteAt b 0) 4
  let o := 12 + 4 * cc
  if byteAt b 0 / 64 ≠ 2 ∨ b.length < o then none
  else if x && decide (b.length < o + 4) then none
  else
    let prof := beAt b o 2
    let xl := beAt b (o + 2) 2 * 4
    let hdr := if x then o + 4 + xl else o
    if b.length < hdr then none
    else
      let exts :=
        if !x then []
        else if prof = 0xBEDE then extElements b false xl (o + 4) hdr
        else if prof / 16 = 0x100 then extElements b true xl (o + 4) hdr
        else []
      some ⟨bitAt (byteAt b 1) 7, byteAt b 1 % 128, beAt b 2 2, beAt b 4 4, beAt b 8 4,
        exts.filter fun e => decide (e.ofs + e.len ≤ hdr), hdr⟩

/-- The element of an extension with an ID; ID 0 names none. -/
def Rtp.ext? (r : Rtp) (id : Nat) : Option RtpExt := if id = 0 then none else r.exts.find? (·.id == id)

end Sys2Proof.Machine
end

