-- ==== Sys2Proof/Machine/Srtp.lean ====
section
/-!
DEFINITION. SRTP and SRTCP packets of the profiles of R250: the session keys (RFC 3711 section 4.3, RFC 7714), and packets in
both directions (R251–R253).
-/

namespace Sys2Proof.Machine

/-- The master key and master salt lengths of a profile (R250). -/
def keyLens : Nat → Nat × Nat
  | 1 => (16, 14)
  | 2 => (16, 14)
  | 3 => (16, 12)
  | _ => (32, 12)

/-- The SRTP tag length of a profile. -/
def srtpTag : Nat → Nat
  | 1 => 10
  | 2 => 4
  | _ => 16

/-- The SRTCP tag length of a profile. -/
def srtcpTag : Nat → Nat
  | 1 => 10
  | 2 => 10
  | _ => 16

/-- Whether a profile is one of GCM. -/
def isGcm (p : Nat) : Bool := decide (3 ≤ p)

/-- `n` bytes of session key for a label (R251): a 12-byte master salt has two zero bytes after it. -/
def sessionKey (key salt : Bytes) (label n : Nat) : Bytes :=
  aesCtr key 128 (Nat.xor (beNat (padTo 14 salt)) (label * 2 ^ 48) * 65536) (List.replicate n 0)

/-- The counter mode of profiles 0x01 and 0x02: session salt, SSRC and index give the first counter block. -/
def cmStream (ek sk : Bytes) (ssrc i : Nat) (b : Bytes) : Bytes :=
  aesCtr ek 128 (Nat.xor (beNat sk * 65536) (ssrc * 2 ^ 64 + i * 65536)) b

/-- The IV of the GCM profiles. -/
def gcmIv (sk : Bytes) (ssrc i : Nat) : Bytes := beBytes 12 (Nat.xor (beNat sk) (ssrc * 2 ^ 48 + i))

/-- The length of what of an RTP packet stays in clear: its header with CSRC list and header extension (R252). -/
def clearLen (rtp : Bytes) : Nat := ((rtpOf rtp).map (·.hdrLen)).getD 12

/-- An RTP packet protected under a profile, a master key and a master salt, at index `i`: its header in clear, its payload
encrypted, its tag. -/
def srtpProtect (p : Nat) (key salt : Bytes) (i : Nat) (rtp : Bytes) : Bytes :=
  let ek := sessionKey key salt 0 (keyLens p).1
  let sk := sessionKey key salt 2 (keyLens p).2
  let n := clearLen rtp
  let ssrc := beAt rtp 8 4
  if isGcm p then rtp.take n ++ gcmEncrypt ek (gcmIv sk ssrc i) (rtp.take n) (rtp.drop n)
  else
    let m := rtp.take n ++ cmStream ek sk ssrc i (rtp.drop n)
    m ++ (hmacSha1 (sessionKey key salt 1 20) (m ++ beBytes 4 (i / 65536))).take (srtpTag p)

/-- The RTP packet of an SRTP packet whose tag is right at index `i`. -/
def srtpUnprotect (p : Nat) (key salt : Bytes) (i : Nat) (pkt : Bytes) : Option Bytes :=
  let ek := sessionKey key salt 0 (keyLens p).1
  let sk := sessionKey key salt 2 (keyLens p).2
  let n := clearLen pkt
  let ssrc := beAt pkt 8 4
  let m := pkt.take (pkt.length - srtpTag p)
  let tag := pkt.drop (pkt.length - srtpTag p)
  if isGcm p then (gcmDecrypt ek (gcmIv sk ssrc i) (m.take n) (m.drop n) tag).map (m.take n ++ ·)
  else if (hmacSha1 (sessionKey key salt 1 20) (m ++ beBytes 4 (i / 65536))).take (srtpTag p) = tag then
    some (m.take n ++ cmStream ek sk ssrc i (m.drop n))
  else none

/-- A compound RTCP packet protected at index `i`, its E flag set (R253): eight bytes in clear, the rest encrypted, and E with
the index before the tag, or after it for the GCM profiles. -/
def srtcpProtect (p : Nat) (key salt : Bytes) (i : Nat) (m : Bytes) : Bytes :=
  let ek := sessionKey key salt 3 (keyLens p).1
  let sk := sessionKey key salt 5 (keyLens p).2
  let ssrc := beAt m 4 4
  let word := beBytes 4 (2 ^ 31 + i % 2 ^ 31)
  if isGcm p then m.take 8 ++ gcmEncrypt ek (gcmIv sk ssrc (i % 2 ^ 31)) (m.take 8 ++ word) (m.drop 8) ++ word
  else
    let c := m.take 8 ++ cmStream ek sk ssrc (i % 2 ^ 31) (m.drop 8) ++ word
    c ++ (hmacSha1 (sessionKey key salt 4 20) c).take (srtcpTag p)

/-- The word with E and the index of an SRTCP packet. -/
def srtcpWord (p : Nat) (pkt : Bytes) : Bytes :=
  if isGcm p then pkt.drop (pkt.length - 4) else slice pkt (pkt.length - srtcpTag p - 4) 4

/-- The index of an SRTCP packet. -/
def srtcpIndex (p : Nat) (pkt : Bytes) : Nat := beNat (srtcpWord p pkt) % 2 ^ 31

/-- The compound packet of an SRTCP packet whose tag is right; one with E clear is authenticated and taken as it is (R253). -/
def srtcpUnprotect (p : Nat) (key salt : Bytes) (pkt : Bytes) : Option Bytes :=
  let ek := sessionKey key salt 3 (keyLens p).1
  let sk := sessionKey key salt 5 (keyLens p).2
  let ssrc := beAt pkt 4 4
  let word := srtcpWord p pkt
  let sealed := bitAt (byteAt word 0) 7
  let i := srtcpIndex p pkt
  let m := pkt.take (pkt.length - srtcpTag p - 4)
  if isGcm p then
    let tag := slice pkt (pkt.length - srtcpTag p - 4) (srtcpTag p)
    if sealed then (gcmDecrypt ek (gcmIv sk ssrc i) (m.take 8 ++ word) (m.drop 8) tag).map (m.take 8 ++ ·)
    else (gcmDecrypt ek (gcmIv sk ssrc i) (m ++ word) [] tag).map fun _ => m
  else if (hmacSha1 (sessionKey key salt 4 20) (m ++ word)).take (srtcpTag p) = pkt.drop (pkt.length - srtcpTag p) then
    some (if sealed then m.take 8 ++ cmStream ek sk ssrc i (m.drop 8) else m)
  else none

end Sys2Proof.Machine
end

