-- ==== Sys2Proof/Machine/Bond.lean ====
section
/-!
DEFINITION. The Bond (chapter 8): wrapping keys, key commands, the cipher path of packets in both directions,
and key lifetime.
-/

namespace Sys2Proof.Machine

/-- The Bond provider page. -/
def bndPage : Page := ⟨.bnd, 0⟩

/-! ### Wrapping keys (R260–R262) -/

/-- An empty wrapping key slot. -/
def WrapKey.empty : WrapKey := ⟨[], false, false⟩

/-- The wrapping key slot of a tenant. -/
def Dev.wrapKey (d : Dev) (t : Nat) : WrapKey := (assoc? t d.bnd.slots).getD WrapKey.empty

/-- A wrapping key slot replaced, its flags and check value shown (R262, R273). -/
def Dev.setWrapKey (d : Dev) (t : Nat) (k : WrapKey) : Dev :=
  let d := { d with bnd := { d.bnd with slots := assocPut WrapKey.empty t k d.bnd.slots } }
  let kcv := if k.set then leNat ((padTo 16 (xtsEncrypt k.key (2 ^ 28) 16 (List.replicate 16 0))).take 4) else 0
  ((d.set Reg.bnd_SLOT_SET (bitOf k.set) [t]).set Reg.bnd_SLOT_LOCK (bitOf k.lock) [t]).set Reg.bnd_WRAP_KCV kcv [t]

/-- The WRAP_CMD codes of R273. -/
inductive WrapCmd where
  | set | lock | zeroize
  deriving DecidableEq, Repr

/-- A wrapping key command (R261): the slot, whether it comes from the tenant's own page, the key. -/
def Dev.wrapCmd (d : Dev) (t : Nat) (own : Bool) (key : Bytes) : WrapCmd → Dev × Status
  | .set =>
    if key.take 32 = slice key 32 32 then (d, .refusedParam)
    else if (d.wrapKey t).lock && !own then (d, .refusedTenant)
    else (d.setWrapKey t { d.wrapKey t with key := key, set := true }, .done)
  | .lock =>
    if !own then (d, .refusedTenant)
    else if !(d.wrapKey t).set then (d, .refusedParam)
    else (d.setWrapKey t { d.wrapKey t with lock := true }, .done)
  | .zeroize =>
    let d := (d.setWrapKey t WrapKey.empty).raise bndPage 4
    (d.raiseTenant t 4, .done)

/-- The address of WRAP_KEY0 of the page a wrapping key command is written on. -/
def wrapKeyAddr : Fn → Nat
  | .pf => 0xD0240
  | .vf v => 0x10000040 + 0x10000 * v

/-- A wrapping key command on the provider page, naming WRAP_TENANT, or on the page of VF v: the key in the
page's WRAP_KEY registers, the result in WRAP_RESULT, the registers cleared whatever the outcome (R261). -/
def Dev.wrapGo (d : Dev) (fn : Fn) (c : WrapCmd) : Dev :=
  let a := wrapKeyAddr fn
  let key := bytesOfWords ((List.range 16).map fun i => d.word (a + 4 * i))
  let (t, own) := match fn with
    | .pf => (d.get Reg.bnd_WRAP_TENANT, d.get Reg.bnd_WRAP_TENANT == 0)
    | .vf v => (d.vfTenant v, true)
  let (d, st) := d.wrapCmd t own key c
  let d := (List.range 16).foldl (fun d i => d.setWord (a + 4 * i) 0) d
  match fn with
  | .pf => d.set Reg.bnd_WRAP_RESULT st.code
  | .vf v => d.set Reg.vf_WRAP_RESULT st.code [v - 1]

/-! ### Key material (R153, R250, R259, R263) -/

/-- Whether every byte of 48 that a profile does not use is zero (R259). -/
def keyZeros (profile : Nat) (b : Bytes) : Bool :=
  let (k, s) := keyLens profile
  (slice b k (32 - k)).all (· == 0) && (slice b (32 + s) (16 - s)).all (· == 0)

/-- An unwrap check failed for row `b` (R263). -/
def Dev.unwrapFailed (d : Dev) (b : Nat) : Dev :=
  let t := d.rowGet b RowF.TENANT
  ((d.bump Reg.bnd_UNWRAP_FAIL).raiseLog bndPage 1 1 b t).raiseTenant t 3

/-- The master key and salt in 48 wrapped bytes of row `b`, if the checks of R263 pass. -/
def Dev.unwrapKey (d : Dev) (b tweak : Nat) (wrapped : Bytes) : Option (Bytes × Bytes) :=
  let w := d.wrapKey (d.rowGet b RowF.TENANT)
  let p := d.rowGet b RowF.PROFILE
  let m := padTo 48 (xtsDecrypt w.key tweak 48 wrapped)
  if w.set && decide (1 ≤ p) && decide (p ≤ 4) && keyZeros p m then
    some (m.take (keyLens p).1, slice m 32 (keyLens p).2)
  else none

/-- The send key and salt of row `b`. -/
def Dev.sendKey (d : Dev) (b : Nat) : Option (Bytes × Bytes) := d.unwrapKey b b ((d.row b).bytes 0x80 48)

/-- The receive key and salt of row `b`. -/
def Dev.recvKey (d : Dev) (b : Nat) : Option (Bytes × Bytes) :=
  d.unwrapKey b (b + 2 ^ 25) (bytesOfWords ((d.row b).annex.take 12))

/-- The ICE password of row `b` (R153, R259). -/
def Dev.icePassword (d : Dev) (b : Nat) : Option Bytes :=
  let w := d.wrapKey (d.rowGet b RowF.TENANT)
  let n := wfld (d.row b).annex 20 5 0
  let m := padTo 32 (xtsDecrypt w.key (b + 2 ^ 26) 32 (bytesOfWords (slice (d.row b).annex 12 8)))
  if w.set && decide (22 ≤ n) && decide (n ≤ 32) && (m.drop n).all (· == 0) then some (m.take n) else none

/-! ### Key commands (R264–R266) -/

/-- The base address of a key port: the provider's, or that of VF v (R274, R275). -/
def keyPortAddr : Fn → Nat
  | .pf => 0xD0100
  | .vf v => 0x10000100 + 0x10000 * v

/-- What a key command names (R274): OP, ICE_LEN, PROFILE, BERTH, OUT_ADDR and its 96 bytes of data. -/
structure KeyArgs where
  op : Nat
  iceLen : Nat
  profile : Nat
  berth : Nat
  out : Nat
  data : Bytes
  deriving DecidableEq, Repr

/-- What a key port holds. -/
def Dev.keyArgs (d : Dev) (fn : Fn) : KeyArgs :=
  let a := keyPortAddr fn
  let w := d.word a
  ⟨Word.fld w 31 28, Word.fld w 21 16, Word.fld w 7 0, Word.fld (d.word (a + 4)) 24 0, (d.word (a + 8)).toNat * 256,
    bytesOfWords ((List.range 24).map fun i => d.word (a + 0x40 + 4 * i))⟩

/-- Whether the data a command takes keep R259; a key block keeps R271. -/
def KeyArgs.zerosOk (k : KeyArgs) : Bool :=
  match k.op with
  | 1 => keyZeros k.profile (k.data.take 48)
  | 2 => keyZeros k.profile (slice k.data 48 48)
  | 3 => keyZeros k.profile (k.data.take 48) && keyZeros k.profile (slice k.data 48 48)
  | 4 => (slice k.data k.iceLen (32 - k.iceLen)).all (· == 0)
  | _ =>
    let n := byteAt k.data 32
    (n == 16 || n == 32) && (slice k.data n (32 - n)).all (· == 0) && (slice k.data 33 31).all (· == 0)

/-- The status a key command is refused with, in the order of R265. -/
def Dev.keyRefusal (d : Dev) (fn : Fn) (k : KeyArgs) : Option Status :=
  let r := d.row k.berth
  let own := match fn with
    | .pf => 0
    | .vf v => d.vfTenant v
  if !d.flag Reg.bnd_EN || d.follows then some .refusedNoUnit
  else if k.op = 5 then
    if !k.zerosOk || !(d.wrapKey own).set || d.inRowRegion k.out 64 then some .refusedParam else none
  else if d.rowCount ≤ k.berth then some .refusedParam
  else if fn ≠ .pf ∧ r.get RowF.TENANT ≠ own then some .refusedTenant
  else if ! [stOpening, stLive, stQuarantine].contains (r.get RowF.STATE) then some .refusedParam
  else if r.get RowF.CLASS = classEss ∨ r.get RowF.CLASS = classHst then some .refusedParam
  else if k.op = 0 ∨ 5 < k.op then some .refusedParam
  else if k.op ≠ 4 ∧ (k.profile = 0 ∨ 4 < k.profile) then some .refusedParam
  else if (k.op = 1 ∨ k.op = 2) ∧ r.get RowF.PROFILE ≠ 0 ∧ r.get RowF.PROFILE ≠ k.profile then some .refusedParam
  else if k.op = 4 ∧ (k.iceLen < 22 ∨ 32 < k.iceLen) then some .refusedParam
  else if !k.zerosOk then some .refusedParam
  else if !(d.wrapKey (r.get RowF.TENANT)).set then some .refusedParam
  else none

/-- A row with its send key set (SET_SEND of R264). -/
def Row.withSendKey (r : Row) (wrapped : Bytes) (tide : Nat) : Row :=
  let n := r.next
  ((((r.setBytes 0x80 wrapped).set RowF.TX_KEY_START_LO n).set RowF.TX_KEY_START_HI (n / 2 ^ 32)).set
    RowF.KEY_TIDE tide).set RowF.SRTCP_TX_INDEX 0

/-- A row with its receive key set (SET_RECV of R264). -/
def Row.withRecvKey (r : Row) (wrapped : Bytes) : Row :=
  ({ r with annex := splice r.annex 0 (wordsOf 12 wrapped) }).set RowF.SRTCP_RX_INDEX 0x7FFFFFFF

/-- The row after an accepted SET command (R264), written in one step (R266). -/
def Dev.keyedRow (d : Dev) (k : KeyArgs) : Row :=
  let r := d.row k.berth
  let key := (d.wrapKey (r.get RowF.TENANT)).key
  let wrap (tweak : Nat) (b : Bytes) : Bytes := padTo b.length (xtsEncrypt key tweak b.length b)
  let send (r : Row) : Row := r.withSendKey (wrap k.berth (k.data.take 48)) d.tide
  let recv (r : Row) : Row := r.withRecvKey (wrap (k.berth + 2 ^ 25) (slice k.data 48 48))
  let r' := match k.op with
    | 1 => (send r).set RowF.PROFILE k.profile
    | 2 => (recv r).set RowF.PROFILE k.profile
    | 3 => (recv (send r)).set RowF.PROFILE k.profile
    | _ =>
      let a := splice r.annex 12 (wordsOf 8 (wrap (k.berth + 2 ^ 26) (k.data.take 32)))
      { r with annex := putWfld a 20 5 0 k.iceLen }
  r'.bump RowF.KEY_GEN

/-- An accepted key command. -/
def Dev.keyApply (d : Dev) (fn : Fn) (k : KeyArgs) : Dev :=
  if k.op = 5 then
    let t := match fn with
      | .pf => 0
      | .vf v => d.vfTenant v
    let block := padTo 64 (xtsEncrypt (d.wrapKey t).key (2 ^ 27 + k.berth % 65536) 64 (k.data.take 64))
    d.holdStore k.out block bndPage
  else
    let d := (d.setRow k.berth (d.keyedRow k)).noteLines d k.berth
    if k.op = 1 ∨ k.op = 3 then
      { d with btc := { d.btc with renewed := if d.btc.renewed.contains k.berth then d.btc.renewed
        else k.berth :: d.btc.renewed } }
    else d

/-- GO of a key port: the command in its registers, its result, its data registers cleared (R264–R266, R274). -/
def Dev.keyGo (d : Dev) (fn : Fn) : Dev :=
  let k := d.keyArgs fn
  let t := match fn with
    | .pf => if k.op = 5 then 0 else d.rowGet k.berth RowF.TENANT
    | .vf v => d.vfTenant v
  let (d, st, gen) := match d.keyRefusal fn k with
    | some st => ((d.raise bndPage 5).raiseTenant t 5, st.code, 0)
    | none =>
      let d := d.keyApply fn k
      (d, Status.done.code, if k.op = 5 then 0 else d.rowGet k.berth RowF.KEY_GEN)
  let a := keyPortAddr fn
  let d := d.setWord (a + 0x14) (BitVec.ofNat 32 (2 ^ 30 + gen * 256 + st))
  (List.range 24).foldl (fun d i => d.setWord (a + 0x40 + 4 * i) 0) d

/-! ### Key lifetime (R268, R269) -/

/-- A packet meets the limit of its send key (R268). -/
def Dev.keyExhausted (d : Dev) (b : Nat) : Dev :=
  let t := d.rowGet b RowF.TENANT
  let d := ((d.bump Reg.bnd_KEY_EXHAUST_DROP).raiseLog bndPage 3 1 b t).raiseTenant t 2
  d.quarantineLive b causeKey

/-- A count that moves from below its limit minus KEY_WARN to at or above it (R269). -/
def Dev.keyWarn (d : Dev) (b : Nat) (before after limit : Int) : Dev :=
  let w : Int := limit - d.get Reg.bnd_KEY_WARN
  let t := d.rowGet b RowF.TENANT
  if before < w ∧ w ≤ after then (d.raiseLog bndPage 2 1 b t).raiseTenant t 1 else d

/-! ### Egress (R254, R255) -/

/-- The index of a copy with sequence number s where N is next (R254): within N − 32,768 to N + 32,767. -/
def copyIndex (n s : Nat) : Int := (n : Int) - 32768 + Int.emod ((s : Int) - (n : Int) + 32768) 65536

/-- SKIP (R546): 2^SKIP_LOG2, held within 6 to 12. -/
def Dev.skip (d : Dev) : Nat := 2 ^ max 6 (min 12 (d.get Reg.mrg_SKIP_LOG2))

/-- Whether an advance from the value at the start of the Tide by `k` is more than an active whose standby is SYNCED
may make (R547). -/
def Dev.skipGuard (d : Dev) (k : Nat) : Bool :=
  d.role == roleActive && d.mrg.partnerSync == 2 && decide (d.skip / 8 < k)

/-- The send state row `b` began the Tide with. -/
def Dev.startState (d : Dev) (b : Nat) : Nat × Nat × Nat := (d.noted b).getD (d.row b).sendState

/-- Whether the Bond is in service (R273). -/
def Dev.bondOn (d : Dev) : Bool := d.flag Reg.bnd_EN && d.live bndPage

/-- The AES pipeline that carries a row in a direction (R247–R249): the one its traffic is given to, or the spare that stands in for
it; of a pipeline lost without a spare, one of those that are left. -/
def Dev.pipeOf (d : Dev) (b : Nat) (send : Bool) : Option Nat :=
  let at_ (l : List Nat) : Option Nat := l[Config.bondPipe b send l.length % l.length]?
  match at_ (List.range (d.serviceCount ukAes)) with
  | none => none
  | some i => if d.inService ⟨ukAes, i⟩ then some (d.executor ⟨ukAes, i⟩).idx
    else (at_ ((List.range (d.serviceCount ukAes)).filter fun i => d.inService ⟨ukAes, i⟩)).map fun i => (d.executor ⟨ukAes, i⟩).idx

/-- What drops a packet of row `b` before it enters a pipeline: the Bond out of service (R273), or no pipeline left (R249). -/
def Dev.bondShut (d : Dev) (b : Nat) (send : Bool) : Option RegField :=
  if !d.bondOn then some Reg.bnd_BND_OFF_DROP
  else if (d.pipeOf b send).isNone then some Reg.bnd_PIPE_FAULT_DROP
  else none

/-- An RTP copy of row `b` enters the Bond with `extra` bytes around it in its frame (R254): the protected
packet, or none where it is dropped. On a STANDBY or FENCED device nothing is sent that would change a row (R540). -/
def Dev.bondSend (d : Dev) (b : Nat) (rtp : Bytes) (extra : Nat) : Dev × Option Bytes :=
  let r := d.row b
  let p := r.get RowF.PROFILE
  if d.follows then (d, none)
  else
    match d.bondShut b true with
    | some c => (d.bump c, none)
    | none =>
      match d.sendKey b with
      | none => (d.unwrapFailed b, none)
      | some (key, salt) =>
        let n := d.nextIndex b
        let i := copyIndex n (beAt rtp 2 2)
        let start : Nat := r.get RowF.TX_KEY_START_LO + 2 ^ 32 * r.get RowF.TX_KEY_START_HI
        let limit : Nat := d.get64 Reg.bnd_SRTP_LIMIT_LO Reg.bnd_SRTP_LIMIT_HI
        if d.maxFrame (r.get RowF.LPORT) < rtp.length + srtpTag p + extra then ((d.bump Reg.bnd_TX_LEN_DROP).raise bndPage 6, none)
        else if i < n then ((d.bump Reg.bnd_TX_ORDER_DROP).raise bndPage 6, none)
        else if (limit : Int) ≤ i - start ∨ (2 ^ 48 : Int) ≤ i then (d.keyExhausted b, none)
        else if d.skipGuard (i.toNat + 1 - (d.startState b).1) then (d.bump Reg.mrg_SKIP_GUARD_DROP, none)
        else
          let d := d.keyWarn b ((n : Int) - 1 - start) (i - start) limit
          let next := i.toNat + 1
          let d := (d.mapRow b fun r => (r.set RowF.TX_ROC (next / 65536)).set RowF.TX_SEQ next).noteNext b next
          (d, some (padTo (rtp.length + srtpTag p) (srtpProtect p key salt i.toNat rtp)))

/-- A compound RTCP packet of row `b` enters the Bond (R253, R255, R268). -/
def Dev.bondSendRtcp (d : Dev) (b : Nat) (rtcp : Bytes) (extra : Nat) : Dev × Option Bytes :=
  let r := d.row b
  let p := r.get RowF.PROFILE
  if d.follows then (d, none)
  else
    match d.bondShut b true with
    | some c => (d.bump c, none)
    | none =>
      match d.sendKey b with
      | none => (d.unwrapFailed b, none)
      | some (key, salt) =>
        let i := r.get RowF.SRTCP_TX_INDEX
        let limit : Nat := d.get Reg.bnd_SRTCP_LIMIT
        if d.maxFrame (r.get RowF.LPORT) < rtcp.length + srtcpTag p + 4 + extra then ((d.bump Reg.bnd_TX_LEN_DROP).raise bndPage 6, none)
        else if limit ≤ i + 1 then (d.keyExhausted b, none)
        else if d.skipGuard (i + 1 - (d.startState b).2.2) then (d.bump Reg.mrg_SKIP_GUARD_DROP, none)
        else
          let d := (d.keyWarn b (i : Int) ((i : Int) + 1) (limit : Int)).rowSet b RowF.SRTCP_TX_INDEX (i + 1)
          (d, some (padTo (rtcp.length + srtcpTag p + 4) (srtcpProtect p key salt i rtcp)))

/-! ### Ingress (R256, R257) -/

/-- The index estimate of RFC 3711 Appendix A, a roll-over guess of −1 taken as 0 (R256). -/
def guessIndex (roc high seq : Nat) : Nat :=
  let v := if high < 32768 then (if high + 32768 < seq then roc - 1 else roc)
    else (if seq < high - 32768 then (roc + 1) % 2 ^ 32 else roc)
  v * 65536 + seq

/-- H of R256. -/
def Row.high (r : Row) : Nat := r.get RowF.RX_ROC * 65536 + r.get RowF.RX_HIGH_SEQ

/-- REPLAY_WIN of a row. -/
def Row.window (r : Row) : Nat := leNat (r.bytes 0x70 16)

/-- Whether index i is replayed or too old for a row (R256 step 2). -/
def Row.replayed (r : Row) (i : Nat) : Bool :=
  decide (i + 127 < r.high) || (decide (i ≤ r.high) && bitAt r.window (r.high - i))

/-- A row after index i is accepted (R256 step 4). -/
def Row.accept (r : Row) (i : Nat) : Row :=
  let h := r.high
  if h < i then
    let win := (r.window * 2 ^ (i - h) + 1) % 2 ^ 128
    ((r.set RowF.RX_ROC (i / 65536)).set RowF.RX_HIGH_SEQ i).setBytes 0x70 (leBytes 16 win)
  else r.setBytes 0x70 (leBytes 16 (r.window ||| 2 ^ (h - i)))

/-- A packet fails verification (R256): a counter of the Bond and one of the row. -/
def Dev.rxFail (d : Dev) (b : Nat) (c : RegField) (f : RowField) : Dev := (d.bump c).rowBump b f

/-- An SRTP packet of row `b` enters the Bond (R256, R258). -/
def Dev.bondReceive (d : Dev) (b : Nat) (pkt : Bytes) : Dev × Option Bytes :=
  let r := d.row b
  let p := r.get RowF.PROFILE
  match d.bondShut b false with
  | some c => (d.bump c, none)
  | none =>
    match d.recvKey b with
    | none => (d.unwrapFailed b, none)
    | some (key, salt) =>
      match rtpOf pkt with
      | none => (d.rxFail b Reg.bnd_RX_SHORT RowF.AUTH_FAIL, none)
      | some h =>
        let i := guessIndex (r.get RowF.RX_ROC) (r.get RowF.RX_HIGH_SEQ) h.seq
        if pkt.length < h.hdrLen + srtpTag p then (d.rxFail b Reg.bnd_RX_SHORT RowF.AUTH_FAIL, none)
        else if r.replayed i then (d.rxFail b Reg.bnd_RX_REPLAY RowF.REPLAY_DROP, none)
        else
          match srtpUnprotect p key salt i pkt with
          | none => (d.rxFail b Reg.bnd_RX_AUTH_FAIL RowF.AUTH_FAIL, none)
          | some m => (d.mapRow b (·.accept i), some (padTo (pkt.length - srtpTag p) m))

/-- An SRTCP packet of row `b` enters the Bond (R257, R253, R258). -/
def Dev.bondReceiveRtcp (d : Dev) (b : Nat) (pkt : Bytes) : Dev × Option Bytes :=
  let r := d.row b
  let p := r.get RowF.PROFILE
  match d.bondShut b false with
  | some c => (d.bump c, none)
  | none =>
    match d.recvKey b with
    | none => (d.unwrapFailed b, none)
    | some (key, salt) =>
      if pkt.length < 8 + srtcpTag p + 4 then (d.rxFail b Reg.bnd_RX_SHORT RowF.AUTH_FAIL, none)
      else
        let j := srtcpIndex p pkt
        let gap := (j + 2 ^ 31 - r.get RowF.SRTCP_RX_INDEX) % 2 ^ 31
        if gap = 0 ∨ 2 ^ 30 < gap then (d.rxFail b Reg.bnd_RX_REPLAY RowF.REPLAY_DROP, none)
        else
          match srtcpUnprotect p key salt pkt with
          | none => (d.rxFail b Reg.bnd_RX_AUTH_FAIL RowF.AUTH_FAIL, none)
          | some m => (d.rowSet b RowF.SRTCP_RX_INDEX j, some (padTo (pkt.length - srtcpTag p - 4) m))

end Sys2Proof.Machine
end

