-- ==== Sys2Proof/Machine/Tally.lean ====
section
/-!
DEFINITION. The Tally (chapter 9, R305–R312, R316): nodes and their credits, copies that wait, the hand-over to
the Quays, and node writes.
-/

namespace Sys2Proof.Machine

/-- The Tally page. -/
def tlyPage : Page := ⟨.tly, 0⟩

/-- A node as it is before anything is stored in it: unshaped, on logical port 0. -/
def TallyNode.new : TallyNode := ⟨0, 0, 0, 0, []⟩

/-- Subscriber node `n`. -/
def Dev.subNode (d : Dev) (n : Nat) : TallyNode := (assoc? n d.tly.subs).getD TallyNode.new

/-- Service node 8 × subscriber + service. -/
def Dev.svcNode (d : Dev) (k : Nat) : TallyNode := (assoc? k d.tly.svcs).getD TallyNode.new

/-- The device with a subscriber node replaced. -/
def Dev.setSub (d : Dev) (n : Nat) (x : TallyNode) : Dev :=
  { d with tly := { d.tly with subs := assocPut TallyNode.new n x d.tly.subs } }

/-- The device with a service node replaced. -/
def Dev.setSvc (d : Dev) (k : Nat) (x : TallyNode) : Dev :=
  { d with tly := { d.tly with svcs := assocPut TallyNode.new k x d.tly.svcs } }

/-- The credit of port node `l`. -/
def Dev.portCredit (d : Dev) (l : Nat) : Int := (assoc? l d.tly.ports).getD 0

/-- The transmit queue of service `s` on logical port `l` (R311). -/
def Dev.txqOf (d : Dev) (l s : Nat) : Nat := bits (d.get Reg.tly_TXQ_MAP [l]) (3 * s + 2) (3 * s)

/-- Whether a node of this rate and credit is eligible (R306). -/
def eligibleNode (rate : Nat) (credit : Int) : Bool := rate == 0 || decide (256 ≤ credit)

/-- The credit of a shaped node after a copy passes it, never below a floor (R306, R308). -/
def spend (rate : Nat) (credit floor : Int) : Int := if rate = 0 then credit else max floor (credit - 256)

/-- One packet of credit taken from each shaped node on a path, each down to its floor: −BURST for a reserved
copy (R308). -/
def Dev.takeCredit (d : Dev) (l sub svc : Nat) (reserved : Bool) : Dev :=
  let floor (burst : Nat) (c : Int) : Int := if reserved then min c (-(256 * burst : Int)) else c - 256
  let pb := d.get Reg.tly_PORT_BURST [l]
  let pc := d.portCredit l
  let pc' := spend (d.get Reg.tly_PORT_RATE [l]) pc (floor pb pc)
  let d := { d with tly := { d.tly with ports := assocPut 0 l pc' d.tly.ports } }
  let x := d.subNode sub
  let d := d.setSub sub { x with credit := spend x.rate x.credit (floor x.burst x.credit) }
  let k := 8 * sub + svc
  let y := d.svcNode k
  d.setSvc k { y with credit := spend y.rate y.credit (floor y.burst y.credit) }

/-- The logical port and the transmit queue of service node `k`, as its subscriber's LPORT and TXQ_MAP stand (R305, R311). -/
def Dev.nodeTxq (d : Dev) (k : Nat) : Nat × Nat :=
  let l := (d.subNode (k / 8)).lport
  (l, d.txqOf l (k % 8))

/-- The round-robin of transmit queue `q` of port `l`: the service nodes with copies waiting there, in turn. -/
def Dev.robin (d : Dev) (l q : Nat) : List Nat := d.tly.robin.filter fun k => d.nodeTxq k == (l, q)

/-- Service node `k` takes the last place in its round-robin. -/
def Dev.toTail (d : Dev) (k : Nat) : Dev := { d with tly := { d.tly with robin := d.tly.robin.filter (· != k) ++ [k] } }

/-- A copy reaches the Tally (R305, R308, R310, R311): a reserved one goes to its transmit queue at once, an
unreserved one waits in its service node. `txq` overrides the queue of its service (FAN_TXQ). -/
def Dev.tallyCopy (d : Dev) (l sub svc b : Nat) (f : TxFrame) (reserved : Bool) (txq : Option Nat := none) : Dev :=
  if !d.flag Reg.tly_EN || !d.live tlyPage then d
  else if !d.inService ⟨ukTly, 0⟩ then d.bump Reg.tly_PIPE_FAULT_DROP
  else if (d.subNode sub).lport ≠ l then d.countRaise tlyPage 3 Reg.tly_PORT_MISMATCH
  else if reserved then (d.takeCredit l sub svc true).enqueueTx l (txq.getD (d.txqOf l svc)) f
  else
    let k := 8 * sub + svc
    let x := d.svcNode k
    if atLeast1 (d.get Reg.tly_QMAX) ≤ x.fifo.length then d.countRaise tlyPage 1 Reg.tly_DROP_FULL
    else
      let e := d.setSvc k { x with fifo := x.fifo ++ [⟨f, b, d.tide⟩] }
      if x.fifo.isEmpty then e.toTail k else e

/-- A copy of a row reaches the Tally at the row's nodes. -/
def Dev.tallyRow (d : Dev) (b : Nat) (f : TxFrame) (reserved : Bool) (txq : Option Nat := none) : Dev :=
  let r := d.row b
  d.tallyCopy (r.get RowF.LPORT) (r.get RowF.TALLY_SUB) (r.get RowF.TALLY_SVC) b f reserved txq

/-- B_PORT of a logical port (R309); none where the port does not exist. -/
def Dev.bPort (d : Dev) (l : Nat) : Nat :=
  if !d.portExists l then 0
  else match d.portRate l with
  | 400 => 16384
  | 200 => 8192
  | _ => 4096

/-- The bytes that a port's transmit queues hold together. -/
def Dev.txBytes (d : Dev) (l : Nat) : Nat := ((d.port l).txq.map fun q => (q.map TxFrame.length).sum).sum

/-- Whether service node `k` of port `l` has an eligible head (R306, R309). -/
def Dev.headEligible (d : Dev) (l k : Nat) : Bool :=
  let x := d.svcNode k
  let y := d.subNode (k / 8)
  !x.fifo.isEmpty && eligibleNode x.rate x.credit && eligibleNode y.rate y.credit &&
    eligibleNode (d.get Reg.tly_PORT_RATE [l]) (d.portCredit l)

/-- The first service node in the highest transmit queue that has an eligible head, and its queue (R309). -/
def Dev.nextWaiting (d : Dev) (l : Nat) : Option (Nat × Nat) :=
  [7, 6, 5, 4, 3, 2, 1, 0].findSome? fun q => ((d.robin l q).find? (d.headEligible l)).map fun k => (q, k)

/-- A service node's head leaves its FIFO; a node that becomes empty leaves its round-robin. -/
def Dev.dropHead (d : Dev) (k : Nat) : Dev :=
  let x := d.svcNode k
  let d := d.setSvc k { x with fifo := x.fifo.drop 1 }
  if x.fifo.length ≤ 1 then { d with tly := { d.tly with robin := d.tly.robin.filter (· != k) } } else d

/-- The head of a service node has had its turn (R309). -/
def Dev.takeTurn (d : Dev) (k : Nat) : Dev :=
  let d := d.dropHead k
  if (d.svcNode k).fifo.isEmpty then d else d.toTail k

/-- The UDP checksum of a frame over IPv4 at the egress stage, as UDP4_CSUM stands then (R279). -/
def Dev.egress (d : Dev) (f : TxFrame) : TxFrame :=
  let o := if beAt f.bytes 12 2 = 0x8100 then 18 else 14
  if beAt f.bytes (o - 2) 2 ≠ 0x0800 then f
  else
    let u := o + 20
    let bare := splice f.bytes (u + 6) [0, 0]
    let len := beAt f.bytes (u + 4) 2
    let c := checksum (pseudoSum (slice bare (o + 12) 4) (slice bare (o + 16) 4) len + sum16 (slice bare u len))
    { f with bytes := if d.flag Reg.fry_UDP4_CSUM then splice bare (u + 6) (beBytes 2 (if c = 0 then 65535 else c)) else bare }

/-- TALLY_HANDOVER of a logical port (R309, R311). -/
def Dev.tallyHandover (d : Dev) (l : Nat) : Dev :=
  if !d.flag Reg.tly_EN || !d.live tlyPage || !d.inService ⟨ukTly, 0⟩ || !d.portExists l || decide (d.bPort l ≤ d.txBytes l) then d
  else
    match d.nextWaiting l with
    | none => d
    | some (q, k) =>
      match (d.svcNode k).fifo with
      | [] => d
      | c :: _ => ((d.takeCredit l (k / 8) (k % 8) false).takeTurn k).enqueueTx l q (d.egress c.frame)

/-- TALLY_AGE_DROP of a service node: a head that has waited HOLD_LIMIT Tides (R310). -/
def Dev.tallyAgeDrop (d : Dev) (sub svc : Nat) : Dev :=
  let k := 8 * sub + svc
  match (d.svcNode k).fifo with
  | [] => d
  | c :: _ =>
    if d.tide < c.since + atLeast1 (d.get Reg.tly_HOLD_LIMIT) then d
    else (d.dropHead k).countRaise tlyPage 2 Reg.tly_DROP_AGE

/-! ### Refill (R306, R307) -/

/-- A credit after a Tide boundary's refill; a node with nothing waiting is clamped. -/
def refilled (rate burst idle : Nat) (credit : Int) (waiting : Bool) : Int :=
  let c := min (256 * burst : Int) (credit + rate)
  if waiting then c else min c (min (256 * burst : Int) (256 * idle))

/-- A node after a refill; an unshaped node keeps no credit. -/
def TallyNode.refill (x : TallyNode) (idle : Nat) (waiting : Bool) : TallyNode :=
  if x.rate = 0 then { x with credit := 0 } else { x with credit := refilled x.rate x.burst idle x.credit waiting }

/-- Whether any service node of a subscriber has a copy waiting. -/
def Dev.subWaiting (d : Dev) (n : Nat) : Bool := d.tly.svcs.any fun x => x.1 / 8 == n && !x.2.fifo.isEmpty

/-- The refill of every node at a Tide boundary. -/
def Dev.tallyRefill (d : Dev) : Dev :=
  let idle := d.get Reg.tly_IDLE_CREDIT
  let keep (l : List (Nat × TallyNode)) := l.filter fun x => decide (x.2 ≠ TallyNode.new)
  let ports := (List.range 16).filterMap fun l =>
    let rate := d.get Reg.tly_PORT_RATE [l]
    let waiting := (List.range 8).any fun q => !(d.robin l q).isEmpty
    let c := refilled rate (d.get Reg.tly_PORT_BURST [l]) idle (d.portCredit l) waiting
    if rate = 0 ∨ c = 0 then none else some (l, c)
  let subs := keep (d.tly.subs.map fun x => (x.1, x.2.refill idle (d.subWaiting x.1)))
  let svcs := keep (d.tly.svcs.map fun x => (x.1, x.2.refill idle (!x.2.fifo.isEmpty)))
  { d with tly := { d.tly with ports := ports, subs := subs, svcs := svcs } }

/-! ### Node writes (R316) -/

/-- The words of the node port: its registers 0x200–0x218. -/
def Dev.nodeWords (d : Dev) : List Word := (List.range 7).map fun i => d.word (0xF0200 + 4 * i)

/-- A node write, stored: it takes effect for the credit at the next refill. -/
def Dev.nodeStore (d : Dev) (w : List Word) : Dev :=
  let sub := wfld w 0 17 0
  let rate := wfld w 1 23 0
  let burst := wfld w 2 15 0
  if wfld w 0 31 31 = 0 then d.setSub sub { d.subNode sub with rate := rate, burst := burst, lport := wfld w 3 3 0 }
  else
    let k := 8 * sub + wfld w 0 22 20
    d.setSvc k { d.svcNode k with rate := rate, burst := burst }

/-- Whether a node write is refused: it names a logical port absent in its Quay's mode. -/
def Dev.nodeBad (d : Dev) (w : List Word) : Bool := wfld w 0 31 31 == 0 && !d.portExists (wfld w 3 3 0)

/-- The status and apply fields of the node port. -/
def Dev.nodeResult (d : Dev) (apply : Nat) (st : Status) : Dev :=
  (d.set Reg.tly_NODE_APPLY apply).set Reg.tly_NODE_STATUS st.code

/-- The key of the node a write names. -/
def nodeKey (w : List Word) : Nat := wfld w 0 31 31 * 2 ^ 32 + wfld w 0 22 0

/-- GO of the node port (R316): stored at once, or staged under R149, a second one for a node replacing the
first. -/
def Dev.nodeGo (d : Dev) : Dev :=
  let w := d.nodeWords
  let d := { d with tly := { d.tly with staged := d.tly.staged.map StagedWords.old } }
  if d.nodeBad w then d.nodeResult 0 .refusedParam
  else if wfld w 4 16 16 = 0 then (d.nodeStore w).nodeResult 0 .done
  else
    let t := wfld w 5 31 0 + 2 ^ 32 * wfld w 6 31 0
    let rest := d.tly.staged.filter fun (s : StagedWords) => s.key != nodeKey w
    if 16384 ≤ rest.length then d.nodeResult 0 .refusedBudget
    else
      let d := { d with tly := { d.tly with staged := rest ++ [(⟨nodeKey w, 0, w, t, d.begun t, true⟩ : StagedWords)] } }
      d.nodeResult 1 .done

/-- A staged node write applies at its Tide boundary, or is dropped if its port has gone (R316, R151). -/
def Dev.nodeApply (d : Dev) (s : StagedWords) : Dev :=
  let bad := d.nodeBad s.words
  let d := if bad then d else d.nodeStore s.words
  let d := if s.late && !bad then d.raise tlyPage 4 else d
  if s.last then d.set Reg.tly_NODE_APPLY (if bad then 4 else if s.late then 3 else 2) else d

/-- The staged node writes due in the Tide that begins. -/
def Dev.tallyStaged (d : Dev) : Dev :=
  let due := d.tly.staged.filter fun s => decide (s.applyTide ≤ d.tide)
  let d := { d with tly := { d.tly with staged := d.tly.staged.filter fun s => decide (d.tide < s.applyTide) } }
  due.foldl Dev.nodeApply d

end Sys2Proof.Machine
end

