-- ==== Sys2Proof/Machine/Kfr.lean ====
section
/-!
DEFINITION. Headers of egress copies (R278), the NTP form of time (R236, R304), and keyframe requests
(R240, R241).
-/

namespace Sys2Proof.Machine

/-- The Breakwater page. -/
def bwrPage : Page := ⟨.bwr, 0⟩

/-- The 64-bit NTP form of an instant in ns. -/
def ntp64 (ns : Nat) : Nat := (ns / 1000000000 + Config.ntpOffset) % 2 ^ 32 * 2 ^ 32 + ns % 1000000000 * 2 ^ 32 / 1000000000

/-- The middle 32 bits of the NTP form. -/
def ntpMid (ns : Nat) : Nat := ntp64 ns / 65536 % 2 ^ 32

/-- The address of entry `a` of Quay `q`'s local address table (R243). -/
def Dev.localAddr (d : Dev) (q a : Nat) : Bytes :=
  bytesOfWords ((List.range 4).map fun i => BitVec.ofNat 32 (d.get Reg.bwr_LADDR_ADDR [q, a, i]))

/-- The headers of a copy for row `r` (R278); none where its next hop is not valid. -/
def Dev.headersOf (d : Dev) (r : Row) : Option Headers :=
  let q := r.get RowF.QUAY
  match assoc? (4096 * q + r.get RowF.NEXTHOP) d.fry.nextHops with
  | none => none
  | some mac =>
    if 4096 ≤ r.get RowF.NEXTHOP then none
    else some {
      dst := beBytes 6 mac
      src := d.lmac (r.get RowF.LPORT)
      vlan := if r.get RowF.VLAN_EN = 1 then some (r.get RowF.PCP * 8192 + r.get RowF.VLAN_ID) else none
      v6 := r.get RowF.IPV6 == 1
      ipSrc := d.localAddr q (r.get RowF.LOCAL_ADDR)
      ipDst := r.bytes 0x18 16
      dscp := d.get Reg.fry_DSCP [r.get RowF.TALLY_SVC]
      ttl := d.get Reg.fry_TTL
      sport := r.get RowF.LOCAL_PORT
      dport := r.get RowF.REMOTE_PORT
      csum4 := d.flag Reg.fry_UDP4_CSUM }

/-- A copy without a valid next hop is dropped (R278). -/
def Dev.nhInvalid (d : Dev) : Dev := (d.bump Reg.fry_NH_INVALID).raise fryPage 4

/-- Whether copies of a row are copies of a reservation (R308). -/
def Row.reserved (r : Row) : Bool := r.get RowF.PINNED == 1

/-- A compound RTCP packet the device sends on row `b` (R241, R255, R304): encrypted, then to the Tally. While the BTC's EN is 0
the row is not looked up, and nothing is sent (R155). -/
def Dev.sendRtcp (d : Dev) (b : Nat) (rtcp : Bytes) (reserved : Bool) : Dev × Bool :=
  if !d.flag Reg.btc_EN then (d, false)
  else match d.headersOf (d.row b) with
  | none => (d.nhInvalid, false)
  | some h =>
    match d.bondSendRtcp b rtcp (h.length + 4) with
    | (d, none) => (d, false)
    | (d, some p) => (d.tallyRow b { bytes := frameOf h p } reserved, true)

/-! ### Keyframe requests -/

/-- Whether a keyframe request on row `b` is valid (R240). -/
def Dev.kfrValid (d : Dev) (b : Nat) : Bool :=
  let r := d.row b
  decide (b < d.rowCount) && r.get RowF.STATE == stLive &&
    (r.get RowF.CLASS == classFwd || r.get RowF.CLASS == classTrk) && r.get RowF.PROFILE != 0

/-- A valid keyframe request: suppressed within KFR_MIN_TIDES of the last one accepted, dropped at a full FIFO,
else accepted (R240). -/
def Dev.kfrAccept (d : Dev) (fir : Bool) (b : Nat) : Dev :=
  if (d.tide + 2 ^ 32 - d.rowGet b RowF.KFR_TIDE) % 2 ^ 32 < d.get Reg.bwr_KFR_MIN_TIDES then
    d.bump Reg.bwr_KFR_SUPPRESSED
  else
    let d := d.rowSet b RowF.KFR_TIDE d.tide
    if 4096 ≤ d.bwr.kfr.length then (d.bump Reg.bwr_KFR_OVF).raise bwrPage 4
    else { d with bwr := { d.bwr with kfr := d.bwr.kfr ++ [(fir, b)] } }

/-- A request from a VDE or the Ferry (R240). -/
def Dev.kfrInternal (d : Dev) (fir : Bool) (b : Nat) : Dev :=
  if d.kfrValid b then d.kfrAccept fir b else d.bump Reg.bwr_KFR_INVALID

/-- A request from the host through BWR_KFR_CMD (R240, R242). -/
def Dev.kfrHost (d : Dev) (fir : Bool) (b : Nat) : Dev :=
  if d.follows then d.set Reg.bwr_KFR_STATUS Status.refusedNoUnit.code
  else if !d.kfrValid b then d.set Reg.bwr_KFR_STATUS Status.refusedParam.code
  else (d.kfrAccept fir b).set Reg.bwr_KFR_STATUS Status.done.code

/-- The RTCP packet of a keyframe request (R241): PLI, or FIR with its sequence number. -/
def kfrPacket (fir : Bool) (tx rx firSeq : Nat) : Bytes :=
  if fir then [0x84, 206, 0, 4] ++ beBytes 4 tx ++ beBytes 4 0 ++ beBytes 4 rx ++ beBytes 1 firSeq ++ [0, 0, 0]
  else [0x81, 206, 0, 2] ++ beBytes 4 tx ++ beBytes 4 rx

/-- KFR_SEND: the head of the FIFO is sent while this Tide's budget lasts (R241). -/
def Dev.kfrSend (d : Dev) : Dev :=
  match d.bwr.kfr with
  | [] => d
  | (fir, b) :: t =>
    if d.get Reg.bwr_KFR_PER_TIDE ≤ d.bwr.kfrSent then d
    else
      let d := { d with bwr := { d.bwr with kfr := t, kfrSent := d.bwr.kfrSent + 1 } }
      let r := d.row b
      if r.get RowF.STATE ≠ stLive then d
      else
        let pkt := kfrPacket fir (r.get RowF.TX_SSRC) (r.get RowF.RX_SSRC) (r.get RowF.FIR_SEQ)
        let d := if fir then d.rowBump b RowF.FIR_SEQ else d
        let (d, sent) := d.sendRtcp b pkt false
        if sent then d.rowBump b (if fir then RowF.FIR_TX else RowF.PLI_TX) else d

end Sys2Proof.Machine
end

