-- ==== Sys2Proof/Machine/Layers.lean ====
section
/-!
DEFINITION. What the Ferry reads of a codec in a packet (R280, R283, R284): layer, picture start, key picture,
switch points and picture ID. The formats are those of the standards that R283 names.
-/

namespace Sys2Proof.Machine

/-- What one packet says of its layers. `tUps` and `sUps` are the layer bits (4 × s + t of R283) for which it is
a temporal or a spatial up-switch point; `pid` is the picture ID: its byte offset, its bits, its value. -/
structure LayerInfo where
  s : Nat := 0
  t : Nat := 0
  start : Bool := false
  key : Bool := false
  tUps : List Nat := []
  sUps : List Nat := []
  pid : Option (Nat × Nat × Nat) := none
  deriving DecidableEq, Repr

/-- The layer bit of R283. -/
def LayerInfo.bit (i : LayerInfo) : Nat := 4 * i.s + i.t

/-- A picture ID of 7 bits, or 15 bits where its first bit is set, at byte `o`. -/
def pidAt (b : Bytes) (o : Nat) : Nat × Nat × Nat :=
  if bitAt (byteAt b o) 7 then (o, 15, beAt b o 2 % 2 ^ 15) else (o, 7, byteAt b o % 128)

/-! ### VP8 and VP9 payload descriptors -/

/-- VP8 (RFC 7741), the payload at byte `p`. -/
def vp8Info (b : Bytes) (p : Nat) : LayerInfo :=
  let b0 := byteAt b p
  let ext := if bitAt b0 7 then byteAt b (p + 1) else 0
  let o := p + 1 + bitOf (bitAt b0 7)
  let pid := if bitAt ext 7 then some (pidAt b o) else none
  let o := match pid with
    | some (_, w, _) => o + (if w = 15 then 2 else 1)
    | none => o
  let o := o + bitOf (bitAt ext 6)
  let hasT := bitAt ext 5
  let tb := byteAt b o
  let o := o + bitOf (hasT || bitAt ext 4)
  let t := if hasT then tb / 64 else 0
  let start := bitAt b0 4 && b0 % 8 == 0
  { t := t, start := start, key := start && byteAt b o % 2 == 0, pid := pid
    tUps := if hasT && bitAt tb 5 then [t] else [] }

/-- VP9 (RFC 9628), the payload at byte `p`. -/
def vp9Info (b : Bytes) (p : Nat) : LayerInfo :=
  let b0 := byteAt b p
  let pid := if bitAt b0 7 then some (pidAt b (p + 1)) else none
  let o := match pid with
    | some (_, w, _) => p + 1 + (if w = 15 then 2 else 1)
    | none => p + 1
  let lb := byteAt b o
  let layered := bitAt b0 5
  let t := if layered then lb / 32 % 4 else 0
  let s := if layered then lb / 2 % 8 % 4 else 0
  let intra := !bitAt b0 6
  { s := s, t := t, start := bitAt b0 3, key := bitAt b0 3 && intra && s == 0, pid := pid
    tUps := if layered && bitAt lb 4 then [4 * s + t] else []
    sUps := if intra then [4 * s, 4 * s + 1, 4 * s + 2, 4 * s + 3] else [] }

/-! ### Frame marking (H.264 and H.265) -/

/-- Frame marking (RFC 9626) in an extension element at byte `o`. -/
def markInfo (b : Bytes) (o : Nat) : LayerInfo :=
  let m := byteAt b o
  let t := m % 8 % 4
  { t := t, start := bitAt m 7, key := bitAt m 7 && bitAt m 5, tUps := if bitAt m 3 then [t] else [] }

/-! ### AV1 Dependency Descriptor -/

/-- The bits of a run of bytes, the most significant first. -/
def bitsOf (b : Bytes) : List Bool := b.flatMap fun x => [7, 6, 5, 4, 3, 2, 1, 0].map (bitAt x.toNat)

/-- The number that the next `n` bits spell, and the bits after them. -/
def takeBits : Nat → List Bool → Nat × List Bool
  | 0, l => (0, l)
  | _ + 1, [] => (0, [])
  | n + 1, b :: t => let (v, r) := takeBits n t; (bitOf b * 2 ^ n + v, r)

/-- `n` numbers of `w` bits each. -/
def takeMany (w : Nat) : Nat → List Bool → List Nat × List Bool
  | 0, l => ([], l)
  | n + 1, l =>
    let (v, l) := takeBits w l
    let (vs, l) := takeMany w n l
    (v :: vs, l)

/-- The spatial and temporal index of each template. -/
def templateLayers : Nat → Nat → Nat → List Bool → List (Nat × Nat) × List Bool
  | 0, _, _, l => ([], l)
  | n + 1, s, t, l =>
    let (idc, l') := takeBits 2 l
    if l.isEmpty then ([(s, t)], [])
    else if idc = 0 then let (r, l) := templateLayers n s t l'; ((s, t) :: r, l)
    else if idc = 1 then let (r, l) := templateLayers n s (t + 1) l'; ((s, t) :: r, l)
    else if idc = 2 then let (r, l) := templateLayers n (s + 1) 0 l'; ((s, t) :: r, l)
    else ([(s, t)], l')

/-- The decode target indications of `n` templates, `k` each. -/
def templateDtis (k : Nat) : Nat → List Bool → List (List Nat) × List Bool
  | 0, l => ([], l)
  | n + 1, l =>
    let (d, l) := takeMany 2 k l
    let (r, l) := templateDtis k n l
    (d :: r, l)

/-- Whether a template's frame refers to others, its frame differences consumed. -/
def frameDiffs : Nat → Bool → List Bool → Bool × List Bool
  | 0, any, l => (any, l)
  | n + 1, any, l =>
    let (more, l) := takeBits 1 l
    if more = 0 then (any, l) else frameDiffs n true (takeBits 4 l).2

/-- Whether each of `n` templates refers to others. -/
def templateDiffs : Nat → List Bool → List Bool × List Bool
  | 0, l => ([], l)
  | n + 1, l =>
    let (a, l) := frameDiffs 64 false l
    let (r, l) := templateDiffs n l
    (a :: r, l)

/-- The next number below `n` in the code of AV1 for one (`ns(n)`), and the bits after it. -/
def takeBelow (n : Nat) (l : List Bool) : Nat × List Bool :=
  let w := Nat.log2 n
  let (v, l) := takeBits w l
  let short := 2 ^ (w + 1) - n
  if v < short then (v, l)
  else let (x, l) := takeBits 1 l; (2 * v - short + x, l)

/-- `n` numbers below `k` passed over. -/
def dropBelow (k : Nat) : Nat → List Bool → List Bool
  | 0, l => l
  | n + 1, l => dropBelow k n (takeBelow k l).2

/-- The chains of `dts` decode targets and `n` templates passed over. -/
def dropChains (dts n : Nat) (l : List Bool) : List Bool :=
  let (chains, l) := takeBelow (dts + 1) l
  if chains = 0 then l else (dropBelow chains dts l).drop (4 * n * chains)

/-- The template dependency structure that the bits begin with, its chains and resolutions passed over. -/
def structureOf (l : List Bool) : Av1Structure × List Bool :=
  let (idOffset, l) := takeBits 6 l
  let (dt, l) := takeBits 5 l
  let (layers, l) := templateLayers 64 0 0 l
  let (dtis, l) := templateDtis (dt + 1) layers.length l
  let (refs, l) := templateDiffs layers.length l
  let (res, l) := takeBits 1 (dropChains (dt + 1) layers.length l)
  let l := if res = 1 then l.drop (32 * ((layers.map (·.1)).foldl max 0 + 1)) else l
  (⟨idOffset, dt + 1, (layers.zip (refs.zip dtis)).map fun x => ⟨x.1.1, x.1.2, x.2.1, x.2.2⟩⟩, l)

/-- Whether a frame refers to others by its own frame differences: the size of the first is not 0. -/
def ownDiffs (l : List Bool) : Bool := (takeBits 2 l).1 != 0

/-- The layer that a decode target reaches: the highest of the templates present in it. -/
def Av1Structure.targetLayer (a : Av1Structure) (dt : Nat) : Nat × Nat :=
  let used := a.templates.filter fun x => x.dtis.getD dt 0 != 0
  (used.foldl (fun m x => max m x.s) 0, used.foldl (fun m x => max m x.t) 0)

/-- A Dependency Descriptor in an element of `n` bytes at byte `o`, after the structure `old`: the layers of its
frame, and the structure that holds from then on (R283, R284). -/
def av1Info (b : Bytes) (o n : Nat) (old : Option Av1Structure) : LayerInfo × Option Av1Structure :=
  let l := bitsOf (slice b o n)
  let (start, l) := takeBits 1 l
  let (_, l) := takeBits 1 l
  let (tid, l) := takeBits 6 l
  let (num, l) := takeBits 16 l
  let (flags, l) := if 3 < n then takeBits 5 l else (0, l)
  let present := bitAt flags 4
  let parsed := structureOf l
  let st := if present then some parsed.1 else old
  let l := if present then parsed.2 else l
  let pid := some (o + 1, 16, num)
  let base : LayerInfo := { start := start == 1, pid := pid }
  match st with
  | none => (base, none)
  | some a =>
    let idx := (tid + 64 - a.idOffset) % 64
    match a.templates[idx]? with
    | none => (base, st)
    | some tm =>
      let l := if bitAt flags 3 then l.drop a.targets else l
      let (own, l) := if bitAt flags 2 then takeMany 2 a.targets l else (tm.dtis, l)
      let refs := if bitAt flags 1 then ownDiffs l else tm.refs
      let ups := (List.range a.targets).filterMap fun dt =>
        if own.getD dt 0 = 2 then
          let x := a.targetLayer dt
          some (4 * (x.1 % 4) + x.2 % 4)
        else none
      ({ base with s := tm.s % 4, t := tm.t % 4, key := start == 1 && !refs && tm.s == 0 && present,
                   tUps := ups, sUps := ups }, st)

/-! ### By codec -/

/-- CODEC values of R280. -/
def codecOpaque : Nat := 0

/-- What a packet of a stream says (R283, R284), and the stream's state after it. `ddId` and `fmId` are the
extension IDs of the Ferry page. -/
def layerInfo (codec ddId fmId : Nat) (b : Bytes) (r : Rtp) (src : SrcState) : LayerInfo × SrcState :=
  let info : LayerInfo × Option Av1Structure := match codec with
    | 1 =>
      match r.ext? ddId with
      | some e => av1Info b e.ofs e.len src.av1
      | none => ({}, src.av1)
    | 2 => (vp8Info b r.hdrLen, src.av1)
    | 3 => (vp9Info b r.hdrLen, src.av1)
    | 4 | 5 =>
      match r.ext? fmId with
      | some e => (markInfo b e.ofs, src.av1)
      | none => ({}, src.av1)
    | _ => ({ start := src.marked, key := true, tUps := [0], sUps := [0] }, src.av1)
  (info.1, { marked := r.marker, av1 := info.2, key := if info.1.start then info.1.key else src.key })

end Sys2Proof.Machine
end

