-- ==== Sys2Proof/Machine/Ferry.lean ====
section
/-!
DEFINITION. The Ferry's copies (chapter 9, R277–R304): forwarding through sender groups, programme packets on
fan lists, feedback, and sender reports.
-/

namespace Sys2Proof.Machine

/-! ### Routes, streams and records -/

/-- The route of a source row (R280): that of a pinned row is kept on-chip, no entry being the entry of zeros; that of another is
read from Hold, an entry that cannot be read feeding nothing (DESIGN CHOICE, log entry 163). -/
def Dev.route (d : Dev) (b : Nat) : Dev × Option Route :=
  if d.rowGet b RowF.PINNED = 1 then (d, some ((assoc? b d.fry.routes).getD Route.none)) else d.fetchRoute b

/-- Stream `s` of group `g` (R281); one never set is not VALID and has no source row. -/
def Dev.stream (d : Dev) (g s : Nat) : GroupStream := (assoc? (16 * g + s) d.fry.streams).getD ⟨false, noBerth, 0⟩

/-- The record of a receiving row. -/
def Dev.rec? (d : Dev) (b : Nat) : Option RxRec := assoc? b d.fry.recs

/-- The receivers of a group. -/
def Dev.receivers (d : Dev) (g : Nat) : List Nat := (d.fry.recs.filter fun x => x.2.group == g).map (·.1)

/-- The device with a record replaced. -/
def Dev.setRec (d : Dev) (b : Nat) (x : RxRec) : Dev := { d with fry := { d.fry with recs := assocSet b x d.fry.recs } }

/-- The VALID streams of a group: index and rate. -/
def Dev.validStreams (d : Dev) (g : Nat) : List (Nat × Nat) :=
  (List.range 16).filterMap fun s => let x := d.stream g s; if x.valid then some (s, x.rate) else none

/-! ### The target stream (R286) -/

/-- The first of the streams with the highest rate. -/
def bestStream (l : List (Nat × Nat)) : Option Nat :=
  (l.foldl (fun (m : Option (Nat × Nat)) x => match m with
    | some y => if y.2 < x.2 then some x else some y
    | none => some x) none).map (·.1)

/-- The first of the streams with the lowest rate. -/
def leastStream (l : List (Nat × Nat)) : Option Nat :=
  (l.foldl (fun (m : Option (Nat × Nat)) x => match m with
    | some y => if x.2 < y.2 then some x else some y
    | none => some x) none).map (·.1)

/-- The target that AUTO chooses (R286). -/
def Dev.autoTarget (d : Dev) (x : RxRec) : Nat :=
  let est := d.rowGet (if x.est = noBerth then x.berth else x.est) RowF.EST_BPS
  let l := d.validStreams x.group
  let cur := (d.stream x.group x.cur).rate
  let fits (y : Nat × Nat) : Bool :=
    let pct := if x.curValid && decide (cur < y.2) then 100 + d.get Reg.fry_AUTO_HYST else 100
    decide (y.2 * 1000 * pct ≤ est * x.share)
  match bestStream (l.filter fits), leastStream l with
  | some s, _ => s
  | none, some s => s
  | none, none => x.target

/-- The target stream of a record when a packet arrives (R286). `start` tells whether it starts a picture of the
current stream. -/
def Dev.targetOf (d : Dev) (x : RxRec) (start : Bool) : Nat :=
  let r := d.row x.berth
  if r.get RowF.ADAPT_FLAGS % 2 = 1 then (if start || !x.curValid then d.autoTarget x else x.target)
  else if r.get RowF.CLASS = classXcd then r.get RowF.RUNG
  else x.stream

/-- A record whose target is `t`: a change of stream pends, from its first packet on (R287). -/
def RxRec.aim (x : RxRec) (t : Nat) : RxRec :=
  if x.curValid && x.cur == t then { x with target := t, pending := false, wait := 0, asked := false }
  else if x.pending && x.target == t then x
  else { x with target := t, pending := true, wait := 0, asked := false }

/-! ### Rewriting (R289, R290) -/

/-- A packet that feeds a sender group: its stream, its bytes and header, what it says of its layers, the
timestamp adjustment of its route, and the receive instant of a first copy. -/
structure GroupPacket where
  stream : Nat
  rtp : Bytes
  hdr : Rtp
  info : LayerInfo
  opq : Bool
  tsAdj : Nat
  rxNs : Option Nat
  deriving DecidableEq, Repr

/-- A row that a packet of its stream is not copied to (R289). -/
def Row.notSent (r : Row) (seq : Nat) : Row :=
  if (seq + r.get RowF.SEQ_OFS) % 65536 = r.get RowF.TX_SEQ then r.set RowF.SEQ_OFS (r.get RowF.SEQ_OFS + 65535) else r

/-- A packet of CUR_STREAM is not copied to a receiver (R289, R290). -/
def Dev.notCopied (d : Dev) (x : RxRec) (p : GroupPacket) : Dev :=
  let r := d.row x.berth
  let r' := r.notSent p.hdr.seq
  let r'' := match p.info.pid with
    | some (_, w, v) =>
      if p.info.start && (v + r.get RowF.PID_OFS) % 2 ^ w == (x.lastPid + 1) % 2 ^ w then
        r'.set RowF.PID_OFS (r.get RowF.PID_OFS + 65535) else r'
    | none => r'
  d.setRow x.berth r''

/-- The RTP packet of a copy with sequence number, timestamp, SSRC, picture ID and transport-wide sequence
number written (R278, R289, R290). -/
def rewritten (p : Bytes) (seq ts ssrc : Nat) (pid : Option (Nat × Nat × Nat)) (tw : Option (Nat × Nat)) : Bytes :=
  let b := splice (splice (splice p 2 (beBytes 2 seq)) 4 (beBytes 4 ts)) 8 (beBytes 4 ssrc)
  let b := match pid with
    | some (o, w, v) =>
      if w = 7 then splice b o (beBytes 1 (v % 128))
      else if w = 15 then splice b o (beBytes 2 (32768 + v % 32768))
      else splice b o (beBytes 2 v)
    | none => b
  match tw with
  | some (o, v) => splice b o (beBytes 2 v)
  | none => b

/-- A rewritten packet of row `b` goes on: its headers (R278), the Bond, the Tally. A copy that passes the Bond is
counted in the row. While the BTC's EN is 0 the row is not looked up, and no copy is made (R155). -/
def Dev.sendCopy (d : Dev) (b : Nat) (rtp : Bytes) (reserved : Bool) (note : TxNote := .plain)
    (txq : Option Nat := none) (limit : Option Nat := none) : Dev × Bool :=
  if !d.flag Reg.fry_EN || !d.live fryPage then (d.bump Reg.fry_OFF_DROP, false)
  else if !d.flag Reg.btc_EN then (d, false)
  else if !d.inService ⟨ukFry, d.rowGet b RowF.LPORT / 4⟩ then (d.bump Reg.fry_PIPE_FAULT_DROP, false)
  else
    match d.headersOf (d.row b) with
    | none => (d.nhInvalid, false)
    | some h =>
      let extra := h.length + 4
      if (limit.map fun m => decide (m < rtp.length + srtpTag (d.rowGet b RowF.PROFILE) + extra)).getD false then
        (d.bump Reg.fry_FAN_OVERSIZE, false)
      else
        match d.bondSend b rtp extra with
        | (d, none) => (d, false)
        | (d, some pkt) =>
          let body := rtp.length - ((rtpOf rtp).map (·.hdrLen)).getD 12
          let d := d.mapRow b fun r =>
            ((r.bump RowF.TX_PKTS).bump RowF.TX_OCTETS body).set RowF.LAST_TS (beAt rtp 4 4)
          (d.tallyRow b { bytes := frameOf h pkt, note := note } reserved txq, true)

/-- The transport-wide element of a copy and the number it carries (R278). -/
def Dev.twElement (d : Dev) (b : Nat) (hdr : Rtp) : Option (Nat × Nat) :=
  (hdr.ext? (d.get Reg.fry_TWSEQ_ID)).map fun e => (e.ofs, d.rowGet b RowF.TX_TWSEQ)

/-- A copy of a packet is made for row `b`; a transport-wide number it carries is used up. -/
def Dev.makeCopy (d : Dev) (b : Nat) (rtp : Bytes) (hdr : Rtp) (seq ts : Nat) (pid : Option (Nat × Nat × Nat))
    (reserved : Bool) (note : TxNote := .plain) (txq : Option Nat := none) (limit : Option Nat := none) : Dev :=
  let tw := d.twElement b hdr
  let pkt := rewritten rtp (seq % 65536) (ts % 2 ^ 32) (d.rowGet b RowF.TX_SSRC) pid tw
  let (d, sent) := d.sendCopy b pkt reserved note txq limit
  if sent && tw.isSome then d.rowBump b RowF.TX_TWSEQ else d

/-! ### Layer selection and switching (R285, R287) -/

/-- CUR_MASK after a packet of CUR_STREAM (R285): removed bits leave at a picture start, added ones join at a
switch point of their kind, all of them at a key picture. -/
def nextMask (cur want : Nat) (i : LayerInfo) : Nat :=
  let kept := if i.start then cur &&& want else cur
  (List.range 16).foldl (fun m k =>
    if bitAt want k && !bitAt m k then
      let spatial := (List.range 4).all fun t => !bitAt kept (k / 4 * 4 + t)
      if i.key || (if spatial then i.sUps else i.tUps).contains k then m ||| 2 ^ k else m
    else m) kept

/-- A record takes its target stream at a key picture of it (R287). -/
def Dev.switchStream (d : Dev) (x : RxRec) (p : GroupPacket) : Dev × RxRec :=
  let r := d.row x.berth
  let r' := r.set RowF.SEQ_OFS (r.get RowF.TX_SEQ + 65536 - p.hdr.seq)
  let r'' := match p.info.pid with
    | some (_, _, v) => r'.set RowF.PID_OFS (x.lastPid + 1 + 65536 - v)
    | none => r'
  let mask := r.get RowF.LAYER_MASK
  ((d.setRow x.berth r'').bump Reg.fry_SWITCH_DONE,
    { x with cur := x.target, curValid := true, curMask := mask, picMask := mask, pending := false, wait := 0,
             asked := false })

/-- One packet of a group at one record (R284–R290). -/
def Dev.feedRecord (d : Dev) (p : GroupPacket) (b : Nat) : Dev :=
  match d.rec? b with
  | none => d
  | some x0 =>
    if d.rowState b ≠ stLive then d
    else
      let ofCur := x0.curValid && x0.cur == p.stream
      let x1 := x0.aim (d.targetOf x0 (ofCur && p.info.start))
      let atKey := p.info.key && (p.info.start || p.opq)
      let (d, x2) := if x1.pending && x1.target == p.stream && atKey then d.switchStream x1 p else (d, x1)
      if !x2.curValid || x2.cur != p.stream then d.setRec b x2
      else
        let r := d.row b
        let mask := nextMask x2.curMask (r.get RowF.LAYER_MASK) p.info
        let x3 := { x2 with curMask := mask, picMask := if p.info.start || p.opq then mask else x2.picMask }
        let hold := bitAt (r.get RowF.ADAPT_FLAGS) 2
        if !bitAt x3.picMask p.info.bit || hold then (d.notCopied x3 p).setRec b x3
        else
          let d := d.useCopy b
          let pid := p.info.pid.map fun y => (y.1, y.2.1, (y.2.2 + r.get RowF.PID_OFS) % 2 ^ y.2.1)
          let x4 := match pid with
            | some (_, _, v) => { x3 with lastPid := v }
            | none => x3
          if d.rowState b ≠ stLive then d.setRec b x4
          else
            let note := match p.rxNs with
              | some n => if r.reserved then TxNote.firstCopy n else .plain
              | none => .plain
            (d.setRec b x4).makeCopy b p.rtp p.hdr (p.hdr.seq + r.get RowF.SEQ_OFS)
              (p.hdr.ts + p.tsAdj + r.get RowF.TS_OFS) pid r.reserved note

/-- The first receivers of a packet carry the note of a first copy; the rest are plain. -/
def Dev.feedAll (d : Dev) (p : GroupPacket) : List Nat → Dev
  | [] => d
  | b :: t =>
    let before := d.rowGet b RowF.TX_PKTS
    let d := d.feedRecord p b
    d.feedAll (if d.rowGet b RowF.TX_PKTS = before then p else { p with rxNs := none }) t

/-- What the state of a source is kept by (R283): its row, or the stream that is produced inside the device. -/
def sourceKey (g s src : Nat) : Nat := if src = noBerth then 2 ^ 26 + 16 * g + s else src

/-- A packet of stream `s` of group `g` (R278, R283): the stream's state is read and kept, and every receiver is
served, by rising row index. -/
def Dev.feedGroup (d : Dev) (g s codec tsAdj : Nat) (rtp : Bytes) (rxNs : Option Nat) : Dev :=
  match rtpOf rtp with
  | none => d
  | some h =>
    let key := sourceKey g s (d.stream g s).src
    let src := (assoc? key d.fry.sources).getD {}
    let (info, src') := layerInfo codec (d.get Reg.fry_DD_ID) (d.get Reg.fry_FM_ID) rtp h src
    let d := { d with fry := { d.fry with sources := assocPut {} key src' d.fry.sources } }
    d.feedAll ⟨s, rtp, h, info, codec == codecOpaque || decide (5 < codec), tsAdj, rxNs⟩ (d.receivers g)

/-! ### Fan lists (R292, R297, R301) -/

/-- The device with a fan list replaced. -/
def Dev.setFan (d : Dev) (x : FanList) : Dev :=
  { d with fry := { d.fry with fans := d.fry.fans.map fun y => if y.num = x.num then x else y } }

/-- A programme packet enters a fan list's source FIFO of 4 packets; a fifth drops the oldest (R292). -/
def Dev.programme (d : Dev) (f : Nat) (p : Programme) : Dev :=
  match d.fan? f with
  | none => d
  | some x =>
    if x.fifo.length < 4 then d.setFan { x with fifo := x.fifo ++ [p] }
    else ((d.setFan { x with fifo := x.fifo.drop 1 ++ [p] }).bump Reg.fry_FAN_SRC_DROP).raise fryPage 2

/-- A programme packet from another tenant's queue is dropped (R294). -/
def Dev.fanSrcDrop (d : Dev) : Dev := (d.bump Reg.fry_FAN_SRC_DROP).raise fryPage 2

/-- A packet of row `b` accepted on path A reaches the Ferry (R224, R278, R280). -/
def Dev.forward (d : Dev) (b : Nat) (rtp : Bytes) (rxNs : Nat) : Dev :=
  let (d, e?) := d.route b
  let e := e?.getD Route.none
  let adj := e.w2.toNat
  let g := Word.fld e.w0 29 16
  let s := Word.fld e.w0 11 8
  let x := d.stream g s
  let d1 := if Word.fld e.w0 31 31 = 1 ∧ x.valid = true ∧ x.src = b then
      d.feedGroup g s (Word.fld e.w0 6 4) adj rtp (some rxNs) else d
  if Word.fld e.w1 31 31 = 1 then d1.programme (Word.fld e.w1 15 0) ⟨rtp, adj⟩ else d1

/-- A packet of a Lighter's stream reaches the Ferry (R458); false where its stream is no longer its own. It feeds its sender
group alone: a fan list takes packets produced in the device from a Spill queue only (R294; DESIGN CHOICE, log entry 135). -/
def Dev.lighterPacket (d : Dev) (g s codec : Nat) (rtp : Bytes) : Dev × Bool :=
  let x := d.stream g s
  if x.valid && x.src == noBerth then (d.feedGroup g s codec 0 rtp none, true) else (d, false)

/-- The copies due of a launch: every member of every segment of the list. -/
def Dev.fanDues (d : Dev) (f : Nat) : List FanDue :=
  (d.fry.segs.filter (·.fan == f)).flatMap fun s => s.slots.map fun x => ⟨s.lport, x.1, x.2, s.ofs x.1⟩

/-- FAN_LAUNCH of a fan list in the Tide of a launch instant (R292). -/
def Dev.fanLaunch (d : Dev) (f : Nat) : Dev :=
  match d.fan? f with
  | none => d
  | some x =>
    if d.tide % x.pi ≠ x.launchOfs ∨ x.launched = some d.tide then d
    else
      match x.fifo with
      | [] => ((d.setFan { x with launched := some d.tide }).bump Reg.fry_FAN_MISS).raise fryPage 1
      | p :: t =>
        let d := d.setFan { x with fifo := t, launched := some d.tide }
        let l : Launch := ⟨f, d.tide, p, d.fanDues f⟩
        { d with fry := { d.fry with launches := d.fry.launches.filter (fun y => y.fan != f) ++ [l] } }

/-- The copy in a launch for a slot of a port, if it is due by now (R86, R297). -/
def Dev.fanDue? (d : Dev) (f l k : Nat) : Option (Launch × FanDue) :=
  (d.fry.launches.find? (·.fan == f)).bind fun x =>
    (x.due.find? fun y => y.lport == l && y.slot == k).bind fun y =>
      if x.tide * 1000000 + y.ofs / 10 ≤ d.ns then some (x, y) else none

/-- A member's copy that left the Bond, noted for the delta (R541). -/
def Dev.fanMade (before : Dev) (x : Launch) (y : FanDue) (h : Rtp) (d : Dev) : Dev :=
  if d.rowGet y.berth RowF.TX_PKTS = before.rowGet y.berth RowF.TX_PKTS then d
  else
    d.note (.copy x.fan y.lport y.slot y.berth ((h.ts + x.packet.tsAdj) % 2 ^ 32) (x.packet.rtp.length - h.hdrLen) x.tide)

/-- FAN_COPY: a member's copy at its offset after the launch (R297, R301). -/
def Dev.fanCopy (d : Dev) (f l k : Nat) : Dev :=
  match d.fanDue? f l k with
  | none => d
  | some (x, y) =>
    let launches := d.fry.launches.map fun z => if z.fan = f then { z with due := z.due.erase y } else z
    let d := { d with fry := { d.fry with launches := launches } }
    match d.seg? f l, rtpOf x.packet.rtp with
    | some s, some h =>
      if !s.slots.contains (k, y.berth) then d
      else
        let d := d.useRow y.berth .lsnCopy
        let r := d.row y.berth
        if r.get RowF.STATE ≠ stLive then d
        else d.fanMade x y h <| d.makeCopy y.berth x.packet.rtp h (r.get RowF.TX_SEQ) (h.ts + x.packet.tsAdj + r.get RowF.TS_OFS) none true
          .plain (some (d.get Reg.fry_FAN_TXQ [l])) (some s.maxFrame)
    | _, _ => d

/-! ### Items from queues (R291, R294) -/

/-- The bytes an item names: those in the packet buffer, or those in Hold. -/
def Dev.itemBytes (d : Dev) (i : Item) (who : Page) : Dev × Option Bytes :=
  if wfld i.words 2 8 8 = 1 then (d, some i.data)
  else
    match d.holdRead i.addr i.length who with
    | (d, .ok b) => (d, some b)
    | (d, .error _) => (d, none)

/-- FERRY_QUEUE_ITEM: the head item of queue `q` enters a fan list's FIFO, if the queue's tenant is the list's, or
makes a copy for the leg the item names (R294). -/
def Dev.ferryItem (d : Dev) (q : Nat) (fan : Option Nat) : Dev :=
  match d.take q with
  | (d, none) => d
  | (d, some i) =>
    match d.itemBytes i fryPage with
    | (d, none) => d
    | (d, some b) =>
      match fan with
      | some f =>
        match d.fan? f with
        | none => d.fanSrcDrop
        | some x => if x.tenant ≠ d.get Reg.wfg_Q_TENANT [q] then d.fanSrcDrop else d.programme f ⟨b, 0⟩
      | none =>
        match rtpOf b with
        | none => d
        | some h =>
          let d := if i.berth < d.rowCount then d.useCopy i.berth else d
          if d.rowGet i.berth RowF.TENANT ≠ d.get Reg.wfg_Q_TENANT [q] ∨ d.rowState i.berth ≠ stLive then d
          else if bitAt (d.rowGet i.berth RowF.ADAPT_FLAGS) 2 then d.mapRow i.berth (·.notSent h.seq)
          else
            let r := d.row i.berth
            d.makeCopy i.berth b h (h.seq + r.get RowF.SEQ_OFS) (h.ts + r.get RowF.TS_OFS) none r.reserved

/-- What a feedback item is: PLI, FIR, or another kind (R239, R291). -/
def feedbackKind (b : Bytes) : Option Bool :=
  if byteAt b 1 = 206 ∧ byteAt b 0 % 32 = 1 then some false
  else if byteAt b 1 = 206 ∧ byteAt b 0 % 32 = 4 then some true
  else none

/-- FRY_FB_ITEM: the Ferry consumes the head of the feedback queue (R291). -/
def Dev.fryFbItem (d : Dev) : Dev :=
  if !d.flag Reg.fry_FB_EN || !d.live fryPage then d
  else
    match d.take (d.get Reg.bwr_FB_QUEUE) with
    | (d, none) => d
    | (d, some i) =>
      let c := d.rowGet i.berth RowF.CLASS
      if c = classXcd then d.pushWait (d.get Reg.fry_FB_FWD_QUEUE) i .booked
      else if c = classFwd ∨ c = classTrk then
        match feedbackKind i.data, d.rec? i.berth with
        | some fir, some x =>
          if x.curValid then d.kfrInternal fir (d.stream x.group x.cur).src else d
        | _, _ => d
      else d

/-! ### Waiting for a switch (R281, R287) -/

/-- One Tide of waiting for a record: a change of its target that no packet has met pends, WAIT advances, and once SWITCH_WAIT is reached a record with KFR_ON_SWITCH
asks for a key picture, once per pending change; the stream asked for is answered beside the device. -/
def Dev.waitRecord (d : Dev) (b : Nat) : Dev × Option (Nat × Nat) :=
  match d.rec? b with
  | none => (d, none)
  | some x0 =>
    let x := x0.aim (d.targetOf x0 false)
    if !x.pending then (d.setRec b x, none)
    else
      let w := min 255 (x.wait + 1)
      let ask := bitAt (d.rowGet b RowF.ADAPT_FLAGS) 1 && !x.asked &&
        decide (atLeast1 (d.get Reg.fry_SWITCH_WAIT) ≤ w)
      let d := d.setRec b { x with wait := w, asked := x.asked || ask }
      if !ask then (d, none)
      else
        let d := (d.bump Reg.fry_SWITCH_KFR).raise fryPage 5
        let src := (d.stream x.group x.target).src
        if src = noBerth then (d, some (x.group, x.target)) else (d.kfrInternal false src, none)

/-- One Tide of waiting for every record, and the streams produced in the device that are asked for a key
picture (R287, R459). -/
def Dev.ferryWait (d : Dev) : Dev × List (Nat × Nat) :=
  d.fry.recs.foldl (fun (acc : Dev × List (Nat × Nat)) x =>
    let (d, q) := acc.1.waitRecord x.1
    (d, acc.2 ++ q.toList)) (d, [])

/-! ### Sender reports (R304) -/

/-- The bytes of CNAME_t up to the first zero. -/
def Dev.cname (d : Dev) (t : Nat) : Bytes :=
  (bytesOfWords ((List.range 4).map fun i => BitVec.ofNat 32 (d.get Reg.fry_CNAME [t, i]))).takeWhile (· != 0)

/-- An SDES packet with one CNAME item. -/
def sdesPacket (ssrc : Nat) (name : Bytes) : Bytes :=
  let item := [1] ++ beBytes 1 name.length ++ name
  let chunk := beBytes 4 ssrc ++ item ++ List.replicate (4 - item.length % 4) 0
  [0x81, 202] ++ beBytes 2 (chunk.length / 4) ++ chunk

/-- The report block of a sender report (R304). -/
def Dev.reportBlock (d : Dev) (r : Row) : Bytes :=
  let dlsr := (ntpMid d.ns + 2 ^ 32 - r.get RowF.LSR_ARRIVAL) % 2 ^ 32
  beBytes 4 (r.get RowF.RX_SSRC) ++ [0] ++ beBytes 3 (min (r.get RowF.RX_LOST) (2 ^ 23 - 1)) ++
    beBytes 4 (r.get RowF.RX_ROC * 65536 + r.get RowF.RX_HIGH_SEQ) ++ beBytes 4 0 ++ beBytes 4 (r.get RowF.LSR) ++
    beBytes 4 dlsr

/-- The compound packet of a sender report, whose RTP timestamp is `ts` (R304). -/
def Dev.senderReport (d : Dev) (r : Row) (ts : Nat) : Bytes :=
  let c := r.get RowF.CLASS
  let block := if (c = classFwd ∨ c = classTrk) ∧ r.get RowF.RX_PKTS ≠ 0 then d.reportBlock r else []
  let n := if block.isEmpty then 0 else 1
  beBytes 1 (0x80 + n) ++ [200] ++ beBytes 2 (6 + 6 * n) ++ beBytes 4 (r.get RowF.TX_SSRC) ++ beBytes 8 (ntp64 d.ns) ++
    beBytes 4 ts ++ beBytes 4 (r.get RowF.TX_PKTS) ++ beBytes 4 (r.get RowF.TX_OCTETS) ++ block ++
    sdesPacket (r.get RowF.TX_SSRC) (d.cname (r.get RowF.TENANT))

/-- SR_INTERVAL in effect. -/
def Dev.srInterval (d : Dev) : Nat := max 256 (d.get Reg.fry_SR_INTERVAL)

/-- The last cell time of a row that holds a slot, and its fan list (R297): the latest launch instant with the slot's offset added
that is past. -/
def Dev.lastCell (d : Dev) (b : Nat) : Option (Nat × Nat) :=
  d.fry.segs.findSome? fun s => (s.slots.find? (·.2 == b)).bind fun x =>
    let o := s.ofs x.1 / 10
    ((d.fan? s.fan).map (·.launchOfs)).bind fun l =>
      (((List.range (2 * s.pi)).map fun k => (d.tide - k)).find? fun n =>
        n % s.pi == l && decide (n * 1000000 + o ≤ d.ns)).map fun n => (s.fan, n * 1000000 + o)

/-- The RTP timestamp of a row's SR (R304): LAST_TS, for an LSN row advanced from its last cell time by the clock of its programme,
which no register gives: a constant without a body. A row that holds no slot has no cell time, and the advance is free. -/
def Dev.reportTs (d : Dev) (b : Nat) : Dev × Nat :=
  let ts := d.rowGet b RowF.LAST_TS
  if d.rowGet b RowF.CLASS ≠ classLsn then (d, ts)
  else match d.lastCell b with
    | some (f, at_) => (d, (ts + (d.ns - at_) * Config.fanClock f / 1000000000) % 2 ^ 32)
    | none => let (d, n) := d.draw; (d, (ts + n) % 2 ^ 32)

/-- The SR of row `b` is sent, as every copy while the Ferry is in service and has a lane for its port (R304, R314). -/
def Dev.sendReport (d : Dev) (b : Nat) : Dev :=
  if !d.flag Reg.fry_EN then d.bump Reg.fry_OFF_DROP
  else if !d.inService ⟨ukFry, d.rowGet b RowF.LPORT / 4⟩ then d.bump Reg.fry_PIPE_FAULT_DROP
  else
    let (d, ts) := d.reportTs b
    let (d, sent) := d.sendRtcp b (d.senderReport (d.row b) ts) false
    if sent then d.bump Reg.fry_SR_SENT else d

/-- SR_SWEEP of a row, once in each SR_INTERVAL, through the BTC's streaming port (R304). -/
def Dev.srSweep (d : Dev) (b : Nat) : Dev :=
  let turn := d.tide / d.srInterval
  if !d.flag Reg.fry_SR_EN || !d.live fryPage || !d.flag Reg.btc_EN || d.follows || assoc? b d.fry.srSent == some turn then d
  else
    let d := { d with fry := { d.fry with srSent := assocSet b turn d.fry.srSent } }
    let d : Dev := match d.fetch b [0, 1, 2, 3] with
      | (d, []) => d
      | (d, _) => d.rowUe b
    let r := d.row b
    if r.get RowF.STATE = stLive ∧ bitAt (d.get Reg.fry_SR_CLASS_MASK) (r.get RowF.CLASS) = true ∧
        r.get RowF.TX_PKTS ≠ 0 then d.sendReport b
    else d

end Sys2Proof.Machine
end

