-- ==== Sys2Proof/Machine/DecAsm.lean ====
section
/-!
DEFINITION. From packets to frames (chapter 13, R421–R423), and stream contexts as bytes (R417, R443).
-/

namespace Sys2Proof.Machine

/-- The decode control page. -/
def decPage : Page := ⟨.decCtl, 0⟩

/-- A stream context, if it is valid. -/
def Dev.decCtx? (d : Dev) (c : Nat) : Option DecCtx := assoc? c d.dec.ctxs

/-- CODEC of a context. -/
def DecCtx.codec (x : DecCtx) : Nat := wfld x.params 0 3 0

/-- Codecs of R418. -/
def cH264 : Nat := 1
def cH265 : Nat := 2
def cVp9 : Nat := 4
def cAv1 : Nat := 5

/-! ### The context in Hold (R424, R443) -/

/-- The mark record of a buffer. -/
def Mark.words (m : Mark) : List Word :=
  [BitVec.ofNat 32 (m.kind % 16 + m.slots % 256 * 16 + bitOf m.standin * 4096 + bitOf m.tainted * 8192 +
    bitOf m.pending * 16384 + bitOf m.shown * 32768), BitVec.ofNat 32 m.decOrder]

/-- Words 0x100–0x1A3 of a context. -/
def DecCtx.state (x : DecCtx) : List Word :=
  x.marks.flatMap Mark.words ++
    [BitVec.ofNat 32 x.decOrder,
     BitVec.ofNat 32 (x.rot % 4 * 2 ^ 30 + bitOf x.tainted * 2 ^ 29 + bitOf x.keySeen * 2 ^ 28),
     BitVec.ofNat 32 x.outputs, BitVec.ofNat 32 x.concealedBlocks, BitVec.ofNat 32 x.truncBits,
     BitVec.ofNat 32 x.standin, BitVec.ofNat 32 x.syntaxFails]

/-- Where a context lies in Hold (R417). -/
def Dev.decCtxAddr (d : Dev) (c : Nat) : Nat := d.get Reg.decCtl_CTX_BASE * 65536 + 512 * c

/-- The device with a context replaced, in Hold too. -/
def Dev.setDecCtx (d : Dev) (c : Nat) (x : DecCtx) : Dev :=
  let d := { d with dec := { d.dec with ctxs := assocSet c x d.dec.ctxs } }
  d.holdStore (d.decCtxAddr c) (bytesOfWords (x.params ++ x.state)) decPage

/-! ### Assemblers -/

/-- The assembler of the DEC operation in a slot. -/
def Dev.asm (d : Dev) (order : Nat) : Assembler := (d.dec.asms.find? (·.order == order)).getD { order := order }

/-- The device with an assembler replaced. -/
def Dev.setAsm (d : Dev) (a : Assembler) : Dev :=
  { d with dec := { d.dec with asms := d.dec.asms.filter (fun x => x.order != a.order) ++ [a] } }

/-- Whether a payload structure is dropped at assembly (R421), as far as its packet tells. -/
def payloadDropped (params : List Word) (vp9Layer : Nat) (b : Bytes) (o : Nat) : Bool :=
  let t := byteAt b o % 32
  let mode1 := wfld params 0 19 19 == 1
  match wfld params 0 3 0 with
  | 1 => [25, 26, 27, 29].contains t || (!mode1 && [24, 28].contains t)
  | 2 => byteAt b o / 2 % 64 == 50
  | 4 => decide (wfld params 3 20 16 < vp9Layer)
  | _ => false

/-- A packet as the assembler sees it: the frame's key, whether it ends the frame. -/
def frameKey (params : List Word) (b : Bytes) (h : Rtp) : (Nat × Nat) × Bool × Nat :=
  if wfld params 0 3 0 = cVp9 then
    let b0 := byteAt b h.hdrLen
    let i := vp9Info b h.hdrLen
    ((h.ts, i.s), bitAt b0 2, i.s)
  else ((h.ts, 0), h.marker, 0)

/-- The frames that an AV1 temporal unit holds (R422): OBUs of a frame, or of a frame header, that begin in a packet. -/
def av1ObuFrames (b : Bytes) : Nat → Nat → Nat → Nat → Nat
  | 0, _, _, _ => 0
  | k + 1, o, w, i =>
    if b.length ≤ o then 0
    else
      let lastOne := decide (w ≠ 0 ∧ i + 1 = w)
      let n0 := byteAt b o
      let sized := !lastOne
      let n1 := if sized && bitAt n0 7 then byteAt b (o + 1) else 0
      let len := if sized then n0 % 128 + 128 * (n1 % 128) else b.length - o
      let start := if sized then o + (if bitAt n0 7 then 2 else 1) else o
      let type := byteAt b start / 8 % 16
      bitOf (type == 3 || type == 6) + av1ObuFrames b k (start + len) w (i + 1)

/-- The instances that a complete frame gives (R422). -/
def frameCount (params : List Word) (payloads : List Bytes) : Nat :=
  if wfld params 0 3 0 = cAv1 then
    atLeast1 ((payloads.map fun b => (av1ObuFrames b 64 1 (byteAt b 0 / 16 % 4) 0) - bitOf (bitAt (byteAt b 0) 7)).sum)
  else 1

/-- Whether the packets of a frame run from its first to its last without a gap (moment 1 of R422). -/
def Assembler.whole (a : Assembler) : Bool :=
  match a.pkts.find? (·.last) with
  | none => false
  | some l =>
    let back := fun (p : FramePkt) => (l.seq + 65536 - p.seq) % 65536
    let span := a.pkts.foldl (fun m p => max m (back p)) 0
    (List.range (span + 1)).all fun i => a.pkts.any fun p => back p == i

/-- A frame is complete (R422). -/
def Dev.asmComplete (d : Dev) (a : Assembler) (params : List Word) : Dev :=
  let sorted := sortBy (fun (p q : FramePkt) => decide (seqDiff 16 p.seq q.seq ≤ 0)) a.pkts
  let bodies := sorted.map fun p =>
    let b := p.item.data.drop (p.item.meta6 % 65536)
    b.drop ((rtpOf b).map (·.hdrLen) |>.getD 12)
  let last := (sorted.getLast?.map (·.seq)).getD 0
  let prev := a.key.map fun k => (k.1, k.2, last)
  d.setAsm { a with pkts := sorted, frames := frameCount params bodies, doneTide := d.tide, prev := prev }

/-- How a packet stands to the frame being assembled (R422, R423). -/
inductive PktFate where
  | take | late | wait | later
  deriving DecidableEq, Repr

/-- The fate of a packet with a key and a sequence number. -/
def Assembler.fate (a : Assembler) (key : Nat × Nat) (seq : Nat) : PktFate :=
  let stale := match a.prev with
    | some (ts, layer, last) => (key == (ts, layer)) || decide (seqDiff 32 key.1 ts < 0) ||
        (decide (key.1 = ts) && decide (seqDiff 16 seq last ≤ 0))
    | none => false
  if stale then .late
  else
    match a.key with
    | none => .take
    | some k =>
      if k = key then .take
      else if seqDiff 32 key.1 k.1 < 0 then .late
      else if key.1 = k.1 then .wait
      else .later

/-- One packet of IN_QUEUE offered to an assembler; whether it should look at the next. -/
def Dev.asmStep (d : Dev) (order q : Nat) (params : List Word) : Dev × Bool :=
  let a := d.asm order
  let d := d.dropClosed q (d.queue q).depth
  if a.frames ≠ 0 then (d, false)
  else
    match d.peek q with
    | none => (d, false)
    | some i =>
      match d.itemBytes i decPage with
      | (d, none) => ((d.take q).1.setAsm { a with bad := true }, true)
      | (d, some b) =>
        let rtp := b.drop (i.meta6 % 65536)
        match rtpOf rtp with
        | none => ((d.take q).1, true)
        | some h =>
          let (key, last, layer) := frameKey params rtp h
          match a.fate key h.seq with
          | .late => ((d.take q).1.bump Reg.decCtl_LATE_PKT, true)
          | .wait => (d, false)
          | .later => (d.asmComplete a params, false)
          | .take =>
            let d := (d.take q).1
            let drop := payloadDropped params layer rtp h.hdrLen
            let d := if drop then d.countRaise decPage 4 Reg.decCtl_DEPKT_DROP else d
            let i := { i with data := b, words := i.words.set 2 0x100 }
            let since := if a.key.isNone then (wordAt i.words 4).toNat else a.since
            let a := { a with key := some key, since := since, pkts := a.pkts ++ [⟨h.seq, last, i, drop⟩] }
            if a.whole then (d.asmComplete a params, false) else (d.setAsm a, true)

/-- Packets of a slot's IN_QUEUE taken while they fit the frame being assembled. -/
def Dev.asmPump (d : Dev) (order q : Nat) (params : List Word) : Nat → Dev
  | 0 => d
  | n + 1 =>
    match d.asmStep order q params with
    | (d, true) => d.asmPump order q params n
    | (d, false) => d

/-- Space for the frame's outputs is kept in OUT_QUEUE before the assembler takes its first packet (R108); none where there is
no room yet. -/
def Dev.asmClaim (d : Dev) (s : Slot) : Option Dev :=
  let a := d.asm s.order
  if a.frames ≠ 0 ∨ a.claim.isSome then some d
  else (d.outSpace s).map fun x => if x.1 = 0 then d else d.setAsm { a with claim := some x.2 }

/-- The assembler of a DEC operation's slot looks at its IN_QUEUE. -/
def Dev.asmSlot (d : Dev) (s : Slot) : Dev :=
  if Desc.kind s.desc ≠ opDEC then d
  else
    match Desc.inQueue s.desc, d.decCtx? (Desc.ctx s.desc) with
    | some q, some x =>
      if (d.queue q).depth = 0 then d
      else match d.asmClaim s with
        | some d => d.asmPump s.order q x.params ((d.queue q).depth + 1)
        | none => d
    | _, _ => d

/-- The DEC operations that take their input from queue `q` look at it. -/
def Dev.asmQueue (d : Dev) (q : Nat) : Dev :=
  (d.wfg.slots.filter fun s => Desc.kind s.desc == opDEC && Desc.inQueue s.desc == some q).foldl Dev.asmSlot d

/-- ASM_WAIT of a context (R418). -/
def asmWait (params : List Word) : Nat := wfld params 3 27 24

/-- ASM_TIMEOUT: at the end of the last of its ASM_WAIT Tides a frame is complete as it is (moment 3 of R422). -/
def Dev.asmTimeout (d : Dev) (c : Nat) : Dev :=
  match d.decCtx? c, d.wfg.slots.find? (fun s => Desc.kind s.desc == opDEC && Desc.ctx s.desc == c) with
  | some x, some s =>
    let a := d.asm s.order
    if a.pkts.isEmpty ∨ a.frames ≠ 0 ∨ (d.tide % 2 ^ 32 + 2 ^ 32 - a.since) % 2 ^ 32 + 1 < asmWait x.params then d
    else (d.asmComplete a x.params).bump Reg.decCtl_ASM_TIMEOUT
  | _, _ => d

/-- The next complete frame of a slot, as its instance takes it: its packets, one without bytes among them where Hold failed
one (R434), and the assembler after it. -/
def Dev.asmTake (d : Dev) (s : Slot) : Dev × List Item :=
  let a := d.asm s.order
  let items := a.pkts.map (·.item) ++ (if a.bad then [{ words := [] }] else [])
  if a.frames ≤ 1 then
    let d := d.setAsm { order := a.order, prev := a.prev }
    (d.asmSlot s, items)
  else (d.setAsm { a with frames := a.frames - 1 }, items)

end Sys2Proof.Machine
end

