-- ==== Sys2Proof/Machine/Regions.lean ====
section
/-!
DEFINITION. The regions of Hold that only a unit writes (R122, R152, R282, R350, R403, R417, R446, R475).
-/

namespace Sys2Proof.Machine

/-- A region of Hold that only one unit writes: its page, base and size in bytes. -/
structure OwnRegion where
  page : Page
  base : Nat
  size : Nat
  deriving DecidableEq, Repr

/-- Regions of a page, if its unit is present. They are the unit's whether or not it is enabled (R152, R282). -/
def Dev.ownedBy (d : Dev) (p : Page) (l : List (Nat × Nat)) : List OwnRegion :=
  if d.present p then l.map fun x => ⟨p, x.1, x.2⟩ else []

/-- The row and annex regions of the Berth Table (R152). -/
def Dev.btcRegions (d : Dev) : List OwnRegion :=
  d.ownedBy btcPage [(d.get Reg.btc_ROW_BASE * 65536, 256 * d.rowCount), (d.get Reg.btc_ANNEX_BASE * 65536, 128 * d.rowCount)]

/-- The route, group and fan slot regions of the Ferry (R282). -/
def Dev.fryRegions (d : Dev) : List OwnRegion :=
  d.ownedBy ⟨.fry, 0⟩ [(d.get Reg.fry_ROUTE_BASE * 65536, 16 * d.rowCount),
    (d.get Reg.fry_GROUP_BASE * 65536, 16384 * 128 + 16384 * 4096 * 16),
    (d.get Reg.fry_FAN_SLOT_BASE * 65536, d.get Reg.fry_FAN_SLOT_SIZE * mib)]

/-- The output and delay rings of the Abacus (R326, R350). -/
def Dev.abxRegions (d : Dev) : List OwnRegion :=
  d.ownedBy ⟨.abx, 0⟩ [(d.get Reg.abx_OUT_BASE * 65536, 8 * mib), (d.get Reg.abx_DRESS_DELAY_BASE * 65536, 96 * mib)]

/-- The context regions of the decode, encode and compose control pages (R417, R446, R454, R475). -/
def Dev.ctxRegions (d : Dev) : List OwnRegion :=
  d.ownedBy ⟨.decCtl, 0⟩ [(d.get Reg.decCtl_CTX_BASE * 65536, 2 * mib)] ++
  d.ownedBy ⟨.encCtl, 0⟩ [(d.get Reg.encCtl_SVY_CTX_BASE * 65536, 262144), (d.get Reg.encCtl_LTR_CTX_BASE * 65536, mib)] ++
  d.ownedBy ⟨.cmpCtl, 0⟩ [(d.get Reg.cmpCtl_VIEW_CTX_BASE * 65536, mib)]

/-- The regions that only a unit writes, the spill areas of queues left out. -/
def Dev.unitRegions (d : Dev) : List OwnRegion := d.btcRegions ++ d.fryRegions ++ d.abxRegions ++ d.ctxRegions

/-- Whether `n` bytes from `a` on touch a region. -/
def OwnRegion.touches (r : OwnRegion) (a n : Nat) : Bool := overlap a n r.base r.size

/-- The enabled queues: the QCFG words of the register file with EN set. -/
def Dev.enabledQueues (d : Dev) : List Nat :=
  d.regs.filterMap fun x =>
    if 0x60000 ≤ x.1 ∧ x.1 < 0x80000 ∧ x.1 % 0x20 = 0 ∧ Word.fld x.2 31 31 = 1 then some ((x.1 - 0x60000) / 0x20) else none

/-- The spill areas of the enabled queues other than `q` that `n` bytes from `a` on touch (R122). -/
def Dev.inSpill (d : Dev) (q : Option Nat) (a n : Nat) : Bool :=
  d.enabledQueues.any fun i => some i != q &&
    overlap a n (256 * d.get Reg.wfg_QSPILL_BASE [i]) (32 * d.get Reg.wfg_QSPILL_SIZE [i])

/-- Whether a transfer may not touch `n` bytes from `a` on: a region only a unit writes, or a spill area (R403). -/
def Dev.unitOwned (d : Dev) (a n : Nat) : Bool := d.unitRegions.any (·.touches a n) || d.inSpill none a n

end Sys2Proof.Machine
end

