-- ==== Sys2Proof/Machine/Picture.lean ====
section
/-!
DEFINITION. Pictures in Hold: the HP8 and HP10 formats (R418, R437), their planes, and the EV10 format of essence video
(R495). The sizes of R418's worked example leave one reading of the layout, luma and then rows that hold Cb and Cr
together (DEDUCED, log entry 76); that Cb comes first is PRESUMED (log entry 76).
-/

namespace Sys2Proof.Machine

/-- A plane of samples, row by row. -/
abbrev Plane := List (List Nat)

/-- A 4:2:0 picture. -/
structure Picture where
  y : Plane
  cb : Plane
  cr : Plane
  deriving DecidableEq, Repr

/-- A plane of a size whose samples a function gives. -/
def planeOf (w h : Nat) (f : Nat → Nat → Nat) : Plane := (List.range h).map fun y => (List.range w).map fun x => f x y

/-- The sample of a plane at a place, zero outside it. -/
def Plane.at (p : Plane) (x y : Nat) : Nat := (p.getD y []).getD x 0

/-- Width and height of a plane. -/
def Plane.width (p : Plane) : Nat := (p.headD []).length
def Plane.height (p : Plane) : Nat := p.length

/-- The sample nearest to a place: edges repeat. -/
def Plane.near (p : Plane) (x y : Int) : Nat :=
  p.at (clampI 0 ((p.width : Int) - 1) x).toNat (clampI 0 ((p.height : Int) - 1) y).toNat

/-- Bytes of a sample. -/
def sampleBytes (ten : Bool) : Nat := if ten then 2 else 1

/-- `n` rounded up to 256. -/
def up256 (n : Nat) : Nat := (n + 255) / 256 * 256

/-- The stride of a picture (R418). -/
def pictureStride (w : Nat) (ten : Bool) : Nat := up256 (w * sampleBytes ten)

/-- The bytes of a picture: luma, and half as many rows of Cb and Cr (R418). -/
def pictureBytes (w h : Nat) (hp10 : Bool) : Nat := pictureStride w hp10 * h + pictureStride w hp10 * ((h + 1) / 2)

/-- Sample `i` of the row that begins at byte `o`; an HP10 sample lies in bits 9:0 of its container (R437). -/
def sampleIn (b : Bytes) (ten : Bool) (o i : Nat) : Nat :=
  if ten then (byteAt b (o + 2 * i) + 256 * byteAt b (o + 2 * i + 1)) % 1024 else byteAt b (o + i)

/-- The picture that bytes hold. -/
def pictureIn (b : Bytes) (w h : Nat) (ten : Bool) : Picture :=
  let st := pictureStride w ten
  let c := st * h
  { y := planeOf w h fun x y => sampleIn b ten (st * y) x
    cb := planeOf (w / 2) (h / 2) fun x y => sampleIn b ten (c + st * y) (2 * x)
    cr := planeOf (w / 2) (h / 2) fun x y => sampleIn b ten (c + st * y) (2 * x + 1) }

/-- A row of samples as bytes, padded to a stride. -/
def rowBytes (ten : Bool) (stride : Nat) (r : List Nat) : Bytes := padTo stride (r.flatMap (leBytes (sampleBytes ten)))

/-- A plane as bytes. -/
def planeBytes (ten : Bool) (stride : Nat) (p : Plane) : Bytes := p.flatMap (rowBytes ten stride)

/-- A picture as bytes. -/
def Picture.bytes (p : Picture) (ten : Bool) : Bytes :=
  let st := pictureStride p.y.width ten
  planeBytes ten st p.y ++
    planeBytes ten st (p.cb.zipWith (fun a b => (a.zipWith (fun u v => [u, v]) b).flatten) p.cr)

/-- The conversions of R437 step 4. -/
def to8 (x : Nat) : Nat := min 255 ((x + 2) / 4)
def to10 (x : Nat) : Nat := 4 * x

/-- A plane with every sample changed. -/
def Plane.map (f : Nat → Nat) (p : Plane) : Plane := List.map (List.map f) p

/-- A picture of one depth as a picture of another. -/
def Picture.depth (p : Picture) (was is : Bool) : Picture :=
  let f := if was = is then id else if is then to10 else to8
  ⟨p.y.map f, p.cb.map f, p.cr.map f⟩

/-! ### EV10 (R495) -/

/-- The stride of an EV10 line: 5 bytes for 2 pixels. -/
def evStride (w : Nat) : Nat := up256 (w / 2 * 5)

/-- Sample `k` (Cb, Y0, Cr, Y1) of pixel group `g` in the line that begins at byte `o`. -/
def evSample (b : Bytes) (o g k : Nat) : Nat := beAt b (o + 5 * g) 5 / 2 ^ (30 - 10 * k) % 1024

/-- A picture of 10-bit samples in EV10, each chroma row used for two lines (R494). -/
def Picture.evBytes (p : Picture) : Bytes :=
  (List.range p.y.height).flatMap fun y =>
    padTo (evStride p.y.width) ((List.range (p.y.width / 2)).flatMap fun g =>
      beBytes 5 (p.cb.at g (y / 2) * 2 ^ 30 + p.y.at (2 * g) y * 2 ^ 20 + p.cr.at g (y / 2) * 2 ^ 10 + p.y.at (2 * g + 1) y))

end Sys2Proof.Machine
end

