-- ==== Sys2Proof/Machine/Scale.lean ====
section
/-!
DEFINITION. What a VDE makes of pictures (chapter 13): pool buffers (R418), concealment (R429), orientation, fit and
scaling (R437), and the input of an SCL operation (R440). The filter's coefficients and the place of its phases are free
values: the spec calls them fixed and gives none.
-/

namespace Sys2Proof.Machine

/-- Mid-grey (R429), and the largest sample. -/
def midGrey (ten : Bool) : Nat := if ten then 0x200 else 0x80
def topSample (ten : Bool) : Nat := if ten then 1023 else 255

/-! ### Pictures in larger buffers (R418) -/

/-- The picture of `w` by `h` in bytes whose rows lie `st` apart and whose chroma begins at `c`. -/
def pictureAt (b : Bytes) (st c w h : Nat) (ten : Bool) : Picture :=
  { y := planeOf w h fun x y => sampleIn b ten (st * y) x
    cb := planeOf ((w + 1) / 2) ((h + 1) / 2) fun x y => sampleIn b ten (c + st * y) (2 * x)
    cr := planeOf ((w + 1) / 2) ((h + 1) / 2) fun x y => sampleIn b ten (c + st * y) (2 * x + 1) }

/-- A picture as the bytes of a buffer made for one of `bw` by `bh`. -/
def Picture.buffer (p : Picture) (bw bh : Nat) (ten : Bool) : Bytes :=
  let st := pictureStride bw ten
  padTo (st * bh) (planeBytes ten st p.y) ++
    padTo (st * ((bh + 1) / 2)) (planeBytes ten st (p.cb.zipWith (fun a b => (a.zipWith (fun u v => [u, v]) b).flatten) p.cr))

/-- A picture with no chroma of its own, as it is delivered (R414). -/
def Picture.grey (p : Picture) (ten : Bool) : Picture :=
  { p with cb := p.cb.map fun _ => midGrey ten, cr := p.cr.map fun _ => midGrey ten }

/-! ### Concealment (R429) -/

/-- The motion of the block at (bx, by) in 16ths of a luma sample: none where the block is lost, intra-coded or outside. -/
def motionAt (r : DecReport) (bx by_ : Int) : Int × Int :=
  let k := (bx.toNat, by_.toNat)
  if bx < 0 ∨ by_ < 0 ∨ ((r.width + 15) / 16 : Nat) ≤ bx ∨ r.lost.contains k then (0, 0)
  else ((r.motion.find? (·.1 == k)).map (·.2)).getD (0, 0)

/-- The displacement of a lost block: the median motion of its left, above and above-right neighbours, rounded toward zero
to whole luma samples. -/
def concealVector (r : DecReport) (bx by_ : Nat) : Int × Int :=
  let a := motionAt r ((bx : Int) - 1) by_
  let b := motionAt r bx ((by_ : Int) - 1)
  let c := motionAt r ((bx : Int) + 1) ((by_ : Int) - 1)
  ((median3 a.1 b.1 c.1).tdiv 16, (median3 a.2 b.2 c.2).tdiv 16)

/-- A plane whose lost blocks of `n` by `n` are copied from the source's plane, displaced by a vector divided by `k`. -/
def concealPlane (r : DecReport) (n : Nat) (k : Int) (grey : Nat) (src : Option Plane) (p : Plane) : Plane :=
  planeOf p.width p.height fun x y =>
    if r.lost.contains (x / n, y / n) then
      match src with
      | none => grey
      | some s =>
        let v := concealVector r (x / n) (y / n)
        s.near ((x : Int) + v.1 / k) ((y : Int) + v.2 / k)
    else p.at x y

/-- A decoded picture with its lost blocks concealed from a source of its size, or from mid-grey. -/
def conceal (r : DecReport) (ten : Bool) (src : Option Picture) (p : Picture) : Picture :=
  ⟨concealPlane r 16 1 (midGrey ten) (src.map (·.y)) p.y, concealPlane r 8 2 (midGrey ten) (src.map (·.cb)) p.cb,
    concealPlane r 8 2 (midGrey ten) (src.map (·.cr)) p.cr⟩

/-- The lost blocks that lie in the picture, each once. -/
def lostBlocks (r : DecReport) : Nat :=
  ((r.lost.filter fun b => decide (16 * b.1 < r.width) && decide (16 * b.2 < r.height)).eraseDups).length

/-! ### Orientation (R437, step 1) -/

/-- A plane turned clockwise by quarter turns, then mirrored. -/
def Plane.turn (p : Plane) (rot : Nat) (flip : Bool) : Plane :=
  let w := p.width
  let h := p.height
  let q : Plane := match rot % 4 with
    | 0 => p
    | 1 => planeOf h w fun x y => p.at y (h - 1 - x)
    | 2 => planeOf w h fun x y => p.at (w - 1 - x) (h - 1 - y)
    | _ => planeOf h w fun x y => p.at (w - 1 - y) x
  if flip then List.map List.reverse q else q

/-- A picture oriented. -/
def Picture.turn (p : Picture) (rot : Nat) (flip : Bool) : Picture :=
  ⟨p.y.turn rot flip, p.cb.turn rot flip, p.cr.turn rot flip⟩

/-! ### Scaling (R437, steps 2 to 4) -/

/-- One axis of a scaling: `src` samples, scaled by `num` / `den`, onto `len` samples of which the middle is the middle. -/
structure Axis where
  src : Nat
  num : Nat
  den : Nat
  len : Nat
  deriving DecidableEq, Repr

/-- Output sample `i` of an axis: 8 taps for luma and 4 for chroma, rounded half up and clamped. -/
def tapped (luma ten : Bool) (m : Axis) (f : Int → Nat) (i : Nat) : Nat :=
  let p := Config.filterPlace m.src m.num m.den m.len i
  let s : Int := ((List.range (if luma then 8 else 4)).map fun k =>
    Config.filterTap luma (p.2 % 64) k * (f (p.1 + (k : Int)) : Int)).sum
  (clampI 0 (topSample ten : Nat) ((s + 32768) / 65536)).toNat

/-- A plane scaled on both axes. -/
def Plane.scale (p : Plane) (luma ten : Bool) (mx my : Axis) : Plane :=
  let h := planeOf mx.len p.height fun x y => tapped luma ten mx (fun i => p.near i y) x
  planeOf mx.len my.len fun x y => tapped luma ten my (fun j => h.near x j) y

/-- A plane with another put into it at (ox, oy). -/
def Plane.put (base top : Plane) (ox oy : Nat) : Plane :=
  planeOf base.width base.height fun x y =>
    if ox ≤ x ∧ x < ox + top.width ∧ oy ≤ y ∧ y < oy + top.height then top.at (x - ox) (y - oy) else base.at x y

/-- A picture in one colour of the 10-bit scale. -/
def fillPicture (w h c : Nat) (ten : Bool) : Picture :=
  let f := fun (v : Nat) => if ten then v else to8 v
  ⟨planeOf w h fun _ _ => f (bits c 9 0), planeOf (w / 2) (h / 2) fun _ _ => f (bits c 19 10),
    planeOf (w / 2) (h / 2) fun _ _ => f (bits c 29 20)⟩

/-- What one output of a picture is made to (R437): its box, fit, format, ring and depth. -/
structure OutSpec where
  width : Nat
  height : Nat
  fit : Nat
  hp10 : Bool
  ring : Nat
  depth : Nat
  deriving DecidableEq, Repr

/-- The size of a buffer of an output's ring: the picture and its metadata block (R418). -/
def OutSpec.size (o : OutSpec) : Nat := pictureBytes o.width o.height o.hp10 + 256

/-- The scales of a picture of `w` by `h` in an output: numerator and denominator of each axis. -/
def OutSpec.scales (o : OutSpec) (w h : Nat) : (Nat × Nat) × (Nat × Nat) :=
  let byW := if o.fit = 1 then decide (o.height * w ≤ o.width * h) else decide (o.width * h ≤ o.height * w)
  if 2 ≤ o.fit then ((o.width, w), (o.height, h))
  else if byW then ((o.width, w), (o.width, w)) else ((o.height, h), (o.height, h))

/-- The active area of an oriented picture (width, height, x, y); none where an axis would scale by less than 1/16
or by more than 4 (R437). -/
def OutSpec.active (o : OutSpec) (w h : Nat) : Option (Nat × Nat × Nat × Nat) :=
  let inRange := fun (s : Nat × Nat) => decide (s.2 ≤ 16 * s.1) && decide (s.1 ≤ 4 * s.2)
  let (sx, sy) := o.scales w h
  if w = 0 ∨ h = 0 ∨ !inRange sx ∨ !inRange sy then none
  else if o.fit = 0 then
    let aw := w * sx.1 / (2 * sx.2) * 2
    let ah := h * sy.1 / (2 * sy.2) * 2
    some (aw, ah, (o.width - aw) / 4 * 2, (o.height - ah) / 4 * 2)
  else some (o.width, o.height, 0, 0)

/-- An output made from an oriented picture: the active area scaled, the rest in the fill colour. -/
def OutSpec.made (o : OutSpec) (p : Picture) (ten : Bool) (fill : Nat) : Picture :=
  let base := fillPicture o.width o.height fill o.hp10
  match o.active p.y.width p.y.height with
  | none => base
  | some (aw, ah, ax, ay) =>
    let (sx, sy) := o.scales p.y.width p.y.height
    let part := fun (q : Plane) (luma : Bool) (k : Nat) =>
      q.scale luma ten ⟨q.width, sx.1, sx.2, aw / k⟩ ⟨q.height, sy.1, sy.2, ah / k⟩
    let top := (Picture.mk (part p.y true 1) (part p.cb false 2) (part p.cr false 2)).depth ten o.hp10
    ⟨base.y.put top.y ax ay, base.cb.put top.cb (ax / 2) (ay / 2), base.cr.put top.cr (ax / 2) (ay / 2)⟩

/-! ### The input of an SCL operation (R440, R495) -/

/-- The bytes of an input picture with a stride, and the picture in them; EV10 is averaged vertically into 4:2:0. -/
def sclBytes (fmt st h : Nat) : Nat := if 2 ≤ fmt then st * h else st * h + st * ((h + 1) / 2)
def sclPicture (fmt st w h : Nat) (b : Bytes) : Picture :=
  if 2 ≤ fmt then
    let chroma := fun (k x y : Nat) => (evSample b (st * (2 * y)) x k + evSample b (st * (2 * y + 1)) x k + 1) / 2
    ⟨planeOf w h fun x y => evSample b (st * y) (x / 2) (1 + 2 * (x % 2)), planeOf (w / 2) (h / 2) (chroma 0),
      planeOf (w / 2) (h / 2) (chroma 2)⟩
  else pictureAt b st (st * h) w h (fmt == 1)

end Sys2Proof.Machine
end

