-- ==== Sys2Proof/Machine/Dec.lean ====
section
/-!
DEFINITION. Video decoding (chapter 13): context commands, what binds a context, and the end of DEC and SCL instances.
-/

namespace Sys2Proof.Machine

/-! ### Parameter blocks (R414, R418) -/

/-- The highest LEVEL of R414 and the largest picture of a codec. -/
def codecLimit (codec : Nat) : Nat × Nat :=
  match codec with
  | 1 => (52, 9437184)
  | 2 | 5 => (51, 8912896)
  | _ => (0, 9437184)

/-- The largest frame of each level of a codec, in luma samples: MaxFS of H.264, MaxLumaPs of H.265, MaxPicSize of AV1
(R416, R455; the figures are those of the standards, which the spec does not repeat: PRESUMED, log entry 178). -/
def levelTable (codec : Nat) : List (Nat × Nat) :=
  match codec with
  | 1 => [(10, 25344), (11, 101376), (21, 202752), (22, 414720), (31, 921600), (32, 1310720), (40, 2097152), (42, 2228224),
      (50, 5652480), (51, 9437184)]
  | 2 => [(10, 36864), (20, 122880), (21, 245760), (30, 552960), (31, 983040), (40, 2228224), (50, 8912896)]
  | 5 => [(20, 147456), (21, 278784), (30, 665856), (31, 1065024), (40, 2359296), (50, 8912896)]
  | _ => []

/-- The largest frame of a codec at a LEVEL: that of the highest level of the table that it reaches. -/
def levelFrame (codec level : Nat) : Nat :=
  (levelTable codec).foldl (fun m x => if x.1 ≤ level then x.2 else m) ((levelTable codec).headD (0, 9437184)).2

/-- Whether PROFILE and BITDEPTH10 suit CODEC (R418). -/
def profileOk (codec profile ten : Nat) : Bool :=
  match codec with
  | 1 => decide (profile ≤ 2) && ten == 0
  | 2 => decide (profile ≤ 1) && (ten == 0 || profile == 1)
  | 3 => profile == 0 && ten == 0
  | 4 => (profile == 0 || profile == 2) && (ten == 0 || profile == 2)
  | 5 => profile == 0
  | _ => false

/-- The bits of a parameter block that R418 reserves, by word. -/
def decReserved (w : List Word) : Bool :=
  let masks : List Word := [0xFFF00000, 0xFFFFFFC0, 0, 0xF0E0F8E0, 0, 0xFFFFE000, 0xC0000000, 0, 0xFFFFFF80, 0, 0xFFFFFF80]
  (List.range 64).any fun i => (wordAt w i &&& masks.getD i 0xFFFFFFFF) != 0

/-- Whether words 5 and 6 of a block may be taken (R418, R419). -/
def decTakenOk (w : List Word) : Bool :=
  decide (wfld w 5 7 0 ≤ 14) && decide (wfld w 5 9 8 ≤ 2) && wordAt w 5 &&& 0xFFFFE000 == 0 && wordAt w 6 &&& 0xC0000000 == 0

/-- The size of a pool buffer and of a pool (R418). -/
def poolBuffer (w : List Word) : Nat :=
  let x := wfld w 2 15 0
  let y := wfld w 2 31 16
  pictureBytes x y (wfld w 0 16 16 == 1) + (x + 15) / 16 * ((y + 15) / 16) * 16

/-- Whether a parameter block keeps R414 and R418; the pool lies where no unit alone writes. -/
def Dev.decBlockOk (d : Dev) (w : List Word) : Bool :=
  let codec := wfld w 0 3 0
  let x := wfld w 2 15 0
  let y := wfld w 2 31 16
  let lim := codecLimit codec
  let ringOk := fun (o : Nat) => decide (wfld w (8 + 2 * o) 5 4 ≤ 2) && decide (2 ≤ wfld w (8 + 2 * o) 3 0) && decide (wfld w (8 + 2 * o) 3 0 ≤ 8)
  !decReserved w && profileOk codec (wfld w 0 7 4) (wfld w 0 16 16) && decTakenOk w &&
  (if lim.1 = 0 then wfld w 0 15 8 == 0 else decide (wfld w 0 15 8 ≤ lim.1)) &&
  (codec == 1 || wfld w 0 19 19 == 0) &&
  decide (1 ≤ x) && decide (x ≤ 4096) && decide (1 ≤ y) && decide (y ≤ 2304) && decide (x * y ≤ lim.2) &&
  decide (4 ≤ wfld w 3 4 0) && decide (wfld w 3 4 0 ≤ 17) && decide (wfld w 3 10 8 ≤ 4) &&
  (if codec = 5 then true else if codec = 4 then decide (wfld w 3 20 16 ≤ 3) else wfld w 3 20 16 == 0) &&
  decide (1 ≤ wfld w 3 27 24) && decide (wfld w 3 27 24 ≤ 8) && [0, 1].all ringOk &&
  !d.unitOwned (256 * wfld w 4 31 0) (wfld w 3 4 0 * poolBuffer w)

/-! ### Binding and descriptors (R419, R420) -/

/-- Whether an operation of a KIND names a context. -/
def Dev.binds (d : Dev) (kind c : Nat) : Bool := d.wfg.slots.any fun s => Desc.kind s.desc == kind && Desc.ctx s.desc == c

/-- Width and height of a size word (R97). -/
def sizeW (n : Nat) : Nat := n % 65536
def sizeH (n : Nat) : Nat := n / 65536

/-- Whether an output size keeps R420. -/
def outSizeOk (n : Nat) : Bool :=
  let w := sizeW n
  let h := sizeH n
  decide (64 ≤ w) && decide (64 ≤ h) && decide (w ≤ 4096) && decide (h ≤ 2304) && w % 2 == 0 && h % 2 == 0

/-- What refuses a DEC descriptor (R420); whether another operation binds its context is the caller's to say. -/
def Dev.decRefusal (d : Dev) (w : List Word) (bound : Bool) : Bool :=
  match d.decCtx? (Desc.ctx w) with
  | none => true
  | some x =>
    let p := Desc.param w
    let lim := codecLimit x.codec
    bound || decide (sizeW (wfld x.params 2 31 0) < sizeW (p 0)) || decide (sizeH (wfld x.params 2 31 0) < sizeH (p 0)) ||
    decide (lim.2 < sizeW (p 0) * sizeH (p 0)) ||
    decide (levelFrame x.codec (wfld x.params 0 15 8) < sizeW (p 0) * sizeH (p 0)) || decide (p 1 < 8000) || decide (67108864 < p 1) ||
    p 2 % 65536 == 0 || decide (256 < p 2 % 65536) || p 3 == 0 || !outSizeOk (p 3) || (p 4 != 0 && !outSizeOk (p 4)) ||
    (Desc.berth w != noBerth &&
      !([classFwd, classXcd, classTrk].contains (d.rowGet (Desc.berth w) RowF.CLASS)))

/-- The tenant of a context a DEC descriptor names. -/
def Dev.decTenant (d : Dev) (w : List Word) : Option Nat := (d.decCtx? (Desc.ctx w)).map fun x => wfld x.params 1 5 0

/-! ### Context commands (R419) -/

/-- The result of a context command. -/
def Dev.decResult (d : Dev) (st : Status) : Dev :=
  let d := (d.set Reg.decCtl_CMD_VALID 1).set Reg.decCtl_CMD_STATUS st.code
  if 0x10 ≤ st.code then d.raise decPage 0 else d

/-- CTX_MOD: words 5 and 6, KFR_EN and KFR_FIR. -/
def decModified (old new : List Word) : List Word :=
  let w := (old.set 5 (wordAt new 5)).set 6 (wordAt new 6)
  putWfld (putWfld w 0 17 17 (wfld new 0 17 17)) 0 18 18 (wfld new 0 18 18)

/-- The 512 bytes of a context: parameters, state, and decoder state of no fixed layout (R443). -/
def Dev.decImage (d : Dev) (c : Nat) : Dev × Bytes :=
  match d.decCtx? c with
  | none => d.drawBytes 512
  | some x => let (d, b) := d.drawBytes 92; (d, bytesOfWords (x.params ++ x.state) ++ b)

/-- GO of the decode control page (R419, R442). -/
def Dev.decGo (d : Dev) : Dev :=
  let c := d.get Reg.decCtl_CMD_CTX
  let a := d.get Reg.decCtl_CMD_ADDR * 256
  if !d.live decPage then d
  else if !d.enabled decPage || !d.flag Reg.decCtl_EN then d.decResult .refusedNoUnit
  else
    match d.get Reg.decCtl_CMD_OP with
    | 1 =>
      match d.holdWords a 64 decPage with
      | (d, .error _) => d.decResult .refusedParam
      | (d, .ok w) =>
        if !d.decBlockOk w || d.binds opDEC c then d.decResult .refusedParam
        else (d.setDecCtx c { params := w }).decResult .done
    | 2 =>
      match d.decCtx? c, d.holdWords a 64 decPage with
      | some x, (d, .ok w) =>
        if !decTakenOk w then d.decResult .refusedParam
        else (d.setDecCtx c { x with params := decModified x.params w }).decResult .done
      | _, (d, _) => d.decResult .refusedParam
    | 3 =>
      match d.decCtx? c with
      | some x => (d.setDecCtx c { x with reset := true }).decResult .done
      | none => d.decResult .refusedParam
    | 4 =>
      let (d, b) := d.decImage c
      match d.holdWrite a b decPage with
      | (d, none) => d.decResult .done
      | (d, some _) => d.decResult .failedMemoryUe
    | 5 =>
      if d.binds opDEC c then d.decResult .refusedParam
      else ({ d with dec := { d.dec with ctxs := assocDel c d.dec.ctxs } }).decResult .done
    | _ => d.decResult .refusedParam

/-- The register fields of a context command, written. -/
def Dev.decPosted (d : Dev) (op c addr : Nat) : Dev :=
  ((d.set Reg.decCtl_CMD_OP op).set Reg.decCtl_CMD_CTX c).set Reg.decCtl_CMD_ADDR addr

/-- A context command: its register fields written, then GO. -/
def Dev.decCmd (d : Dev) (op c addr : Nat) : Dev :=
  if !d.live decPage then d else (d.decPosted op c addr).decGo

/-! ### Pool and marks (R424–R427, R430) -/

/-- A mark cleared, all but PENDING_OUT (R425). -/
def Mark.clear (m : Mark) : Mark := { m with kind := 0, slots := 0, standin := false, tainted := false }

/-- Whether a buffer is free (R424). -/
def Mark.free (m : Mark) : Bool := m.kind == 0 && !m.pending

/-- Buffers of a context's pool. -/
def poolCount (params : List Word) : Nat := wfld params 3 4 0

/-- The buffer of lowest or of highest decode order among some. -/
def oldestBuffer (ms : List (Nat × Mark)) : Option Nat :=
  (ms.foldl (fun (b : Option (Nat × Mark)) x => match b with
    | some y => if x.2.decOrder < y.2.decOrder then some x else some y
    | none => some x) none).map (·.1)
def newestBuffer (ms : List (Nat × Mark)) : Option Nat :=
  (ms.foldl (fun (b : Option (Nat × Mark)) x => match b with
    | some y => if y.2.decOrder < x.2.decOrder then some x else some y
    | none => some x) none).map (·.1)

/-- The buffers of a pool that hold something, by number. -/
def DecCtx.buffers (x : DecCtx) : List (Nat × Mark) :=
  (x.marks.zipIdx.map fun m => (m.2, m.1)).take (poolCount x.params)

/-- The buffer that a decode takes (R427): one that is free, the one the VDE names where it is; else the one of lowest
decode order that does not await output, which is an eviction. -/
def DecCtx.alloc (x : DecCtx) (want : Nat) : Nat × Bool :=
  let free := x.buffers.filter (·.2.free)
  if free.any (·.1 == want) then (want, false)
  else
    match free with
    | f :: _ => (f.1, false)
    | [] => ((oldestBuffer (x.buffers.filter fun b => !b.2.pending)).getD want, true)

/-- The context with a mark changed. -/
def DecCtx.mapMark (x : DecCtx) (i : Nat) (f : Mark → Mark) : DecCtx := { x with marks := x.marks.modify i f }

/-- A context as its next instance finds it: CTX_RESET takes effect (R419). -/
def DecCtx.atStart (x : DecCtx) : DecCtx :=
  if x.reset then { params := x.params, inUse := x.params } else { x with inUse := x.params }

/-- The first of the buffers that await output, in output order (R426). -/
def firstPending (ms : List (Nat × Mark)) : Option (Nat × Mark) :=
  (ms.filter (·.2.pending)).foldl (fun (b : Option (Nat × Mark)) x => match b with
    | some y => if x.2.epoch < y.2.epoch ∨ (x.2.epoch = y.2.epoch ∧ x.2.order < y.2.order) then some x else some y
    | none => some x) none

/-! ### Outputs (R436–R439) -/

/-- What a finished picture carries into its metadata and items. -/
structure PicInfo where
  ts : Nat
  status : Nat
  key : Bool
  tainted : Bool
  grain : Option Bytes
  width : Nat
  height : Nat
  count : Nat
  berth : Nat
  deriving DecidableEq, Repr

/-- The metadata block of R438. -/
def metadata (p : PicInfo) (area : Nat × Nat × Nat × Nat) : Bytes :=
  leBytes 4 p.ts ++
  leBytes 4 (p.status % 256 + bitOf p.key * 256 + bitOf p.tainted * 512 + bitOf p.grain.isSome * 1024) ++
  leBytes 4 (area.2.1 * 65536 + area.1) ++ leBytes 4 (area.2.2.2 * 65536 + area.2.2.1) ++ leBytes 4 p.count ++
  List.replicate 44 0 ++ padTo 192 (p.grain.getD [])

/-- The lane of the items a video engine writes. -/
def vdeLane : Nat := Config.itemLane 0x0042

/-- The item of an output buffer (R439). -/
def pictureItem (p : PicInfo) (o : Nat) (hp10 : Bool) (addr : Nat) : Item :=
  holdItem (vdeLane % 8) 2 0 addr p.berth
    (p.status % 256 * 2 ^ 24 + o % 4 * 2 ^ 22 + bitOf p.key * 2 ^ 21 + bitOf p.tainted * 2 ^ 20 + bitOf hp10 * 2 ^ 19 +
      bitOf p.grain.isSome * 2 ^ 18) p.ts

/-- One output of an oriented picture written to its ring buffer (R436–R438): the device, its item, whether Hold refused it. -/
def Dev.writeOutput (d : Dev) (u : UnitId) (p : PicInfo) (o : Nat) (s : OutSpec) (pic : Picture) (ten : Bool) (fill : Nat) :
    Dev × Item × Bool :=
  let addr := s.ring + (p.count % max 1 s.depth) * s.size
  let (d, area) := match s.active p.width p.height with
    | some a => (d, a)
    | none =>
      let (d, n) := (d.bump Reg.vde_SCALE_RANGE [u.idx / 4, u.idx % 4]).draw
      (d, (n % 65536, n / 2 ^ 16 % 65536, n / 2 ^ 32 % 65536, n / 2 ^ 48 % 65536))
  let (d, e) := d.holdWrite addr ((s.made pic ten fill).bytes s.hp10 ++ metadata p area) u.page
  (d.noteMade addr s.width s.height, pictureItem p o s.hp10 addr, e.isSome)

/-- The outputs of a picture: the device, the items, whether a write failed. -/
def Dev.writeOutputs (d : Dev) (u : UnitId) (p : PicInfo) (specs : List OutSpec) (pic : Picture) (ten : Bool) (fill : Nat) :
    Dev × List Item × Bool :=
  specs.zipIdx.foldl (fun (acc : Dev × List Item × Bool) x =>
    let (d, is, bad) := acc
    let (d, i, e) := d.writeOutput u p x.2 x.1 pic ten fill
    (d, is ++ [i], bad || e)) (d, [], false)

/-- The outputs of a DEC operation (R420). -/
def decOutputs (params desc : List Word) : List OutSpec :=
  ([0, 1].filter fun o => Desc.param desc (3 + o) != 0).map fun o =>
    ⟨sizeW (Desc.param desc (3 + o)), sizeH (Desc.param desc (3 + o)), wfld params (8 + 2 * o) 5 4,
      wfld params (8 + 2 * o) 6 6 == 1, 256 * wfld params (7 + 2 * o) 31 0, wfld params (8 + 2 * o) 3 0⟩

/-! ### The end of a DEC instance -/

/-- Rotation and flip that the last orientation element of a frame's packets gives (R437, 3GPP TS 26.114). -/
def orientationOf (id : Nat) (items : List Item) : Option (Nat × Bool) :=
  if id = 0 then none
  else
    items.foldl (fun o i =>
      let b := i.data.drop (i.meta6 % 65536)
      match (rtpOf b).bind (·.ext? id) with
      | some e => some (byteAt b e.ofs % 4, bitAt (byteAt b e.ofs) 2)
      | none => o) none

/-- The RTP timestamp of a frame. -/
def frameTs (items : List Item) : Nat :=
  match items with
  | i :: _ => ((rtpOf (i.data.drop (i.meta6 % 65536))).map (·.ts)).getD 0
  | [] => 0

/-- A keyframe request of a context is made for its row (R435). -/
def Dev.decKfr (d : Dev) (params : List Word) (b : Nat) : Dev :=
  if wfld params 0 17 17 = 1 then (d.bump Reg.decCtl_KFR_REQ).kfrInternal (wfld params 0 18 18 == 1) b else d

/-- Whether a pending request is due again (R435). -/
def Dev.kfrAgain (d : Dev) (b : Nat) : Bool :=
  decide (d.get Reg.bwr_KFR_MIN_TIDES ≤ (d.tide % 2 ^ 32 + 2 ^ 32 - d.rowGet b RowF.KFR_TIDE) % 2 ^ 32)

/-- Counters of the engine's page for an instance that ended. -/
def Dev.vdeCount (d : Dev) (u : UnitId) (st : Status) (cycles : Nat) : Dev :=
  let ix := [u.idx / 4, u.idx % 4]
  let d := (d.set Reg.vde_BUSY 0 ix).set Reg.vde_LAST_CYCLES cycles ix
  let d := if st.code < 0x10 then d.bump Reg.vde_PICTURES ix else d
  match st with
  | .doneConcealed => d.countRaise u.page 1 Reg.vde_CONCEALED ix
  | .doneTruncated => d.countRaise u.page 2 Reg.vde_TRUNCATED ix
  | .failedSyntax => d.countRaise u.page 3 Reg.vde_SYNTAX_FAIL ix
  | .failedMemoryUe => d.bump Reg.vde_MEM_UE ix
  | _ => d

/-- A counter of the decode control page with the event its increase raises (R444). -/
def Dev.decCount (d : Dev) (f : RegField) (n : Nat) (bit : Option Nat) : Dev :=
  if n = 0 then d
  else
    match bit with
    | some b => d.countRaise decPage b f [] n
    | none => d.bump f [] n

/-- A frame that is not decoded (R432): counted, a request made. -/
def Dev.decFailed (d : Dev) (c b : Nat) (x : DecCtx) (f : DecFail) : Dev :=
  let d := match f with
    | .size => d.decCount Reg.decCtl_SIZE_EXCEED 1 (some 2)
    | .unsupported => d.decCount Reg.decCtl_UNSUPPORTED 1 (some 3)
    | .badSyntax => d
  let d := d.setDecCtx c { x with syntaxFails := satAdd 32 x.syntaxFails 1, first := false, kfrPending := true }
  d.decKfr x.inUse b

/-- What of a frame lies past its declared bounds (R431): the bits left undecoded, if any part is. -/
def truncation (desc : List Word) (r : DecReport) : Option Nat :=
  let excess := r.bits - Desc.param desc 1
  if Desc.param desc 1 < r.bits ∨ Desc.param desc 2 % 65536 < r.units then some (max excess r.unitBits) else none

/-- The picture of a frame put into the pool (R424–R427, R430, R433): the context, whether a buffer was evicted, the
buffer. -/
def DecCtx.decoded (x : DecCtx) (r : DecReport) (tainted : Bool) (ts : Nat) : DecCtx × Bool × Nat :=
  let x := if r.clears then { x with marks := x.marks.map Mark.clear, epoch := x.epoch + 1 } else x
  let (buf, evict) := x.alloc r.buffer
  let stand := newestBuffer (x.buffers.filter fun b => b.2.kind != 0 || b.2.pending || b.2.shown)
  let x := r.marks.foldl (fun (x : DecCtx) m => x.mapMark m.1 fun k => { k with kind := m.2.1, slots := m.2.2 }) x
  let x := match stand with
    | some i => if r.standins = 0 then x else x.mapMark i fun k => { k with standin := true }
    | none => x
  let order : Int := if x.codec = cH264 ∨ x.codec = cH265 then r.order else (x.decOrder : Int)
  let m : Mark := { kind := r.kind, slots := r.slots, tainted := tainted, pending := r.shown, shown := r.shown,
                    decOrder := x.decOrder, epoch := x.epoch, order := order, key := r.key, ts := ts, width := r.width,
                    height := r.height, grain := r.grain }
  ({ x with marks := x.marks.set buf m, decOrder := (x.decOrder + 1) % 2 ^ 32 }, evict, buf)

/-- The buffer a picture is output from, if any, and the context after it (R426); how many pending pictures a key
picture's clearing discards. -/
def DecCtx.output (x : DecCtx) (r : DecReport) : DecCtx × Option (Nat × Mark) × Nat :=
  match r.existing with
  | some i => (x, x.marks[i]?.map fun m => (i, m), 0)
  | none =>
    let pend := x.buffers.filter (·.2.pending)
    let out := if wfld x.params 3 10 8 < pend.length then firstPending x.buffers else none
    let x := match out with
      | some o => { x.mapMark o.1 fun m => { m with pending := false } with lastOut := some (o.2.epoch, o.2.order) }
      | none => x
    let gone := if r.clears then x.buffers.filter fun b => b.2.pending && b.2.epoch != x.epoch else []
    let x := gone.foldl (fun (x : DecCtx) b => x.mapMark b.1 fun m => { m with pending := false }) x
    (x, out, gone.length)

/-- The format of a context's pool, and the size its buffers are made for (R418). -/
def DecCtx.ten (x : DecCtx) : Bool := wfld x.inUse 0 16 16 == 1
def DecCtx.maxW (x : DecCtx) : Nat := wfld x.inUse 2 15 0
def DecCtx.maxH (x : DecCtx) : Nat := wfld x.inUse 2 31 16

/-- Where buffer `i` of a context's pool lies. -/
def DecCtx.bufferAddr (x : DecCtx) (i : Nat) : Nat := 256 * wfld x.inUse 4 31 0 + i * poolBuffer x.inUse

/-- The picture in buffer `i` of a pool; none where Hold fails it. -/
def Dev.poolPicture (d : Dev) (u : UnitId) (x : DecCtx) (i : Nat) : Dev × Option Picture :=
  let m := x.marks.getD i {}
  let st := pictureStride x.maxW x.ten
  match d.holdRead (x.bufferAddr i) (pictureBytes x.maxW x.maxH x.ten) u.page with
  | (d, .ok b) => (d, some (pictureAt b st (st * x.maxH) m.width m.height x.ten))
  | (d, .error _) => (d, none)

/-- The concealment source of a picture decoded into buffer `buf` (R429): the most recently decoded shown picture of the
pool, if it has the picture's size; the buffer where Hold fails it. -/
def Dev.concealSource (d : Dev) (u : UnitId) (x : DecCtx) (r : DecReport) (buf : Nat) : Dev × Except Nat (Option Picture) :=
  if r.lost.isEmpty then (d, .ok none)
  else
    match newestBuffer (x.buffers.filter fun b => b.1 != buf && b.2.shown) with
    | none => (d, .ok none)
    | some i =>
      let m := x.marks.getD i {}
      if m.width ≠ r.width ∨ m.height ≠ r.height then (d, .ok none)
      else
        match d.poolPicture u x i with
        | (d, some p) => (d, .ok (some p))
        | (d, none) => (d, .error i)

/-- The decoded picture, its lost blocks concealed, put into its buffer with its motion field (R418, R429); the error met:
of the source's buffer, or of the write. -/
def Dev.poolWrite (d : Dev) (u : UnitId) (x : DecCtx) (r : DecReport) (buf : Nat) : Dev × Option (Option Nat) :=
  match d.concealSource u x r buf with
  | (d, .error i) => (d, some (some i))
  | (d, .ok src) =>
    let st := pictureStride x.maxW x.ten
    let p := pictureAt r.picture st (st * x.maxH) r.width r.height x.ten
    let p := conceal r x.ten src (if r.mono then p.grey x.ten else p)
    let b := p.buffer x.maxW x.maxH x.ten
    match d.holdWrite (x.bufferAddr buf) (b ++ padTo (poolBuffer x.inUse - b.length) r.field) u.page with
    | (d, none) => (d, none)
    | (d, some _) => (d, some none)

/-- Whether a picture comes after one of later order was output already (R426). -/
def DecCtx.outOfOrder (x : DecCtx) (r : DecReport) (order : Int) : Bool :=
  r.shown && !r.clears &&
  match x.lastOut with
  | some (e, o) => e == x.epoch && decide (order < o)
  | none => false

/-- The requests an instance makes (R435). -/
def Dev.decRequests (d : Dev) (x : DecCtx) (r : DecReport) (st : Status) (b : Nat) : Dev × Bool :=
  let own := st == .doneConcealed && (r.damaged || r.standins != 0 || !r.lost.isEmpty)
  let start := x.first && !r.key
  let again := x.kfrPending && d.kfrAgain b
  let clean := r.key && st == .done
  let pending := !clean && (own || start || x.kfrPending)
  if own || start || (again && !clean) then (d.decKfr x.inUse b, pending) else (d, pending)

/-- An instance ends with FAILED_MEMORY_UE (R434): a buffer whose read failed has its marks cleared. -/
def Dev.decMemory (d : Dev) (c : Nat) (x : DecCtx) (buf : Option Nat) : Dev × Status × List Item :=
  let x := match buf with
    | some k => x.mapMark k Mark.clear
    | none => x
  (d.setDecCtx c { x with first := false }, .failedMemoryUe, [])

/-- Rotation and flip in force for a context's outputs (R437). -/
def DecCtx.turn (x : DecCtx) : Nat × Bool :=
  match wfld x.inUse 5 9 8 with
  | 1 => (x.rot, x.flip)
  | 2 => (wfld x.inUse 5 11 10, wfld x.inUse 5 12 12 == 1)
  | _ => (0, false)

/-- The picture of buffer `i` is output (R426, R436–R439): the device, the status, the items. -/
def Dev.decOutput (d : Dev) (u : UnitId) (c : Nat) (s : Slot) (x : DecCtx) (st : Status) (i : Nat) (m : Mark) :
    Dev × Status × List Item :=
  match d.poolPicture u x i with
  | (d, none) => d.decMemory c x (some i)
  | (d, some pic) =>
    let pic := pic.turn x.turn.1 x.turn.2
    let p : PicInfo := ⟨m.ts, st.code, m.key, m.tainted, m.grain, pic.y.width, pic.y.height, x.outputs, Desc.berth s.desc⟩
    let (d, is, bad) := d.writeOutputs u p (decOutputs x.inUse s.desc) pic x.ten (wfld x.inUse 6 29 0)
    let d := d.setDecCtx c { x with outputs := (x.outputs + 1) % 2 ^ 32 }
    if bad then (d, .failedMemoryUe, []) else (d, st, is)

/-- A frame that is decoded (R424–R439): the device, the status, the items. -/
def Dev.decFrame (d : Dev) (u : UnitId) (c : Nat) (s : Slot) (items : List Item) (old : DecCtx) (r : DecReport) :
    Dev × Status × List Item :=
  let trunc := truncation s.desc r
  let ts := frameTs items
  let refTaint := r.refs.any fun i => ((old.marks[i]?).map (·.tainted)).getD false
  let damage := r.damaged || !r.lost.isEmpty || r.standins != 0
  let st : Status := if trunc.isSome then .doneTruncated else if damage || refTaint then .doneConcealed else .done
  let tainted := st != .done
  let ooo := old.outOfOrder r r.order
  let (x, evict, buf) : DecCtx × Bool × Nat := if r.existing.isSome then (old, false, 0) else old.decoded r tainted ts
  match (if r.existing.isSome then (d, none) else d.poolWrite u x r buf) with
  | (d, some e) => d.decMemory c old e
  | (d, none) =>
    let o := orientationOf (wfld x.inUse 5 7 0) items
    let x : DecCtx := { x with
      rot := (o.map Prod.fst).getD x.rot
      flip := (o.map Prod.snd).getD x.flip
      tainted := if r.key && st == Status.done then false else x.tainted || tainted
      keySeen := x.keySeen || r.key
      concealedBlocks := satAdd 32 x.concealedBlocks (lostBlocks r)
      truncBits := satAdd 32 x.truncBits (trunc.getD 0)
      standin := satAdd 32 x.standin r.standins }
    let (x, out, skipped) := x.output r
    let d := d.decCount Reg.decCtl_POOL_EVICT (bitOf evict) (some 1)
    let d := d.decCount Reg.decCtl_OUTPUT_SKIP skipped none
    let d := d.decCount Reg.decCtl_REORDER_EXCEED (bitOf ooo) (some 5)
    let d := d.bump Reg.vde_STANDIN [u.idx / 4, u.idx % 4] r.standins
    let (d, pending) := d.decRequests x r st (Desc.berth s.desc)
    let x := { x with first := false, kfrPending := pending }
    match out with
    | none => (d.setDecCtx c x, st, [])
    | some (i, m) => d.decOutput u c s x st i m

/-- The end of a DEC instance on engine `u`: the device, the status, the items for OUT_QUEUE. -/
def Dev.decEnd (d : Dev) (u : UnitId) (s : Slot) (i : Inst) (r : DecReport) : Dev × Status × List Item :=
  let c := Desc.ctx s.desc
  let d := d.decCount Reg.decCtl_DEPKT_DROP r.dropped (some 4)
  match d.decCtx? c with
  | none => (d.vdeCount u .failedSyntax r.cycles, .failedSyntax, [])
  | some x =>
    match (if i.taken.any fun x => x.data == [] then some none else r.memory) with
    | some buf =>
      let (d, st, is) := d.decMemory c x buf
      (d.vdeCount u st r.cycles, st, is)
    | none =>
      match r.fail with
      | some f => ((d.decFailed c (Desc.berth s.desc) x f).vdeCount u .failedSyntax r.cycles, .failedSyntax, [])
      | none =>
        if r.skip then ((d.decCount Reg.decCtl_OUTPUT_SKIP 1 none).vdeCount u .done r.cycles, .done, [])
        else
          let (d, st, is) := d.decFrame u c s i.taken x r
          (d.vdeCount u st r.cycles, st, is)

/-- A DEC or SCL instance starts on a VDE (R419, R441). -/
def Dev.vdeStart (d : Dev) (u : UnitId) (s : Slot) : Dev :=
  let ix := [u.idx / 4, u.idx % 4]
  let d := (d.set Reg.vde_BUSY 1 ix).set Reg.vde_CTX (Desc.ctx s.desc) ix
  if Desc.kind s.desc = opDEC then
    match d.decCtx? (Desc.ctx s.desc) with
    | some x => d.setDecCtx (Desc.ctx s.desc) x.atStart
    | none => d
  else d

/-! ### SCL (R440) -/

/-- The outputs of an SCL operation: sizes from its descriptor, rings from its AUX block. -/
def sclOutputs (desc aux : List Word) : List OutSpec :=
  ([0, 1, 2, 3].filter fun o => Desc.param desc (1 + o) != 0).map fun o =>
    ⟨sizeW (Desc.param desc (1 + o)), sizeH (Desc.param desc (1 + o)), wfld aux (3 + 2 * o) 5 4,
      wfld aux (3 + 2 * o) 6 6 == 1, 256 * wfld aux (2 + 2 * o) 31 0, wfld aux (3 + 2 * o) 3 0⟩

/-- The input of an SCL instance: its address and input Tide, from the newest item of IN_QUEUE or from IN_ADDR (R440,
R498). -/
def sclInput (s : Slot) (i : Inst) : Nat × Nat :=
  match i.taken.getLast? with
  | some x => (x.addr, (wordAt x.words 4).toNat)
  | none => (Desc.inAddr s.desc, i.release)

/-- The end of an SCL instance (R440): the AUX block and the input are read, the outputs are written. -/
def Dev.sclEnd (d : Dev) (u : UnitId) (s : Slot) (i : Inst) (r : SclReport) : Dev × Status × List Item :=
  let failed := fun (d : Dev) => (d.vdeCount u .failedMemoryUe r.cycles, Status.failedMemoryUe, ([] : List Item))
  match d.holdWords (Desc.auxAddr s.desc) 16 u.page with
  | (d, .error _) => failed d
  | (d, .ok aux) =>
    let fmt := wfld aux 0 1 0
    let st := wfld aux 1 31 0
    let w := sizeW (Desc.param s.desc 0)
    let h := sizeH (Desc.param s.desc 0)
    let (addr, tide) := sclInput s i
    match d.holdRead addr (sclBytes fmt st h) u.page with
    | (d, .error _) => failed d
    | (d, .ok b) =>
      let k := (assoc? s.order d.dec.scls).getD 0
      let pic := (sclPicture fmt st w h b).turn (wfld aux 0 9 8) (wfld aux 0 10 10 == 1)
      let p : PicInfo := ⟨tide % 2 ^ 32, Status.done.code, false, false, none, pic.y.width, pic.y.height, k, Desc.berth s.desc⟩
      let (d, fill) := d.draw
      let (d, is, bad) := d.writeOutputs u p (sclOutputs s.desc aux) pic (fmt != 0) (fill % 2 ^ 30)
      let d := { d with dec := { d.dec with scls := assocSet s.order ((k + 1) % 2 ^ 32) d.dec.scls } }
      if bad then failed d else (d.vdeCount u .done r.cycles, .done, is)

end Sys2Proof.Machine
end

