-- ==== Sys2Proof/Machine/Layout.lean ====
section
/-!
DEFINITION. Views and layouts (R475, R476, R479–R481, R489–R491): their blocks, their commands, and the tiles a layer is
fetched in.
-/

namespace Sys2Proof.Machine

/-- The compose control page. -/
def cmpPage : Page := ⟨.cmpCtl, 0⟩

/-! ### View contexts (R475) -/

/-- A valid view context. -/
def Dev.view? (d : Dev) (v : Nat) : Option View := assoc? v d.cmp.views

namespace View

/-- The parameters of R475. -/
def width (x : View) : Nat := wfld x.params 0 15 0
def height (x : View) : Nat := wfld x.params 0 31 16
def tenant (x : View) : Nat := wfld x.params 1 5 0
def hp10 (x : View) : Bool := wfld x.params 1 8 8 == 1
def essEn (x : View) : Bool := wfld x.params 1 12 12 == 1
def essFlow (x : View) : Nat := wfld x.params 1 18 16
def outDepth (x : View) : Nat := wfld x.params 1 27 24
def rate (x : View) : Nat := wfld x.params 2 16 0
def staleLimit (x : View) : Nat := if wfld x.params 4 7 0 = 0 then 15 else wfld x.params 4 7 0
def outRing (x : View) : Nat := 256 * wfld x.params 5 31 0
def essRing (x : View) : Nat := 256 * wfld x.params 6 31 0
def essDepth (x : View) : Nat := wfld x.params 7 3 0

end View

/-- Whether a size is one of the three formats of essence video, and its code (R504). -/
def vidFormat (w h : Nat) : Option Nat :=
  if w = 1280 ∧ h = 720 then some 0 else if w = 1920 ∧ h = 1080 then some 1
  else if w = 3840 ∧ h = 2160 then some 2 else none

/-- Whether a parameter block keeps R475; ESS_DEPTH is judged where ESS_EN is 1. -/
def viewOk (w : List Word) : Bool :=
  let masks : List Word := [0, 0xF0F8EEC0, 0xFFFE0000, 0xC0000000, 0xFFFFFF00, 0, 0, 0xFFFFFFF0]
  let x := wfld w 0 15 0
  let y := wfld w 0 31 16
  ((List.range 16).all fun i => (wordAt w i &&& masks.getD i 0xFFFFFFFF) == 0) &&
  x % 2 == 0 && y % 2 == 0 && decide (64 ≤ x) && decide (x ≤ 3840) && decide (64 ≤ y) && decide (y ≤ 2160) &&
  decide (2 ≤ wfld w 1 27 24) && decide (1000 ≤ wfld w 2 16 0) && decide (wfld w 2 16 0 ≤ 60000) &&
  (wfld w 1 12 12 == 0 ||
    (decide (3 ≤ wfld w 7 3 0) && decide (wfld w 7 3 0 ≤ 8) && (vidFormat x y).isSome))

/-! ### Layouts (R479) -/

/-- SRC_KIND values. -/
def srcColour : Nat := 0
def srcQueue : Nat := 1
def srcGraphic : Nat := 2
def srcEssence : Nat := 3

/-- Layer records of a layout and record `i` of it as eight words. -/
def layerCount (l : List Word) : Nat := wfld l 0 5 0
def layerRec (l : List Word) (i : Nat) : List Word := slice l (8 * (i + 1)) 8

namespace Layer

/-- The fields of a layer record. -/
def dx (r : List Word) : Nat := wfld r 0 15 0
def dy (r : List Word) : Nat := wfld r 0 31 16
def w (r : List Word) : Nat := wfld r 1 15 0
def h (r : List Word) : Nat := wfld r 1 31 16
def sx (r : List Word) : Nat := wfld r 2 15 0
def sy (r : List Word) : Nat := wfld r 2 31 16
def kind (r : List Word) : Nat := wfld r 3 2 0
def output (r : List Word) : Nat := wfld r 3 5 4
def index (r : List Word) : Nat := wfld r 3 27 16
def z (r : List Word) : Nat := wfld r 4 5 0
def blend (r : List Word) : Nat := wfld r 4 9 8
def opq (r : List Word) : Bool := wfld r 4 12 12 == 1
def galpha (r : List Word) : Nat := wfld r 4 24 16
def colour (r : List Word) : Nat := wfld r 5 29 0
def gfx (r : List Word) : Nat := 256 * wfld r 6 31 0
def period (r : List Word) : Nat := wfld r 7 7 0

end Layer

/-- Whether a layer record keeps R479 in a view of a size. -/
def layerOk (vw vh : Nat) (r : List Word) : Bool :=
  let masks : List Word := [0, 0, 0, 0xF000FFC8, 0xFE00ECC0, 0xC0000000, 0, 0xFFFFFF00]
  let k := Layer.kind r
  ((List.range 8).all fun i => (wordAt r i &&& masks.getD i 0) == 0) &&
  Layer.dx r % 2 == 0 && Layer.dy r % 2 == 0 && Layer.w r % 2 == 0 && Layer.h r % 2 == 0 && Layer.sx r % 2 == 0 &&
  Layer.sy r % 2 == 0 && decide (2 ≤ Layer.w r) && decide (2 ≤ Layer.h r) &&
  decide (Layer.dx r + Layer.w r ≤ vw) && decide (Layer.dy r + Layer.h r ≤ vh) &&
  decide (k ≤ 3) && (k != srcGraphic || (Layer.sx r == 0 && Layer.sy r == 0)) &&
  (k != srcQueue || decide (Layer.output r ≤ 1)) && (k != srcEssence || decide (Layer.index r ≤ 7)) &&
  decide (Layer.blend r ≤ 1) && decide (Layer.galpha r ≤ 256) &&
  (!Layer.opq r || (Layer.blend r == 0 && Layer.galpha r == 256)) &&
  (k == srcColour || k == srcGraphic || decide (1 ≤ Layer.period r))

/-- The records of a layout. -/
def layersOf (l : List Word) : List (List Word) := (List.range (layerCount l)).map (layerRec l)

/-- Whether a layer names this source. -/
def namesSource (k i : Nat) (r : List Word) : Bool := Layer.kind r == k && Layer.index r == i

/-- Whether another view's layer names a source (R479). -/
def Dev.sourceTaken (d : Dev) (v k i : Nat) : Bool :=
  d.cmp.views.any fun x => x.1 != v &&
    ((layersOf x.2.layout).any (namesSource k i) || (x.2.staged.any fun s => (layersOf s.words).any (namesSource k i)))

/-- Whether a layer's source belongs to another tenant than its view's (R477, R479). -/
def Dev.layerForeign (d : Dev) (t : Nat) (r : List Word) : Bool :=
  Layer.kind r == srcQueue && d.get Reg.wfg_Q_TENANT [Layer.index r] != t

/-- Whether a layout keeps R479 for view `v`, its tenants apart. -/
def Dev.layoutOk (d : Dev) (v : Nat) (x : View) (l : List Word) : Bool :=
  decide (1 ≤ layerCount l) && decide (layerCount l ≤ 32) && (wordAt l 0 &&& 0xFFFFFFC0) == 0 &&
  (wordAt l 1 &&& 0xFFFFFFFE) == 0 && ((List.range 6).all fun i => wordAt l (2 + i) == 0) &&
  (layersOf l).all fun r => layerOk x.width x.height r &&
    !((Layer.kind r == srcQueue || Layer.kind r == srcEssence) && d.sourceTaken v (Layer.kind r) (Layer.index r))

/-! ### Order and culling (R480, R481) -/

/-- The indices of a layout's records in the order they are drawn. -/
def drawOrder (l : List Word) : List Nat :=
  let is := List.range (layerCount l)
  if wfld l 1 0 0 = 0 then is
  else sortBy (fun a b => decide (Layer.z (layerRec l a) ≤ Layer.z (layerRec l b))) is

/-- Whether a rectangle covers every view pixel of tile (tx, ty). -/
def coversTile (vw vh tx ty : Nat) (r : List Word) : Bool :=
  decide (Layer.dx r ≤ 16 * tx) && decide (Layer.dy r ≤ 16 * ty) &&
  decide (min vw (16 * tx + 16) ≤ Layer.dx r + Layer.w r) && decide (min vh (16 * ty + 16) ≤ Layer.dy r + Layer.h r)

/-- Whether layer `i` is culled in tile (tx, ty): a layer drawn above it is opaque and covers the tile. -/
def culled (vw vh : Nat) (l : List Word) (i tx ty : Nat) : Bool :=
  (((drawOrder l).dropWhile (· != i)).drop 1).any fun j => Layer.opq (layerRec l j) && coversTile vw vh tx ty (layerRec l j)

/-- The length of the overlap of [a, a + n) and [b, b + m). -/
def overlapLen (a n b m : Nat) : Nat := min (a + n) (b + m) - max a b

/-- The fetched pixels of one layer. -/
def layerFetched (vw vh : Nat) (l : List Word) (i : Nat) : Nat :=
  let r := layerRec l i
  if Layer.kind r = srcColour then 0
  else
    ((List.range ((vh + 15) / 16)).map fun ty => ((List.range ((vw + 15) / 16)).map fun tx =>
      if culled vw vh l i tx ty then 0
      else overlapLen (16 * tx) 16 (Layer.dx r) (Layer.w r) * overlapLen (16 * ty) 16 (Layer.dy r) (Layer.h r)).sum).sum

/-- The fetched layer pixels of a layout (R481). -/
def fetchedPixels (vw vh : Nat) (l : List Word) : Nat := ((List.range (layerCount l)).map (layerFetched vw vh l)).sum

/-! ### The context in Hold (R475) -/

/-- Where a view's context lies. -/
def Dev.viewAddr (d : Dev) (v : Nat) : Nat := d.get Reg.cmpCtl_VIEW_CTX_BASE * 65536 + 4096 * v

/-- A layout padded to the 264 words its place holds. -/
def layoutBytes (l : List Word) : Bytes := padTo 1056 (bytesOfWords l)

/-- The device with a view replaced, in Hold too. -/
def Dev.setView (d : Dev) (v : Nat) (x : View) : Dev :=
  let d := { d with cmp := { d.cmp with views := assocSet v x d.cmp.views } }
  let a := d.viewAddr v
  let d := d.holdStore a (bytesOfWords x.params) cmpPage
  let d := d.holdStore (a + 0x100) (layoutBytes x.layout) cmpPage
  match x.staged with
  | some s => d.holdStore (a + 0x600) (layoutBytes s.words) cmpPage
  | none => d

/-- The 4 KiB of a context; the parts of no fixed layout are free values. -/
def Dev.viewImage (d : Dev) (v : Nat) : Dev × Bytes :=
  match d.view? v with
  | none => d.drawBytes 4096
  | some x =>
    let (d, a) := d.drawBytes 192
    let (d, b) := d.drawBytes 224
    let (d, c) := d.drawBytes 1056
    let (d, e) := d.drawBytes 1504
    let p := match x.staged with
      | some s => layoutBytes s.words
      | none => c
    (d, bytesOfWords x.params ++ a ++ layoutBytes x.layout ++ b ++ p ++ e)

/-! ### View commands (R476, R489, R490) -/

/-- Whether an operation names a view. -/
def Dev.viewBound (d : Dev) (v : Nat) : Bool := d.wfg.slots.any fun s => Desc.kind s.desc == opCMP && Desc.ctx s.desc == v

/-- The result of a view command. -/
def Dev.viewResult (d : Dev) (st : Status) (apply : Nat) : Dev :=
  let d := ((d.set Reg.cmpCtl_CMD_VALID 1).set Reg.cmpCtl_CMD_STATUS st.code).set Reg.cmpCtl_CMD_APPLY apply
  let d := d.set Reg.cmpCtl_F_BOOKED ((d.view? (d.get Reg.cmpCtl_CMD_CTX)).map (·.fBooked) |>.getD 0)
  if 0x10 ≤ st.code then d.raise cmpPage 0 else d

/-- Whether an enabled transmit flow sends what view `v` names (R500). -/
def Dev.essHeld (d : Dev) (v : Nat) (w : Option (List Word)) : Bool :=
  let flowOf := fun (p : List Word) => if wfld p 1 12 12 = 1 then some (wfld p 1 18 16, wordAt p 0) else none
  let old := (d.view? v).bind fun x => flowOf x.params
  let new := w.bind flowOf
  old != new &&
    (((old.toList ++ new.toList).map (·.1)).any fun f => d.flag Reg.ess_VTX_EN [f])

/-- VIEW_SET. -/
def Dev.viewSet (d : Dev) (v : Nat) (w : List Word) : Dev :=
  if wfld w 1 12 12 = 1 ∧ d.essVideo = false then d.viewResult .refusedNoUnit 0
  else if !viewOk w || d.viewBound v || d.essHeld v (some w) then d.viewResult .refusedParam 0
  else (d.setView v { params := w.take 16 }).viewResult .done 0

/-- LAYOUT with its block's words. -/
def Dev.viewLayout (d : Dev) (v : Nat) (l : List Word) (staged : Bool) (tide : Nat) : Dev :=
  match d.view? v with
  | none => d.viewResult .refusedParam 0
  | some x =>
    let l := l.take (8 * (layerCount l + 1))
    if !d.layoutOk v x l || (layersOf l).any (d.layerForeign x.tenant) then d.viewResult .refusedParam 0
    else if d.viewBound v && (decide (x.maxLayers < layerCount l) || decide (x.fBooked < fetchedPixels x.width x.height l)) then
      d.viewResult .refusedBudget 0
    else if staged then (d.setView v { x with staged := some ⟨l, tide, decide (tide ≤ d.tide)⟩ }).viewResult .done 1
    else (d.setView v { x with layout := l }).viewResult .done 0

/-- GO of the compose control page. -/
def Dev.viewGo (d : Dev) : Dev :=
  let v := d.get Reg.cmpCtl_CMD_CTX
  let op := d.get Reg.cmpCtl_CMD_OP
  let a := 256 * d.get Reg.cmpCtl_CMD_ADDR
  let staged := d.flag Reg.cmpCtl_CMD_STAGED
  if !d.live cmpPage then d
  else if !d.enabled cmpPage || !d.flag Reg.cmpCtl_EN then d.viewResult .refusedNoUnit 0
  else if staged && op != 3 then d.viewResult .refusedParam 0
  else
    match op with
    | 1 =>
      match d.holdWords a 16 cmpPage with
      | (d, .ok w) => d.viewSet v w
      | (d, .error _) => d.viewResult .refusedParam 0
    | 2 =>
      match d.view? v, d.holdWords a 16 cmpPage with
      | some x, (d, .ok w) =>
        let p := (x.params.set 3 (wordAt w 3)).set 4 (wordAt w 4)
        if !viewOk p then d.viewResult .refusedParam 0 else (d.setView v { x with params := p }).viewResult .done 0
      | _, (d, _) => d.viewResult .refusedParam 0
    | 3 =>
      match d.holdWords a 8 cmpPage with
      | (d, .error _) => d.viewResult .refusedParam 0
      | (d, .ok h) =>
        match d.holdWords a (8 * (min 32 (layerCount h) + 1)) cmpPage with
        | (d, .error _) => d.viewResult .refusedParam 0
        | (d, .ok l) =>
          d.viewLayout v l staged (d.get64 Reg.cmpCtl_CMD_APPLY_TIDE_LO Reg.cmpCtl_CMD_APPLY_TIDE_HI)
    | 4 =>
      if d.viewBound v || d.essHeld v none then d.viewResult .refusedParam 0
      else ({ d with cmp := { d.cmp with views := assocDel v d.cmp.views } }).viewResult .done 0
    | 5 =>
      let (d, b) := d.viewImage v
      match d.holdWrite a b cmpPage with
      | (d, none) => d.viewResult .done 0
      | (d, some _) => d.viewResult .failedMemoryUe 0
    | _ => d.viewResult .refusedParam 0

/-- The register fields of a view command, written. -/
def Dev.viewPosted (d : Dev) (op v addr : Nat) (staged : Bool) (tide : Nat) : Dev :=
  ((((d.set Reg.cmpCtl_CMD_OP op).set Reg.cmpCtl_CMD_CTX v).set Reg.cmpCtl_CMD_ADDR addr).set
    Reg.cmpCtl_CMD_STAGED (bitOf staged)).set64 Reg.cmpCtl_CMD_APPLY_TIDE_LO Reg.cmpCtl_CMD_APPLY_TIDE_HI tide

/-- A view command: its register fields written, then GO. -/
def Dev.viewCmd (d : Dev) (op v addr : Nat) (staged : Bool) (tide : Nat) : Dev :=
  if !d.live cmpPage then d else (d.viewPosted op v addr staged tide).viewGo

/-! ### A layout taking effect (R489–R491) -/

/-- The layer states of a new layout: a layer with the record index, SRC_KIND and SRC_INDEX it had keeps its state. -/
def carryLayers (old new : List Word) (states : List LayerState) : List LayerState :=
  (List.range (layerCount new)).map fun i =>
    if i < layerCount old ∧ namesSource (Layer.kind (layerRec old i)) (Layer.index (layerRec old i)) (layerRec new i) = true
    then states.getD i {} else {}

/-- The staged LAYOUT of a view due at a picture with R_p takes effect or is dropped (R489, R490). -/
def Dev.layoutDue (d : Dev) (v rp : Nat) : Dev :=
  match d.view? v with
  | none => d
  | some x =>
    match x.staged with
    | none => d
    | some s =>
      if rp < s.tide then d
      else
        let last := d.get Reg.cmpCtl_CMD_CTX == v && d.get Reg.cmpCtl_CMD_APPLY == 1
        let report := fun (d : Dev) (a : Nat) => if last then d.set Reg.cmpCtl_CMD_APPLY a else d
        if x.maxLayers < layerCount s.words ∨ x.fBooked < fetchedPixels x.width x.height s.words then
          report ((d.setView v { x with staged := none }).raise cmpPage 1) 4
        else report (d.setView v { x with layout := s.words, staged := none }) (if s.late then 3 else 2)

end Sys2Proof.Machine
end

