-- ==== Sys2Proof/Machine/Survey.lean ====
section
/-!
DEFINITION. The Survey (R446–R453, R467): its contexts, the pyramid, motion search, records, and the ring set and
reference store that an instance writes.
-/

namespace Sys2Proof.Machine

/-- The encode control page. -/
def encPage : Page := ⟨.encCtl, 0⟩

/-- A valid Survey context. -/
def Dev.svy? (d : Dev) (s : Nat) : Option SvyCtx := assoc? s d.enc.svys

namespace SvyCtx

/-- The parameters of R446. -/
def width (x : SvyCtx) : Nat := wfld x.params 0 15 0
def height (x : SvyCtx) : Nat := wfld x.params 0 31 16
def tenant (x : SvyCtx) : Nat := wfld x.params 1 5 0
def temporal (x : SvyCtx) : Nat := wfld x.params 1 9 8
def hp10 (x : SvyCtx) : Bool := wfld x.params 1 12 12 == 1
def depth (x : SvyCtx) : Nat := wfld x.params 1 19 16
def rate (x : SvyCtx) : Nat := wfld x.params 2 16 0
def tsBase (x : SvyCtx) : Nat := wfld x.params 3 31 0
def ring (x : SvyCtx) : Nat := 256 * wfld x.params 4 31 0
def store (x : SvyCtx) : Nat := 256 * wfld x.params 5 31 0
def roiAddr (x : SvyCtx) : Nat := 256 * wfld x.params 6 31 0

end SvyCtx

/-- Whether a parameter block keeps R446. -/
def svyOk (w : List Word) : Bool :=
  let masks : List Word := [0, 0xFFF0ECC0, 0xFFFE0000, 0, 0, 0, 0]
  let x := wfld w 0 15 0
  let y := wfld w 0 31 16
  ((List.range 16).all fun i => (wordAt w i &&& masks.getD i 0xFFFFFFFF) == 0) &&
  x % 8 == 0 && y % 8 == 0 && decide (64 ≤ x) && decide (x ≤ 3840) && decide (64 ≤ y) && decide (y ≤ 2160) &&
  decide (1 ≤ wfld w 1 9 8) && decide (wfld w 1 9 8 ≤ 3) && decide (2 ≤ wfld w 1 19 16) && decide (wfld w 1 19 16 ≤ 8) &&
  decide (1000 ≤ wfld w 2 16 0) && decide (wfld w 2 16 0 ≤ 60000)

/-! ### The ring set and the reference store (R447) -/

/-- Blocks of a row and rows of blocks at level `k`, in 16 × 16 blocks. -/
def blocksX (w k : Nat) : Nat := (w / 2 ^ k + 15) / 16
def blocksY (h k : Nat) : Nat := (h / 2 ^ k + 15) / 16

/-- The parts of a ring set: records of levels 0–2, pictures of levels 1 and 2, luma of level 3. -/
def setParts (w h : Nat) (ten : Bool) : List Nat :=
  ([0, 1, 2].map fun k => up256 (16 * blocksX w k * blocksY h k)) ++
  ([1, 2].map fun k => up256 (pictureBytes (w / 2 ^ k) (h / 2 ^ k) ten)) ++ [pictureStride (w / 8) ten * (h / 8)]

/-- SET_BYTES, and the offset of part `i` in a set. -/
def setBytes (w h : Nat) (ten : Bool) : Nat := (setParts w h ten).sum
def setOffset (w h : Nat) (ten : Bool) (i : Nat) : Nat := ((setParts w h ten).take i).sum

/-- The luma planes of a slot of the reference store, REF_BYTES, and the offset of level `k` in a slot. -/
def slotParts (w h : Nat) (ten : Bool) : List Nat := [0, 1, 2, 3].map fun k => pictureStride (w / 2 ^ k) ten * (h / 2 ^ k)
def slotBytes (w h : Nat) (ten : Bool) : Nat := (slotParts w h ten).sum
def slotOffset (w h : Nat) (ten : Bool) (k : Nat) : Nat := ((slotParts w h ten).take k).sum

/-- The ring set of picture `p`. -/
def SvyCtx.setAddr (x : SvyCtx) (p : Nat) : Nat := x.ring + p % max 1 x.depth * setBytes x.width x.height x.hp10

/-! ### The temporal pattern (R448) -/

/-- The temporal layer of picture `p`. -/
def temporalLayer (temporal p : Nat) : Nat :=
  match temporal with
  | 2 => p % 2
  | 3 => if p % 4 = 0 then 0 else if p % 4 = 2 then 1 else 2
  | _ => 0

/-- The layer of picture `p`'s reference: the last TL0 picture, or the last TL1 one. -/
def referenceLayer (temporal p : Nat) : Nat := if temporal = 3 ∧ p % 4 = 3 then 1 else 0

/-! ### The pyramid (R447) -/

/-- A plane at half size. -/
def halved (p : Plane) : Plane :=
  planeOf (p.width / 2) (p.height / 2) fun x y =>
    (p.at (2 * x) (2 * y) + p.at (2 * x + 1) (2 * y) + p.at (2 * x) (2 * y + 1) + p.at (2 * x + 1) (2 * y + 1) + 2) / 4

/-- A picture at half size. -/
def Picture.halved (p : Picture) : Picture := ⟨Machine.halved p.y, Machine.halved p.cb, Machine.halved p.cr⟩

/-! ### Motion search (R449) -/

/-- A motion vector. -/
abbrev Vec := Int × Int

/-- The sum of absolute differences of the n × n block at (x, y) against the reference displaced by `v`. -/
def sad (cur ref : Plane) (n x y : Nat) (v : Vec) : Nat :=
  ((List.range n).map fun j => ((List.range n).map fun i =>
    ((cur.near ((x + i : Nat) : Int) ((y + j : Nat) : Int) : Int) -
      (ref.near (((x + i : Nat) : Int) + v.1) (((y + j : Nat) : Int) + v.2) : Int)).natAbs).sum).sum

/-- A candidate clamped so that its block lies no more than 16 samples outside the picture. -/
def clampCand (ref : Plane) (n x y : Nat) (v : Vec) : Vec :=
  (clampI (-16 - (x : Int)) ((ref.width : Int) + 16 - (n : Int) - (x : Int)) v.1,
   clampI (-16 - (y : Int)) ((ref.height : Int) + 16 - (n : Int) - (y : Int)) v.2)

/-- Whether `a` with its SAD is taken before `b`: smaller SAD, then smaller |x| + |y|, then smaller y. -/
def better (a b : Nat × Vec) : Bool :=
  let la := a.2.1.natAbs + a.2.2.natAbs
  let lb := b.2.1.natAbs + b.2.2.natAbs
  if a.1 ≠ b.1 then decide (a.1 < b.1)
  else if la ≠ lb then decide (la < lb)
  else if a.2.2 ≠ b.2.2 then decide (a.2.2 < b.2.2)
  else Config.vectorTie a.2.1 b.2.1

/-- The best of some vectors, with its SAD. -/
def bestOf (cur ref : Plane) (n x y : Nat) (vs : List Vec) : Nat × Vec :=
  let cost := fun (v : Vec) => (sad cur ref n x y v, v)
  match vs with
  | [] => cost (0, 0)
  | v :: t => t.foldl (fun b w => if better (cost w) b then cost w else b) (cost v)

/-- The vectors within `rx`, `ry` of one. -/
def around (v : Vec) (rx ry : Nat) : List Vec :=
  (List.range (2 * ry + 1)).flatMap fun (j : Nat) => (List.range (2 * rx + 1)).map fun (i : Nat) =>
    (v.1 - (rx : Int) + (i : Int), v.2 - (ry : Int) + (j : Int))

/-- The level-3 vectors, one to each 8 × 8 block in raster order: a full search about zero, and one position about the
vector of the picture before. -/
def searchTop (cur ref : Plane) (prev : List Vec) : List Vec :=
  let nx := (cur.width + 7) / 8
  (List.range ((cur.height + 7) / 8 * nx)).map fun b =>
    let x := b % nx * 8
    let y := b / nx * 8
    let p := prev.getD b (0, 0)
    let c := clampCand ref 8 x y (clampI (-24) 24 p.1, clampI (-12) 12 p.2)
    (bestOf cur ref 8 x y (around (0, 0) 16 12 ++ around c 1 1)).2

/-- What the search found for a block: its vector and SAD, its four sub-vectors and their SADs. -/
structure Motion where
  v : Vec
  cost : Nat
  subs : List (Nat × Vec)
  deriving DecidableEq, Repr

/-- The candidates of block (bx, by) at a level below 3: twice the vectors of its parent and of the parent's horizontal
and vertical neighbours nearest the block. `n` is the parents' size, `nx` × `ny` how many there are. -/
def candidates (up : List Vec) (n nx ny bx by_ : Nat) : List Vec :=
  let px := 8 * bx / n
  let py := 8 * by_ / n
  let side := fun (p b count : Nat) => if b % 2 = 0 then (if p = 0 then none else some (p - 1)) else if p + 1 < count then some (p + 1) else none
  let twice := fun (i j : Nat) => let v := up.getD (j * nx + i) (0, 0); (2 * v.1, 2 * v.2)
  [twice px py] ++ ((side px bx nx).map fun i => twice i py).toList ++ ((side py by_ ny).map fun j => twice px j).toList

/-- The search of a level below 3, one result to each 16 × 16 block in raster order. -/
def searchLevel (cur ref : Plane) (up : List Vec) (n nx ny : Nat) : List Motion :=
  let bw := (cur.width + 15) / 16
  (List.range ((cur.height + 15) / 16 * bw)).map fun b =>
    let x := b % bw * 16
    let y := b / bw * 16
    let cands := (candidates up n nx ny (b % bw) (b / bw)).map (clampCand ref 16 x y)
    let best := bestOf cur ref 16 x y (around (bestOf cur ref 16 x y cands).2 2 2)
    let subs := [0, 1, 2, 3].map fun i => bestOf cur ref 8 (x + 8 * (i % 2)) (y + 8 * (i / 2)) (around best.2 2 2)
    ⟨best.2, best.1, subs⟩

/-! ### Records (R451, R467) -/

/-- The offset of the first valid ROI entry that holds level-0 block (bx, by). -/
def roiOffset (roi : List Word) (bx by_ : Nat) : Int :=
  let hit := (List.range 16).find? fun e =>
    wfld roi (2 * e + 1) 31 31 == 1 && decide (wfld roi (2 * e) 7 0 ≤ bx) && decide (bx < wfld roi (2 * e) 23 16) &&
      decide (wfld roi (2 * e) 15 8 ≤ by_) && decide (by_ < wfld roi (2 * e) 31 24)
  match hit with
  | some e => clampI (-12) 12 (toSigned 5 (wfld roi (2 * e + 1) 4 0))
  | none => 0

/-- A record as its four words. -/
def recordWords (v : Vec) (mode : Nat) (split : Bool) (dir : Nat) (roi : Int) (act inter intra : Nat) (subs : List Vec) :
    List Word :=
  let deltas := (subs.zipIdx.map fun s =>
    (ofSigned 4 (s.1.1 - v.1) + 16 * ofSigned 4 (s.1.2 - v.2)) * 2 ^ (8 * s.2)).sum
  [BitVec.ofNat 32 (ofSigned 16 v.1 + 65536 * ofSigned 16 v.2),
   BitVec.ofNat 32 (mode + 4 * bitOf split + 8 * dir + 256 * ofSigned 5 roi + 65536 * min 65535 act),
   BitVec.ofNat 32 deltas, BitVec.ofNat 32 (min 65535 inter + 65536 * min 65535 intra)]

/-- The luma of the block at (x, y), and the samples left of it and above it that lie in the picture. -/
def blockLuma (p : Plane) (x y : Nat) : List Nat :=
  (List.range 16).flatMap fun j => (List.range 16).map fun i => p.near ((x + i : Nat) : Int) ((y + j : Nat) : Int)
def leftOf (p : Plane) (x y : Nat) : List Nat :=
  if x = 0 then [] else (List.range 16).map fun j => p.near ((x : Int) - 1) ((y + j : Nat) : Int)
def aboveOf (p : Plane) (x y : Nat) : List Nat :=
  if y = 0 then [] else (List.range 16).map fun i => p.near ((x + i : Nat) : Int) ((y : Int) - 1)

/-- The records of a level: `ms` is what the search found, none for picture 0. -/
def levelRecords (cur : Plane) (k : Nat) (roi : List Word) (ms : Option (List Motion)) : List Word :=
  let bw := (cur.width + 15) / 16
  let vecAt := fun (l : List Motion) (bx by_ : Int) =>
    if bx < 0 ∨ by_ < 0 ∨ (bw : Int) ≤ bx then ((0, 0) : Vec) else ((l[(by_ * bw + bx).toNat]?).map (·.v)).getD (0, 0)
  (List.range ((cur.height + 15) / 16 * bw)).flatMap fun b =>
    let bx := b % bw
    let by_ := b / bw
    let luma := blockLuma cur (16 * bx) (16 * by_)
    let mean := luma.sum / 256
    let act := (luma.map fun (s : Nat) => ((s : Int) - (mean : Int)).natAbs).sum / 16
    let (intra, dir) := Config.intraPredict luma (leftOf cur (16 * bx) (16 * by_)) (aboveOf cur (16 * bx) (16 * by_))
    let intra := intra + 128
    let r := roiOffset roi (2 ^ k * bx) (2 ^ k * by_)
    match ms with
    | none => recordWords (0, 0) 1 false (dir % 4) r act 65535 intra []
    | some l =>
      let m := l.getD b ⟨(0, 0), 0, []⟩
      let four := (m.subs.map (·.1)).sum
      let split := decide (four + 64 < m.cost)
      let inter := if split then four else m.cost
      let at_ := fun (x y : Int) => vecAt l ((bx : Int) + x) ((by_ : Int) + y)
      let med : Vec := (median3 (at_ (-1) 0).1 (at_ 0 (-1)).1 (at_ 1 (-1)).1, median3 (at_ (-1) 0).2 (at_ 0 (-1)).2 (at_ 1 (-1)).2)
      let mode := if m.v = med ∧ inter ≤ 512 then 2 else if intra < inter then 1 else 0
      recordWords m.v mode split (dir % 4) r act inter intra (m.subs.map (·.2))

/-- A level's records where no view picture was read: every record SKIP with zero vectors (R453). -/
def skipRecords (w h k : Nat) : List Word :=
  (List.range (blocksX w k * blocksY h k)).flatMap fun _ => recordWords (0, 0) 2 false 0 0 0 0 0 []

/-! ### Contexts in Hold -/

/-- Where a Survey context lies, and the device with one replaced. -/
def Dev.svyAddr (d : Dev) (s : Nat) : Nat := d.get Reg.encCtl_SVY_CTX_BASE * 65536 + 256 * s
def Dev.setSvy (d : Dev) (s : Nat) (x : SvyCtx) : Dev :=
  ({ d with enc := { d.enc with svys := assocSet s x d.enc.svys } } : Dev).holdStore (d.svyAddr s) (bytesOfWords x.params) encPage

/-- A pending change of a context took effect (R469): a staged one reports it. -/
def Dev.modApplied (d : Dev) (m : PendMod) (ops : List Nat) (ctx : Nat) : Dev :=
  if !m.staged then d
  else
    let last := ops.contains (d.get Reg.encCtl_CMD_OP) && d.get Reg.encCtl_CMD_CTX == ctx && d.get Reg.encCtl_CMD_APPLY == 1
    (if last then d.set Reg.encCtl_CMD_APPLY 2 else d).raise encPage 4

/-! ### Instances -/

/-- The status and picture that the predecessor named first ended with. -/
def Inst.pred (i : Inst) : Option (Nat × Nat) := i.preds.head?.map (·.2)

/-- Whether the view picture of a Survey instance is missing (R453). -/
def Inst.noView (i : Inst) : Bool := i.pred.any fun p => decide (0x10 ≤ p.1)

/-- An SVY instance starts: its picture, its T_v, the ROI block, a change that is due. -/
def Dev.svyStart (d : Dev) (u : UnitId) (s : Slot) (i : Inst) : Dev :=
  let c := Desc.ctx s.desc
  let ix := [u.idx / 2, u.idx % 2]
  let d := (d.set Reg.svy_BUSY 1 ix).set Reg.svy_CTX c ix
  match d.svy? c with
  | none => d
  | some x =>
    let (d, tv) : Dev × Nat := match i.taken.getLast?, i.pred with
      | some it, _ => (d, it.meta7)
      | none, some p => (d, p.2)
      | none, none => d.draw
    let (d, x) : Dev × SvyCtx := match x.pend with
      | some m => if m.tide ≤ tv then (d.modApplied m [2] c, { x with params := x.params.set 6 (wordAt m.words 6), pend := none }) else (d, x)
      | none => (d, x)
    let (d, roi) : Dev × Option (List Word) :=
      if x.roiAddr = 0 then (d, some [])
      else
        match d.holdWords x.roiAddr 32 u.page with
        | (d, .ok w) => (d, some w)
        | (d, .error _) => (d, none)
    d.setSvy c { x with next := x.next + 1, roi := roi, pics := ((x.next, tv) :: x.pics).take 16 }

/-- Counters of a Survey's page for an instance that ended. -/
def Dev.svyCount (d : Dev) (u : UnitId) (st : Status) (cycles : Nat) : Dev :=
  let ix := [u.idx / 2, u.idx % 2]
  let d := (d.set Reg.svy_BUSY 0 ix).set Reg.svy_LAST_CYCLES cycles ix
  let d := if st.code < 0x10 then d.bump Reg.svy_PICTURES ix else d
  match st with
  | .doneStale => d.countRaise u.page 1 Reg.svy_STALE ix
  | .failedMemoryUe => d.bump Reg.svy_MEM_UE ix
  | _ => d

/-- A luma plane read from Hold. -/
def Dev.readPlane (d : Dev) (a w h : Nat) (ten : Bool) (who : Page) : Dev × Option Plane :=
  match d.holdRead a (pictureStride w ten * h) who with
  | (d, .ok b) => (d, some (planeOf w h fun x y => sampleIn b ten (pictureStride w ten * y) x))
  | (d, .error _) => (d, none)

/-- The four luma levels of a slot of the reference store. -/
def Dev.readSlot (d : Dev) (x : SvyCtx) (layer : Nat) (who : Page) : Dev × Option (List Plane) :=
  let a := x.store + layer * slotBytes x.width x.height x.hp10
  [0, 1, 2, 3].foldl (fun (acc : Dev × Option (List Plane)) k =>
    match acc with
    | (d, none) => (d, none)
    | (d, some l) =>
      match d.readPlane (a + slotOffset x.width x.height x.hp10 k) (x.width / 2 ^ k) (x.height / 2 ^ k) x.hp10 who with
      | (d, some p) => (d, some (l ++ [p]))
      | (d, none) => (d, none)) (d, some [])

/-- The search of every level against a reference: level-3 vectors, and what was found at levels 0, 1 and 2. -/
def searchAll (cur ref : List Plane) (prev : List Vec) : List Vec × List (List Motion) :=
  let c := fun k => cur.getD k []
  let r := fun k => ref.getD k []
  let top := searchTop (c 3) (r 3) prev
  let nb := fun (p : Plane) (n : Nat) => ((p.width + n - 1) / n, (p.height + n - 1) / n)
  let m2 := searchLevel (c 2) (r 2) top 8 (nb (c 3) 8).1 (nb (c 3) 8).2
  let m1 := searchLevel (c 1) (r 1) (m2.map (·.v)) 16 (nb (c 2) 16).1 (nb (c 2) 16).2
  let m0 := searchLevel (c 0) (r 0) (m1.map (·.v)) 16 (nb (c 1) 16).1 (nb (c 1) 16).2
  (top, [m0, m1, m2])

/-- The bytes of a ring set: records of levels 0–2, pictures of levels 1 and 2, luma of level 3. -/
def setImage (x : SvyCtx) (recs : List (List Word)) (p1 p2 : Picture) (l3 : Plane) : Bytes :=
  let part := fun (b : Bytes) => padTo (up256 b.length) b
  (recs.flatMap fun r => part (bytesOfWords r)) ++ part (p1.bytes x.hp10) ++ part (p2.bytes x.hp10) ++
    planeBytes x.hp10 (pictureStride (x.width / 8) x.hp10) l3

/-- The bytes of a slot of the reference store. -/
def slotImage (x : SvyCtx) (levels : List Plane) : Bytes :=
  levels.zipIdx.flatMap fun l => planeBytes x.hp10 (pictureStride (x.width / 2 ^ l.2) x.hp10) l.1

/-- A Survey instance that read its view picture: the device and whether Hold failed it. -/
def Dev.svyPicture (d : Dev) (u : UnitId) (c p : Nat) (x : SvyCtx) (view : Picture) : Dev × Bool :=
  let p1 := view.halved
  let p2 := p1.halved
  let cur := [view.y, p1.y, p2.y, halved p2.y]
  let roi := x.roi.getD []
  let (d, found) : Dev × Option (Option (List Vec × List (List Motion))) :=
    if p = 0 then (d, some none)
    else
      match d.readSlot x (referenceLayer x.temporal p) u.page with
      | (d, some ref) => (d, some (some (searchAll cur ref x.vecs)))
      | (d, none) => (d, none)
  match found with
  | none => (d, true)
  | some f =>
    let recs := [0, 1, 2].map fun k => levelRecords (cur.getD k []) k roi (f.map fun m => m.2.getD k [])
    let (d, e1) := d.holdWrite (x.setAddr p) (setImage x recs p1 p2 (halved p2.y)) u.page
    let layer := temporalLayer x.temporal p
    let (d, e2) : Dev × Option HoldErr :=
      if layer ≤ 1 then d.holdWrite (x.store + layer * slotBytes x.width x.height x.hp10) (slotImage x cur) u.page
      else (d, none)
    let d := d.setSvy c { x with vecs := (f.map (·.1)).getD [] }
    (d, e1.isSome || e2.isSome)

/-- The end of an SVY instance: the device, the status, the number of its picture. -/
def Dev.svyEnd (d : Dev) (u : UnitId) (s : Slot) (i : Inst) (r : SvyReport) : Dev × Status × Nat :=
  let c := Desc.ctx s.desc
  match d.svy? c with
  | none => (d.svyCount u .failedMemoryUe r.cycles, .failedMemoryUe, 0)
  | some x =>
    let p := x.next - 1
    let failed := fun (d : Dev) => (d.svyCount u .failedMemoryUe r.cycles, Status.failedMemoryUe, p)
    if i.noView then
      let recs := [0, 1, 2].flatMap fun k =>
        let b := bytesOfWords (skipRecords x.width x.height k)
        padTo (up256 b.length) b
      match d.holdWrite (x.setAddr p) recs u.page with
      | (d, none) => (d.svyCount u .doneStale r.cycles, .doneStale, p)
      | (d, some _) => failed d
    else if x.roi.isNone then failed d
    else
      let a := match i.taken.getLast? with
        | some it => it.addr
        | none => Desc.inAddr s.desc
      match d.holdRead a (pictureBytes x.width x.height x.hp10) u.page with
      | (d, .error _) => failed d
      | (d, .ok b) =>
        match (d.setSvy c { x with views := ((p, a) :: x.views).take 16 }).svyPicture u c p
            { x with views := ((p, a) :: x.views).take 16 } (pictureIn b x.width x.height x.hp10) with
        | (d, true) => failed d
        | (d, false) => (d.svyCount u .done r.cycles, .done, p)

end Sys2Proof.Machine
end

