-- ==== Sys2Proof/Machine/Coding.lean ====
section
/-!
DEFINITION. How a Lighter codes a picture (R456, R457, R462–R466): refinement of motion, the choice of each block's mode, the
QP of rows and blocks, rows committed under the hard cap, and the reconstruction. What a codec's standard computes is left to
constants of Config without a body.
-/

namespace Sys2Proof.Machine

/-! ### Blocks (R456) -/

/-- The n × n samples of a plane in block (bx, by); edges repeat. -/
def square (p : Plane) (n bx by_ : Nat) : List Nat :=
  (List.range n).flatMap fun j => (List.range n).map fun i => p.near ((n * bx + i : Nat) : Int) ((n * by_ + j : Nat) : Int)

/-- The samples of block (bx, by) of a picture: luma, Cb, Cr. -/
def Picture.block (p : Picture) (bx by_ : Nat) : List Nat := square p.y 16 bx by_ ++ square p.cb 8 bx by_ ++ square p.cr 8 bx by_

/-- A reference sample at a place displaced by a vector in quarter luma samples. -/
def subAt (codec : Nat) (luma : Bool) (p : Plane) (x y : Nat) (v : Vec) : Nat :=
  let k : Int := if luma then 4 else 8
  let px := (x : Int) + v.1 / k
  let py := (y : Int) + v.2 / k
  if v.1 % k = 0 ∧ v.2 % k = 0 then p.near px py
  else Config.codecSample codec luma (v.1 % k).toNat (v.2 % k).toNat
    ((List.range 8).flatMap fun (j : Nat) => (List.range 8).map fun (i : Nat) => p.near (px + (i : Int) - 3) (py + (j : Int) - 3))

/-- The vector of a luma place in a block: that of its partition. -/
def vecOf (vs : List Vec) (i j : Nat) : Vec :=
  match vs with
  | [v] => v
  | _ => vs.getD (2 * (j / 8) + i / 8) (0, 0)

/-- The inter prediction of block (bx, by) with one vector or four. -/
def interPred (codec : Nat) (ref : Picture) (vs : List Vec) (bx by_ : Nat) : List Nat :=
  let part := fun (p : Plane) (luma : Bool) (n : Nat) =>
    (List.range n).flatMap fun j => (List.range n).map fun i =>
      subAt codec luma p (n * bx + i) (n * by_ + j) (vecOf vs (i * (16 / n)) (j * (16 / n)))
  part ref.y true 16 ++ part ref.cb false 8 ++ part ref.cr false 8

/-- The sum of absolute differences of the n × n luma block at (x, y) against a reference displaced by quarter samples. -/
def sadSub (codec : Nat) (cur ref : Plane) (n x y : Nat) (v : Vec) : Nat :=
  ((List.range n).map fun j => ((List.range n).map fun i =>
    ((cur.near ((x + i : Nat) : Int) ((y + j : Nat) : Int) : Int) - (subAt codec true ref (x + i) (y + j) v : Int)).natAbs).sum).sum

/-- A vector and the eight about it, `step` quarter samples apart. -/
def ring9 (v : Vec) (step : Int) : List Vec := v :: (around (0, 0) 1 1).map fun o => (v.1 + step * o.1, v.2 + step * o.2)

/-- Motion refined in three steps: integer, half and quarter samples about the record's vector. -/
def refine (codec : Nat) (cur ref : Plane) (n x y : Nat) (v : Vec) : Vec :=
  let best := fun (v : Vec) (step : Int) =>
    ((ring9 v step).foldl (fun (b : Nat × Vec) w =>
      let c := (sadSub codec cur ref n x y w, w)
      if better c b then c else b) (sadSub codec cur ref n x y v, v)).2
  best (best (best (4 * v.1, 4 * v.2) 4) 2) 1

/-- The vector of a record, and those of its sub-blocks where SPLIT is set (R451). -/
def recordVecs (recs : List Word) (b : Nat) : List Vec :=
  let w := fun i => wordAt recs (4 * b + i)
  let v : Vec := (toSigned 16 ((w 0).toNat % 65536), toSigned 16 ((w 0).toNat / 65536))
  if wfld recs (4 * b + 1) 2 2 = 0 then [v]
  else (List.range 4).map fun i =>
    (v.1 + toSigned 4 ((w 2).toNat / 2 ^ (8 * i) % 16), v.2 + toSigned 4 ((w 2).toNat / 2 ^ (8 * i + 4) % 16))

/-- How a block is coded: skip, inter (from the tail's own reference 0 or the level below 1), intra, or flat DC intra. -/
inductive BlockMode where
  | skip (v : Vec)
  | inter (ref : Nat) (vs : List Vec)
  | intra (dir : Nat)
  | flat
  deriving DecidableEq, Repr

/-- The choices of a block as numbers. -/
def BlockMode.ints (m : BlockMode) (qp : Nat) : List Int :=
  match m with
  | .skip v => [0, (qp : Int), v.1, v.2]
  | .inter r vs => (1 : Int) :: (qp : Int) :: (r : Int) :: vs.flatMap fun v => [v.1, v.2]
  | .intra dir => [2, (qp : Int), (dir : Int)]
  | .flat => [3, (qp : Int)]

/-- A coded block: its choices, bits and reconstruction. -/
structure CodedBlock where
  choice : List Int
  bits : Nat
  recon : List Nat
  deriving DecidableEq, Repr

/-- What a picture is coded from: the codec, the picture's size in blocks, its source, its reference and the level below, the
records, whether it is a key picture or all skip, the QP limits, the units of a step, ROW_QP_RANGE. -/
structure CodeJob where
  codec : Nat
  bw : Nat
  bh : Nat
  source : Picture
  ref : Option Picture
  lower : Option Picture
  recs : List Word
  key : Bool
  stale : Bool
  qp : Nat
  qpMin : Nat
  qpMax : Nat
  step : Nat
  range : Nat
  cap : Nat
  budget : Int
  deriving DecidableEq, Repr

/-- The reconstructed blocks left, above left, above and above right of block `b`; empty where there is none. -/
def CodeJob.edges (j : CodeJob) (done : List CodedBlock) (b : Nat) : List (List Nat) :=
  let at_ := fun (ok : Bool) (i : Nat) => if ok then ((done[i]?).map (·.recon)).getD [] else []
  let bx := b % j.bw
  let up := decide (j.bw ≤ b)
  [at_ (decide (0 < bx)) (b - 1), at_ (decide (0 < bx) && up) (b - j.bw - 1), at_ up (b - j.bw),
    at_ (up && decide (bx + 1 < j.bw)) (b + 1 - j.bw)]

/-- The prediction of a mode. -/
def CodeJob.pred (j : CodeJob) (done : List CodedBlock) (b : Nat) : BlockMode → List Nat
  | .skip v => (j.ref.map fun r => interPred j.codec r [v] (b % j.bw) (b / j.bw)).getD []
  | .inter 0 vs => (j.ref.map fun r => interPred j.codec r vs (b % j.bw) (b / j.bw)).getD []
  | .inter _ vs => (j.lower.map fun r => interPred j.codec r vs (b % j.bw) (b / j.bw)).getD []
  | .intra dir => Config.codecIntra j.codec dir (j.edges done b)
  | .flat => Config.codecIntra j.codec 0 (j.edges done b)

/-- Block `b` coded in a mode with a QP: skip and flat blocks have no residual. -/
def CodeJob.coded (j : CodeJob) (done : List CodedBlock) (b qp : Nat) (m : BlockMode) : CodedBlock :=
  let src := j.source.block (b % j.bw) (b / j.bw)
  let pred := j.pred done b m
  let choice := m.ints qp
  { choice := choice, bits := Config.codecBits j.codec (done.map (·.choice)) choice src pred
    recon := match m with
      | .skip _ | .flat => pred
      | _ => Config.codecRecon j.codec qp src pred }

/-- The skip mode of block `b`. -/
def CodeJob.skip (j : CodeJob) (done : List CodedBlock) (b : Nat) : BlockMode :=
  .skip (Config.codecSkip j.codec (done.map (·.choice)) (b % j.bw) (b / j.bw))

/-- The refined vectors of block `b` against a reference: of its one partition, or of its four. -/
def CodeJob.refined (j : CodeJob) (ref : Picture) (b : Nat) (vs : List Vec) : List Vec :=
  let x := 16 * (b % j.bw)
  let y := 16 * (b / j.bw)
  match vs with
  | [v] => [refine j.codec j.source.y ref.y 16 x y v]
  | _ => vs.zipIdx.map fun v => refine j.codec j.source.y ref.y 8 (x + 8 * (v.2 % 2)) (y + 8 * (v.2 / 2)) v.1

/-- The modes a block chooses from (R456, R457): intra alone in a key picture, but for the level below in a chain. -/
def CodeJob.modes (j : CodeJob) (done : List CodedBlock) (b : Nat) : List BlockMode :=
  let own := match j.key, j.ref with
    | false, some r => [j.skip done b, .inter 0 (j.refined r b (recordVecs j.recs b))]
    | _, _ => []
  let below := match j.lower with
    | some r => [BlockMode.inter 1 (j.refined r b [(0, 0)])]
    | none => []
  own ++ below ++ ([0, 1, 2, 3, wfld j.recs (4 * b + 1) 5 3 % 4].map BlockMode.intra)

/-- Block `b` in the mode of lowest distortion + λ(QP) × bits. -/
def CodeJob.block (j : CodeJob) (done : List CodedBlock) (b qp : Nat) : CodedBlock :=
  let cost := fun (c : CodedBlock) =>
    65536 * Config.distortion (j.source.block (b % j.bw) (b / j.bw)) c.recon + Config.codecLambda j.codec qp * c.bits
  if j.stale then j.coded done b qp (j.skip done b)
  else
    (j.modes done b).foldl (fun (best : CodedBlock) m =>
      let c := j.coded done b qp m
      if cost c < cost best then c else best) (j.coded done b qp ((j.modes done b).headD .flat))

/-! ### Rate control (R462–R464) -/

/-- The weight of a layer, in halves (R462). -/
def layerWeight (temporal layer : Nat) : Nat :=
  match temporal, layer with
  | 1, _ => 2
  | 2, 0 => 3
  | 2, _ => 1
  | _, 0 => 4
  | _, 1 => 2
  | _, _ => 1

/-- The average bits of a picture. -/
def avgBits (kbps rate : Nat) : Nat := kbps * 1000000 / rate

/-- The budget of a picture (R462). -/
def budgetOf (avg weight keyWeight cap : Nat) (key : Bool) (full : Int) (carry : Nat) : Int :=
  let b : Int := ((avg * weight / 2 : Nat) : Int)
  let b := if key then b * keyWeight / 16 else b
  min (cap : Int) (max (b - full / 8 - (carry : Int)) ((avg / 4 : Nat) : Int))

/-- The complexity of a picture's first blocks from the records of its level (R463). -/
def complexity (recs : List Word) (key : Bool) (blocks : Nat) : Nat :=
  ((List.range blocks).map fun b =>
    let inter := wfld recs (4 * b + 3) 15 0
    let intra := wfld recs (4 * b + 3) 31 16
    if key then intra else min inter intra).sum

/-- ⌊8 × (used − P(r)) / budget⌋ with P(r) = budget × X(0…r−1) / X (R464); a value of its own where X or the budget is 0. -/
def spendError (used before x : Nat) (budget : Int) : Int :=
  if x = 0 ∨ budget ≤ 0 then Config.planError used before x budget
  else 8 * ((used : Int) * (x : Int) - budget * (before : Int)) / (budget * (x : Int))

/-- A QP moved by steps, within the limits. -/
def CodeJob.moved (j : CodeJob) (qp : Nat) (steps : Int) : Nat :=
  (clampI (j.qpMin : Int) (j.qpMax : Int) ((qp : Int) + steps * (j.step : Int))).toNat

/-- The row QP (R464). -/
def CodeJob.rowQp (j : CodeJob) (used r : Nat) : Nat :=
  let e := spendError used (complexity j.recs j.key (j.bw * r)) (complexity j.recs j.key (j.bw * j.bh)) j.budget
  j.moved j.qp (clampI (-(j.range : Int)) (j.range : Int) e)

/-- The QP of block `b` in a row with a row QP: moved by its record's ROI offset. -/
def CodeJob.blockQp (j : CodeJob) (rowQp b : Nat) : Nat := j.moved rowQp (toSigned 5 (wfld j.recs (4 * b + 1) 12 8))

/-! ### Rows under the cap (R465) -/

/-- How far coding went down in a picture (R465): normal, forced, minimal. -/
inductive CodeState where
  | normal | forced | minimal
  deriving DecidableEq, Repr

/-- A picture being coded: the bits used, the state, the blocks coded, the bits of the rows committed. -/
structure Coding where
  used : Nat
  state : CodeState := .normal
  done : List CodedBlock := []
  rows : List Nat := []
  deriving DecidableEq, Repr

/-- The most bits of a minimal row, of a picture's end, and of what comes before its first row. -/
def minimalRow (bw : Nat) : Nat := 32 + 4 * bw
def endBits : Nat := 256
def headBits : Nat := 1024

/-- Row `r` coded from the blocks before it: `qp` gives each block's QP. -/
def CodeJob.row (j : CodeJob) (done : List CodedBlock) (r : Nat) (qp : Nat → Nat) : List CodedBlock × Nat :=
  (List.range j.bw).foldl (fun (acc : List CodedBlock × Nat) i =>
    let b := r * j.bw + i
    let c := j.block acc.1 b (qp b)
    (acc.1 ++ [c], acc.2 + c.bits)) (done, 0)

/-- Row `r` coded minimally: all skip in an inter picture, flat DC intra in a key picture. -/
def CodeJob.minimal (j : CodeJob) (done : List CodedBlock) (r : Nat) : List CodedBlock × Nat :=
  let x := (List.range j.bw).foldl (fun (acc : List CodedBlock × Nat) i =>
    let b := r * j.bw + i
    let c := j.coded acc.1 b j.qpMax (if j.key then .flat else j.skip acc.1 b)
    (acc.1 ++ [c], acc.2 + c.bits)) (done, 0)
  (x.1, min (minimalRow j.bw) x.2)

/-- Row `r` committed. -/
def Coding.commit (c : Coding) (row : List CodedBlock × Nat) : Coding :=
  { c with used := c.used + row.2, done := row.1, rows := c.rows ++ [row.2] }

/-- What the rows after row `r` and the picture's end may still take. -/
def CodeJob.reserve (j : CodeJob) (r : Nat) : Nat := (j.bh - 1 - r) * minimalRow j.bw + endBits

/-- One row of a picture. -/
def CodeJob.codeRow (j : CodeJob) (c : Coding) (r : Nat) : Coding :=
  let c := if c.state = .normal ∧ j.budget ≤ (c.used : Int) ∧ r + 1 < j.bh then { c with state := .forced } else c
  let row := match c.state with
    | .normal => j.row c.done r (j.blockQp (j.rowQp c.used r))
    | _ => j.row c.done r fun _ => j.qpMax
  if c.state ≠ .minimal ∧ c.used + row.2 + j.reserve r ≤ j.cap then c.commit row
  else ({ c with state := .minimal } : Coding).commit (j.minimal c.done r)

/-- A picture coded, `head` bits before its first row; and the bits of its end. -/
def CodeJob.picture (j : CodeJob) (head : Nat) : Coding := (List.range j.bh).foldl j.codeRow { used := min headBits head }
def CodeJob.endOf (j : CodeJob) (c : Coding) : Nat := min endBits (Config.codecTail j.codec (c.done.map (·.choice)))

/-! ### The reconstruction -/

/-- The planes of a reconstruction from its blocks, and with the codec's in-loop filters applied. -/
def CodeJob.reconstruction (j : CodeJob) (c : Coding) : Picture :=
  let at_ := fun (n o x y : Nat) =>
    ((c.done[y / n * j.bw + x / n]?).map fun b => b.recon.getD (o + y % n * n + x % n) 0).getD 0
  let raw : List Plane := [planeOf j.source.y.width j.source.y.height (at_ 16 0),
    planeOf j.source.cb.width j.source.cb.height (at_ 8 256), planeOf j.source.cr.width j.source.cr.height (at_ 8 320)]
  let f := Config.codecFilter j.codec (c.done.map (·.choice)) raw
  ⟨f.getD 0 [], f.getD 1 [], f.getD 2 []⟩

end Sys2Proof.Machine
end

