-- ==== Sys2Proof/Machine/Payload.lean ====
section
/-!
DEFINITION. The packetiser of a Lighter (R457, R458): the units of a coded picture cut into RTP payloads, and the header-extension
elements of their packets. Payload formats are those of RFC 6184, RFC 7798, RFC 7741 and the AV1 RTP payload format.
-/

namespace Sys2Proof.Machine

/-- A list cut into cutUp of at most `n`. -/
def chunks {α : Type} (n : Nat) : Nat → List α → List (List α)
  | 0, _ => []
  | k + 1, l => if l.length ≤ n then [l] else l.take n :: chunks n k (l.drop n)

/-- A list in cutUp, each with whether it is the first and whether the last. -/
def cutUp {α : Type} (n : Nat) (l : List α) : List (List α × Bool × Bool) :=
  let c := chunks (max 1 n) (l.length + 1) l
  c.zipIdx.map fun x => (x.1, x.2 == 0, x.2 + 1 == c.length)

/-- NAL units with their lengths, as in an aggregation packet. -/
def aggregated (units : List Bytes) : Bytes := units.flatMap fun u => beBytes 2 u.length ++ u

/-- An H.264 NAL unit of a type as payloads (RFC 6184): alone, or in FU-A packets. -/
def h264Payloads (most refIdc type : Nat) (body : Bytes) : List Bytes :=
  if body.length + 1 ≤ most then [BitVec.ofNat 8 (32 * refIdc + type) :: body]
  else (cutUp (most - 2) body).map fun p =>
    [BitVec.ofNat 8 (32 * refIdc + 28), BitVec.ofNat 8 (bitOf p.2.1 * 128 + bitOf p.2.2 * 64 + type)] ++ p.1

/-- An H.265 NAL unit as payloads (RFC 7798): alone, or in fragmentation units. -/
def h265Payloads (most type tid : Nat) (body : Bytes) : List Bytes :=
  let head := fun (t : Nat) => [BitVec.ofNat 8 (2 * t), BitVec.ofNat 8 (tid + 1)]
  if body.length + 2 ≤ most then [head type ++ body]
  else (cutUp (most - 3) body).map fun p =>
    head 49 ++ [BitVec.ofNat 8 (bitOf p.2.1 * 128 + bitOf p.2.2 * 64 + type)] ++ p.1

/-- The payload descriptor of a VP8 packet (RFC 7741): non-reference, start, PictureID, TL0PICIDX, TID and Y. -/
def vp8Descriptor (droppable start : Bool) (pid tl0 layer : Nat) : Bytes :=
  [BitVec.ofNat 8 (128 + bitOf droppable * 32 + bitOf start * 16), 0xE0, BitVec.ofNat 8 (128 + pid / 256 % 128),
    BitVec.ofNat 8 pid, BitVec.ofNat 8 tl0, BitVec.ofNat 8 (layer % 4 * 64 + bitOf (layer != 0) * 32)]

/-- A VP8 frame as payloads; the key flag stands in its first bit. -/
def vp8Payloads (most : Nat) (key droppable : Bool) (pid tl0 layer : Nat) (body : Bytes) : List Bytes :=
  let body : Bytes := match body with
    | b :: t => BitVec.ofNat 8 (b.toNat / 2 * 2 + bitOf (!key)) :: t
    | [] => [BitVec.ofNat 8 (bitOf (!key))]
  (cutUp (most - 6) body).map fun p => vp8Descriptor droppable p.2.1 pid tl0 layer ++ p.1

/-- A number as leb128. -/
def leb128 (n : Nat) : Bytes := if n < 128 then [BitVec.ofNat 8 n] else [BitVec.ofNat 8 (128 + n % 128), BitVec.ofNat 8 (n / 128)]

/-- An OBU of a type with its extension (R457), without a size. -/
def obu (type tid sid : Nat) (body : Bytes) : Bytes :=
  [BitVec.ofNat 8 (8 * type + 4), BitVec.ofNat 8 (32 * tid + 8 * sid)] ++ body

/-- An AV1 frame as payloads: a sequence header in front of its first packet where one is given, then fragments of the frame. -/
def av1Payloads (most tid sid : Nat) (seq : Option Bytes) (body : Bytes) : List Bytes :=
  let front : Bytes := match seq with
    | some s => let o := obu 1 0 0 s; leb128 o.length ++ o
    | none => []
  let frame := obu 6 tid sid body
  let room := most - 1 - front.length
  let agg := fun (first fin : Bool) =>
    BitVec.ofNat 8 (bitOf (!first) * 128 + bitOf (!fin) * 64 + (if first && seq.isSome then 2 * 16 + 8 else 16))
  let rest := cutUp (most - 1) (frame.drop room)
  if frame.length ≤ room then [agg true true :: (front ++ frame)]
  else (agg true false :: (front ++ frame.take room)) :: rest.map fun p => agg false p.2.2 :: p.1

/-! ### Header-extension elements (R457) -/

/-- The frame-marking element of R457: start, end, key, layer, whether the layer is the top of several, TL0PICIDX. -/
def frameMarking (start fin key : Bool) (layer : Nat) (top : Bool) (tl0 : Nat) : Bytes :=
  [BitVec.ofNat 8 (bitOf start * 128 + bitOf fin * 64 + bitOf key * 32 + bitOf top * 16 + bitOf (layer != 0) * 8 + layer % 8),
    0, BitVec.ofNat 8 tl0]

/-- The Dependency Descriptor of a packet: start, end, template and frame number, and the structure where it is carried. -/
def depDescriptor (start fin : Bool) (template frame : Nat) (structure_ : Bytes) : Bytes :=
  [BitVec.ofNat 8 (bitOf start * 128 + bitOf fin * 64 + template % 64)] ++ beBytes 2 (frame % 65536) ++ structure_

/-- One element of a one-byte header-extension block. -/
def extElement (id : Nat) (b : Bytes) : Bytes :=
  if id = 0 ∨ b = [] then [] else BitVec.ofNat 8 (id * 16 + (min 16 b.length - 1)) :: b.take 16

/-- A one-byte header-extension block; nothing where it has no element. -/
def extBlockOf (els : Bytes) : Bytes :=
  if els = [] then [] else beBytes 2 0xBEDE ++ beBytes 2 ((els.length + 3) / 4) ++ padTo ((els.length + 3) / 4 * 4) els

end Sys2Proof.Machine
end

