-- ==== Sys2Proof/Machine/Lighter.lean ====
section
/-!
DEFINITION. Lighter tails (R454–R466) and the commands of the encode control page (R459, R460, R468, R469).
-/

namespace Sys2Proof.Machine

/-- A valid tail context. -/
def Dev.tail? (d : Dev) (t : Nat) : Option TailCtx := assoc? t d.enc.tails

namespace TailCtx

/-- The parameters of R454. -/
def codec (x : TailCtx) : Nat := wfld x.params 0 3 0
def profile (x : TailCtx) : Nat := wfld x.params 0 7 4
def level (x : TailCtx) : Nat := wfld x.params 0 15 8
def ten (x : TailCtx) : Bool := wfld x.params 0 16 16 == 1
def slevel (x : TailCtx) : Nat := wfld x.params 0 18 17
def tenant (x : TailCtx) : Nat := wfld x.params 1 5 0
def survey (x : TailCtx) : Nat := wfld x.params 1 25 16
def group (x : TailCtx) : Nat := wfld x.params 2 13 0
def stream (x : TailCtx) : Nat := wfld x.params 2 19 16
def chain (x : TailCtx) : Bool := wfld x.params 2 20 20 == 1
def pt (x : TailCtx) : Nat := wfld x.params 2 30 24
def chainBase (x : TailCtx) : Nat := wfld x.params 3 11 0
def spatial (x : TailCtx) : Nat := wfld x.params 3 17 16
def kbps (x : TailCtx) : Nat := wfld x.params 4 19 0
def bufMs (x : TailCtx) : Nat := wfld x.params 5 15 0
def keyWeight (x : TailCtx) : Nat := wfld x.params 5 23 16
def qpMin (x : TailCtx) : Nat := wfld x.params 6 7 0
def qpMax (x : TailCtx) : Nat := wfld x.params 6 15 8
def qpInit (x : TailCtx) : Nat := wfld x.params 6 23 16
def keyInterval (x : TailCtx) : Nat := wfld x.params 7 15 0
def keyGap (x : TailCtx) : Nat := wfld x.params 7 23 16
def ssrc (x : TailCtx) : Nat := wfld x.params 10 31 0

end TailCtx

/-- The codec's largest QP, and the units of a step (R454). -/
def qpTop (codec : Nat) : Nat := if codec ≤ 2 then 51 else if codec = 3 then 127 else 255
def qpStep (codec : Nat) : Nat := if codec ≤ 2 then 1 else if codec = 3 then 4 else 8

/-- Whether words 4–7 of a tail's block may be taken (R454, R468). -/
def tailRateOk (codec : Nat) (w : List Word) : Bool :=
  let masks : List Word := [0xFFF00000, 0xFF000000, 0xF0000000, 0xFF000000]
  ((List.range 4).all fun i => (wordAt w (4 + i) &&& masks.getD i 0) == 0) &&
  decide (wfld w 6 7 0 ≤ wfld w 6 15 8) && decide (wfld w 6 15 8 ≤ qpTop codec) && decide (wfld w 6 23 16 ≤ qpTop codec) &&
  decide (1 ≤ wfld w 7 23 16)

/-- Whether a tail's profile and bit depth suit its codec (R445, R454). -/
def tailProfileOk (codec profile ten : Nat) : Bool :=
  match codec with
  | 1 => (profile == 0 || profile == 2) && ten == 0
  | 2 => decide (profile ≤ 1) && (ten == 0 || profile == 1)
  | 3 => profile == 0 && ten == 0
  | 5 => profile == 0
  | _ => false

/-- Whether a parameter block keeps R454 for tail `t`. -/
def tailOk (t : Nat) (w : List Word) : Bool :=
  let masks : List Word := [0xFFF80000, 0xFC00FFC0, 0x80E0C000, 0xFFFCF000, 0, 0, 0, 0, 0xFF00F800, 0, 0]
  let codec := wfld w 0 3 0
  let chain := wfld w 2 20 20 == 1
  ((List.range 16).all fun i => (wordAt w i &&& masks.getD i 0xFFFFFFFF) == 0) &&
  tailProfileOk codec (wfld w 0 7 4) (wfld w 0 16 16) && (codec != 3 || wfld w 0 15 8 == 0) && decide (wfld w 0 18 17 ≤ 2) &&
  (!chain || (codec == 5 && decide (wfld w 3 17 16 ≤ 2) && (wfld w 3 17 16 == 0) == (wfld w 3 11 0 == t))) &&
  tailRateOk codec w && decide (256 ≤ wfld w 8 10 0) && decide (wfld w 8 10 0 ≤ 1400)

/-- Where a tail context lies, and the device with one replaced. -/
def Dev.tailAddr (d : Dev) (t : Nat) : Nat := d.get Reg.encCtl_LTR_CTX_BASE * 65536 + 256 * t
def Dev.setTail (d : Dev) (t : Nat) (x : TailCtx) : Dev :=
  ({ d with enc := { d.enc with tails := assocSet t x d.enc.tails } } : Dev).holdStore (d.tailAddr t) (bytesOfWords x.params) encPage

/-- The base of a tail's chain: itself where it has none. -/
def TailCtx.base (x : TailCtx) (t : Nat) : Nat := if x.chain then x.chainBase else t

/-! ### Key requests (R459, R460) -/

/-- A key request on tail `t`, for the base of its chain; one that finds a request pending is merged. -/
def Dev.keyRequest (d : Dev) (t : Nat) : Dev :=
  match d.tail? t with
  | none => d
  | some x =>
    let b := x.base t
    let d := d.bump Reg.encCtl_KEY_REQ
    match d.tail? b with
    | none => d
    | some y => if y.request then d.bump Reg.encCtl_KEY_MERGED else d.setTail b { y with request := true }

/-- The tail that makes a stream of a sender group: the base, where it is a chain. -/
def Dev.tailOf (d : Dev) (g s : Nat) : Option Nat :=
  (d.enc.tails.find? fun x => x.2.group == g && x.2.stream == s && (!x.2.chain || x.2.chainBase == x.1)).map (·.1)

/-- Streams that the Ferry asks for a key picture (R287, R459). -/
def Dev.keyStreams (d : Dev) (l : List (Nat × Nat)) : Dev :=
  l.foldl (fun (d : Dev) x => match d.tailOf x.1 x.2 with
    | some t => d.keyRequest t
    | none => d) d

/-- ENC_FB_ITEM: the encode control page takes the head item of FB_QUEUE (R460). -/
def Dev.encFbItem (d : Dev) : Dev :=
  if !d.live encPage || !d.flag Reg.encCtl_FB_EN then d
  else
    match d.take (d.get Reg.encCtl_FB_QUEUE) with
    | (d, none) => d
    | (d, some i) =>
      match feedbackKind i.data with
      | none => d.bump Reg.encCtl_FB_IGNORED
      | some _ =>
        let t := match d.rec? i.berth with
          | some x => if x.curValid then d.tailOf x.group x.cur else none
          | none => none
        match t with
        | some t => d.keyRequest t
        | none => d.countRaise encPage 2 Reg.encCtl_FB_NO_TAIL

/-! ### Commands of the encode control page (R468, R469) -/

/-- The result of a command. -/
def Dev.encResult (d : Dev) (st : Status) (apply : Nat) : Dev :=
  let d := ((d.set Reg.encCtl_CMD_VALID 1).set Reg.encCtl_CMD_STATUS st.code).set Reg.encCtl_CMD_APPLY apply
  if 0x10 ≤ st.code then d.raise encPage 0 else d

/-- Whether an operation of a KIND names a context. -/
def Dev.ctxBound (d : Dev) (kind c : Nat) : Bool := d.wfg.slots.any fun s => Desc.kind s.desc == kind && Desc.ctx s.desc == c

/-- The apply Tide of a MOD command: the current Tide where it is immediate. -/
def Dev.modTide (d : Dev) (staged : Bool) : Nat :=
  if staged then d.get64 Reg.encCtl_CMD_APPLY_TIDE_LO Reg.encCtl_CMD_APPLY_TIDE_HI else d.tide

/-- A context of 256 bytes copied to Hold: its parameters, and state of no fixed layout. -/
def Dev.encRead (d : Dev) (params : Option (List Word)) (a : Nat) : Dev :=
  let (d, b) := d.drawBytes 256
  let img := match params with
    | some p => bytesOfWords p ++ b.take 192
    | none => b
  match d.holdWrite a img encPage with
  | (d, none) => d.encResult .done 0
  | (d, some _) => d.encResult .failedMemoryUe 0

/-- The commands that read no block. -/
def Dev.encPlain (d : Dev) (op c a : Nat) : Dev :=
  match op with
  | 3 =>
    if d.ctxBound opSVY c then d.encResult .refusedParam 0
    else ({ d with enc := { d.enc with svys := assocDel c d.enc.svys } } : Dev).encResult .done 0
  | 6 =>
    if d.ctxBound opLTR c then d.encResult .refusedParam 0
    else ({ d with enc := { d.enc with tails := assocDel c d.enc.tails } } : Dev).encResult .done 0
  | 7 => if (d.tail? c).isNone then d.encResult .refusedParam 0 else (d.keyRequest c).encResult .done 0
  | 8 => d.encRead ((d.svy? c).map (·.params)) a
  | 9 => d.encRead ((d.tail? c).map (·.params)) a
  | _ => d.encResult .refusedParam 0

/-- The commands that take a block of 16 words. -/
def Dev.encBlock (d : Dev) (op c : Nat) (w : List Word) (staged : Bool) : Dev :=
  match op with
  | 1 =>
    if !svyOk w || d.ctxBound opSVY c || decide (1024 ≤ c) then d.encResult .refusedParam 0
    else
      let ten := wfld w 1 12 12 == 1
      let d := d.setSvy c { params := w }
      ((d.set Reg.encCtl_SET_BYTES (setBytes (wfld w 0 15 0) (wfld w 0 31 16) ten)).set Reg.encCtl_REF_BYTES
        (2 * slotBytes (wfld w 0 15 0) (wfld w 0 31 16) ten)).encResult .done 0
  | 2 =>
    match d.svy? c with
    | none => d.encResult .refusedParam 0
    | some x => (d.setSvy c { x with pend := some ⟨d.modTide staged, w, staged⟩ }).encResult .done (bitOf staged)
  | 4 =>
    if !tailOk c w || d.ctxBound opLTR c then d.encResult .refusedParam 0
    else (d.setTail c { params := w }).encResult .done 0
  | _ =>
    match d.tail? c with
    | none => d.encResult .refusedParam 0
    | some x =>
      if !tailRateOk x.codec w then d.encResult .refusedParam 0
      else (d.setTail c { x with pend := some ⟨d.modTide staged, w, staged⟩ }).encResult .done (bitOf staged)

/-- GO of the encode control page. -/
def Dev.encGo (d : Dev) : Dev :=
  let op := d.get Reg.encCtl_CMD_OP
  let c := d.get Reg.encCtl_CMD_CTX
  let a := 256 * d.get Reg.encCtl_CMD_ADDR
  let staged := d.flag Reg.encCtl_CMD_STAGED
  if !d.live encPage then d
  else if !d.enabled encPage || !d.flag Reg.encCtl_EN then d.encResult .refusedNoUnit 0
  else if staged && op != 2 && op != 5 then d.encResult .refusedParam 0
  else if op = 1 ∨ op = 2 ∨ op = 4 ∨ op = 5 then
    match d.holdWords a 16 encPage with
    | (d, .ok w) => d.encBlock op c w staged
    | (d, .error _) => d.encResult .refusedParam 0
  else d.encPlain op c a

/-- The register fields of a context command, written. -/
def Dev.encPosted (d : Dev) (op c addr : Nat) (staged : Bool) (tide : Nat) : Dev :=
  ((((d.set Reg.encCtl_CMD_OP op).set Reg.encCtl_CMD_CTX c).set Reg.encCtl_CMD_ADDR addr).set
    Reg.encCtl_CMD_STAGED (bitOf staged)).set64 Reg.encCtl_CMD_APPLY_TIDE_LO Reg.encCtl_CMD_APPLY_TIDE_HI tide

/-- A context command: its register fields written, then GO. -/
def Dev.encCmd (d : Dev) (op c addr : Nat) (staged : Bool) (tide : Nat) : Dev :=
  if !d.live encPage then d else (d.encPosted op c addr staged tide).encGo

/-! ### The start of an LTR instance (R459, R461, R469) -/

/-- How the Survey instance of a tail's picture ended: the predecessor of KIND SVY. -/
def Dev.svyPred (d : Dev) (s : Slot) (i : Inst) : Option (Nat × Nat) :=
  (i.preds.find? fun p => d.wfg.slots.any fun x =>
    x.owner == s.owner && Desc.opIndex x.desc == p.1 && Desc.kind x.desc == opSVY).map (·.2)

/-- Whether a base serves a key request in a picture: it is asked for one, the picture is TL0, and the gap is kept
unless a fault forces it (R459, R461). -/
def TailCtx.serves (x : TailCtx) (layer p : Nat) : Bool :=
  let since := match x.lastKey with
    | some k => p - k
    | none => p + 256
  let asked := x.first || x.request || x.forced || (x.keyInterval != 0 && decide (x.keyInterval ≤ since))
  layer == 0 && asked && (x.forced || x.lastKey.isNone || decide (x.keyGap ≤ since))

/-- An LTR instance starts: its picture, whether it is a key picture, a change that is due. -/
def Dev.ltrStart (d : Dev) (u : UnitId) (s : Slot) (i : Inst) : Dev :=
  let t := Desc.ctx s.desc
  let ix := [u.idx / 6, u.idx % 6]
  let d := (d.set Reg.ltr_BUSY 1 ix).set Reg.ltr_CTX t ix
  match d.tail? t with
  | none => d
  | some x =>
    match d.svy? x.survey with
    | none => d
    | some v =>
      let pred := d.svyPred s i
      let p := match pred with
        | some (_, k) => k
        | none => v.next - 1
      let (d, tv) : Dev × Nat := match assoc? p v.pics with
        | some n => (d, n)
        | none => d.draw
      let (d, x) : Dev × TailCtx := match x.pend with
        | some m =>
          if m.tide ≤ tv then
            (d.modApplied m [5] t, { x with params := splice x.params 4 (slice m.words 4 4), pend := none })
          else (d, x)
        | none => (d, x)
      let stale := match pred with
        | some (st, _) => st == 3 || decide (0x10 ≤ st)
        | none => false
      let layer := temporalLayer v.temporal p
      let key := !stale && (if x.base t = t then x.serves layer p else
        match d.tail? x.chainBase with
        | some b => b.lastKey == some p
        | none => false)
      let x : TailCtx := if key then { x with first := false, request := false, forced := false, lastKey := some p, halted := false }
        else { x with request := x.request || x.first, first := false }
      let x : TailCtx := if layer = 0 then { x with tl0 := (x.tl0 + 1) % 256 } else x
      d.setTail t { x with run := some ⟨p, tv, key, stale, x.halted || x.lastKey.isNone⟩ }

/-! ### Rate control (R462–R466) -/

/-- The class of a picture: 0 key, 1 TL0, 2 above. -/
def rateClass (key : Bool) (layer : Nat) : Nat := if key then 0 else if layer = 0 then 1 else 2

/-- The QP of a picture (R463): the smallest that fits the budget, within 4 steps of the last of its class unless it
is a key picture; QP_INIT for the first of a class. -/
def TailCtx.pickQp (x : TailCtx) (cls : Nat) (comp : Nat) (budget : Int) : Nat :=
  match assoc? cls x.classes with
  | none => x.qpInit
  | some k =>
    let fits := fun (q : Nat) => decide (((k.num * comp * 65536 : Nat) : Int) ≤ budget * ((k.den * Config.qstep x.codec q : Nat) : Int))
    let q := (((List.range (x.qpMax + 1)).drop x.qpMin).find? fits).getD x.qpMax
    let near := 4 * qpStep x.codec
    let q := if cls = 0 then q else clampN (k.qp - near) (k.qp + near) q
    clampN x.qpMin x.qpMax q

/-- The rate state of a tail after a picture (R463, R466). -/
def Dev.rateUpdate (d : Dev) (x : TailCtx) (cls comp qp used : Nat) (budget : Int) (avg : Nat) : Dev × TailCtx :=
  let buf : Int := ((x.kbps * x.bufMs : Nat) : Int)
  let k := (assoc? cls x.classes).getD ⟨qp, Config.rateInit, 65536⟩
  let qs := Config.qstep x.codec qp
  let (d, num, den) : Dev × Nat × Nat :=
    if comp = 0 then let (d, n) := d.draw; (d, n, 65536)
    else (d, 3 * k.num * 65536 * comp + used * qs * k.den, 4 * k.den * 65536 * comp)
  (d, { x with
    classes := assocSet cls ⟨qp, num, den⟩ x.classes
    carry := ((used : Int) - budget).toNat
    full := clampI (-buf) buf (x.full + (used : Int) - (avg : Int)) })

/-! ### Packets (R457, R458) -/

/-- The CODEC code of the Ferry for a tail (R280). -/
def ferryCodec (codec : Nat) : Nat :=
  match codec with
  | 1 => 4
  | 2 => 5
  | 3 => 2
  | _ => 1

/-- How many parameter sets or sequence headers go before a key picture (R458). -/
def setsOf (codec : Nat) : Nat :=
  match codec with
  | 1 => 2
  | 2 => 3
  | 3 => 0
  | _ => 1

/-- The units of a coded picture: its slices in H.264 and H.265, each as the choices in it and its bits; otherwise one unit. -/
def codeUnits (codec rowsPer bw : Nat) (c : Coding) (fin : Nat) : List (List (List Int) × Nat) :=
  let n := if codec ≤ 2 ∧ rowsPer ≠ 0 then rowsPer else atLeast1 c.rows.length
  let cuts := cutUp n c.rows
  cuts.zipIdx.map fun x =>
    (((c.done.drop (x.2 * n * bw)).take (n * bw)).map (·.choice),
      x.1.1.sum + (if x.1.2.1 then c.used - c.rows.sum else 0) + (if x.1.2.2 then fin else 0))

/-- The coded data of a unit: as many whole bytes as its bits. -/
def unitBytes (codec : Nat) (u : List (List Int) × Nat) (less : Nat) : Bytes :=
  (List.range (u.2 / 8 - less)).map (Config.codecByte codec u.1)

/-- The RTP payloads of a coded picture (R457, R458); `sets` are the parameter sets or the sequence header of a key picture. -/
def payloadsOf (x : TailCtx) (most layer : Nat) (key top : Bool) (sets : List Bytes) (units : List (List (List Int) × Nat)) :
    List Bytes :=
  let n := (sets.map List.length).sum
  let body := fun (u : (List (List Int) × Nat) × Nat) => unitBytes x.codec u.1 (if u.2 = 0 then n else 0)
  match x.codec with
  | 1 =>
    let ref := if top then 0 else Config.h264RefIdc % 3 + 1
    (if key then [BitVec.ofNat 8 (32 * ref + 24) :: aggregated sets] else []) ++
      units.zipIdx.flatMap fun u => h264Payloads most ref (if key then 5 else 1) (body u)
  | 2 =>
    (if key then [[BitVec.ofNat 8 (2 * 48), BitVec.ofNat 8 (layer + 1)] ++ aggregated sets] else []) ++
      units.zipIdx.flatMap fun u => h265Payloads most (Config.hevcType key layer % 48) layer (body u)
  | 3 => units.zipIdx.flatMap fun u => vp8Payloads most key top x.pictureId x.tl0 layer (body u)
  | _ => units.zipIdx.flatMap fun u => av1Payloads most layer x.spatial (if key then sets.head? else none) (body u)

/-- The levels of a tail's chain. -/
def Dev.chainLevels (d : Dev) (x : TailCtx) : Nat :=
  if x.chain then (d.enc.tails.filter fun y => y.2.chain && y.2.chainBase == x.chainBase).length else 1

/-- The marking element of a packet of a picture (R457): frame marking, or a Dependency Descriptor, whose structure the base's
first packet of a key picture carries. -/
def Dev.ltrMark (d : Dev) (x y : TailCtx) (v : SvyCtx) (run : TailRun) (first fin : Bool) : Bytes :=
  let layer := temporalLayer v.temporal run.pic
  let levels := d.chainLevels x
  if x.codec ≤ 2 then
    extElement (d.get Reg.fry_FM_ID) (frameMarking first fin run.key layer
      (decide (1 < v.temporal) && layer + 1 == v.temporal) x.tl0)
  else if x.codec = 5 then
    extElement (d.get Reg.fry_DD_ID) (depDescriptor first fin (Config.ddTemplate levels v.temporal run.key x.spatial layer) y.frameNo
      (if run.key && first && x.spatial == 0 then Config.ddStructure levels v.temporal else []))
  else []

/-- The packets of a picture, handed to the Ferry one by one: `n` of them went before. -/
def Dev.ltrPackets (d : Dev) (u : UnitId) (t : Nat) (x : TailCtx) (v : SvyCtx) (run : TailRun) (top : Bool) :
    List Bytes → Nat → Dev
  | [], _ => d
  | body :: rest, n =>
    let b := x.base t
    let y := (d.tail? b).getD x
    let (d, tw) := d.draw
    let ext := extBlockOf (extElement (d.get Reg.fry_TWSEQ_ID) (beBytes 2 tw) ++ d.ltrMark x y v run (n == 0) rest.isEmpty)
    let marker := rest.isEmpty && top
    let rtp := [BitVec.ofNat 8 (0x80 + (if ext = [] then 0 else 0x10)), BitVec.ofNat 8 (bitOf marker * 128 + y.pt)] ++
      beBytes 2 y.seq ++ beBytes 4 ((v.tsBase + 90 * run.tv) % 2 ^ 32) ++ beBytes 4 y.ssrc ++ ext ++ body
    let d := d.setTail b { y with seq := (y.seq + 1) % 65536 }
    let (d, ok) := d.lighterPacket y.group y.stream (ferryCodec x.codec) rtp
    let d := if ok then d.bump Reg.ltr_PACKETS [u.idx / 6, u.idx % 6] else d.countRaise encPage 3 Reg.encCtl_STREAM_DROP
    d.ltrPackets u t x v run top rest (n + 1)

/-! ### The end of an LTR instance -/

/-- Counters of a Lighter's page for an instance that ended. -/
def Dev.ltrCount (d : Dev) (u : UnitId) (st : Status) (cycles : Nat) : Dev :=
  let ix := [u.idx / 6, u.idx % 6]
  let d := (d.set Reg.ltr_BUSY 0 ix).set Reg.ltr_LAST_CYCLES cycles ix
  let d := if st.code < 0x10 then d.bump Reg.ltr_PICTURES ix else d
  match st with
  | .doneStale => d.countRaise u.page 1 Reg.ltr_STALE ix
  | .failedMemoryUe => d.bump Reg.ltr_MEM_UE ix
  | _ => d

/-- A tail's instance failed (R461): it codes nothing until a key picture where its picture was TL0, TL1 or a key. -/
def Dev.ltrFailed (d : Dev) (t : Nat) : Dev :=
  match d.tail? t with
  | none => d
  | some x =>
    match x.run, d.svy? x.survey with
    | some run, some v =>
      if run.key || decide (temporalLayer v.temporal run.pic ≤ 1) then
        let d := d.setTail t { x with halted := true, run := none }
        match d.tail? (x.base t) with
        | some b => d.setTail (x.base t) { b with forced := true }
        | none => d
      else d.setTail t { x with run := none }
    | _, _ => d

/-- Whether a tail is the top of its chain. -/
def Dev.chainTop (d : Dev) (x : TailCtx) : Bool :=
  !x.chain || !d.enc.tails.any fun y => y.2.chain && y.2.chainBase == x.chainBase && decide (x.spatial < y.2.spatial)

/-- Where reconstruction buffer `i` of a tail lies, for pictures of `w` by `h`. -/
def TailCtx.refAddr (x : TailCtx) (w h i : Nat) : Nat := 256 * wfld x.params 9 31 0 + i * pictureBytes w h x.ten

/-- A picture of `w` by `h` read from Hold. -/
def Dev.readPicture (d : Dev) (a w h : Nat) (ten : Bool) (who : Page) : Dev × Option Picture :=
  match d.holdRead a (pictureBytes w h ten) who with
  | (d, .ok b) => (d, some (pictureAt b (pictureStride w ten) (pictureStride w ten * h) w h ten))
  | (d, .error _) => (d, none)

/-- The source picture of a tail (R456): the view picture, or a picture of its ring set, in the tail's depth. -/
def Dev.tailSource (d : Dev) (u : UnitId) (x : TailCtx) (v : SvyCtx) (p : Nat) : Dev × Option Picture :=
  let w := v.width / 2 ^ x.slevel
  let h := v.height / 2 ^ x.slevel
  let a := if x.slevel = 0 then (assoc? p v.views).getD 0
    else v.setAddr p + setOffset v.width v.height v.hp10 (2 + x.slevel)
  match d.readPicture a w h v.hp10 u.page with
  | (d, some y) => (d, some (y.depth v.hp10 x.ten))
  | (d, none) => (d, none)

/-- The reconstructed reference of a picture (R448, R456): the tail's buffer of the reference's layer. -/
def Dev.tailReference (d : Dev) (u : UnitId) (x : TailCtx) (v : SvyCtx) (p : Nat) : Dev × Option Picture :=
  let w := v.width / 2 ^ x.slevel
  let h := v.height / 2 ^ x.slevel
  let i := if referenceLayer v.temporal p = 0 then x.bufs.1 else x.bufs.2.1
  d.readPicture (x.refAddr w h i) w h x.ten u.page

/-- The reconstruction of the level below of the same picture, scaled by 2 (R457); none inside where the tail has no level below
or that level did not code the picture. -/
def Dev.tailBelow (d : Dev) (u : UnitId) (x : TailCtx) (v : SvyCtx) (p : Nat) : Dev × Option (Option Picture) :=
  let below := if x.chain then d.enc.tails.find? fun y => y.2.chain && y.2.chainBase == x.chainBase && y.2.spatial + 1 == x.spatial else none
  match below with
  | none => (d, some none)
  | some (_, y) =>
    match y.coded.filter (·.1 == p) with
    | none => (d, some none)
    | some (_, i) =>
      let w := v.width / 2 ^ y.slevel
      let h := v.height / 2 ^ y.slevel
      match d.readPicture (y.refAddr w h i) w h y.ten u.page with
      | (d, some q) => (d, some (some ⟨Config.codecDouble q.y, Config.codecDouble q.cb, Config.codecDouble q.cr⟩))
      | (d, none) => (d, none)

/-- What a picture is coded from, read from Hold; none where Hold fails it. A key picture has no reference, a stale one no
source and no records (R456, R461). -/
def Dev.tailJob (d : Dev) (u : UnitId) (s : Slot) (x : TailCtx) (v : SvyCtx) (run : TailRun) : Dev × Option CodeJob :=
  let p := run.pic
  let bw := blocksX v.width x.slevel
  let bh := blocksY v.height x.slevel
  let grey := fillPicture (v.width / 2 ^ x.slevel) (v.height / 2 ^ x.slevel) 0 x.ten
  let layer := temporalLayer v.temporal p
  let (d, recs) : Dev × Option (List Word) := if run.stale then (d, some [])
    else match d.holdWords (v.setAddr p + setOffset v.width v.height v.hp10 x.slevel) (4 * bw * bh) u.page with
      | (d, .ok w) => (d, some w)
      | (d, .error _) => (d, none)
  let (d, src) : Dev × Option Picture := if run.stale then (d, some grey) else d.tailSource u x v p
  let (d, ref) : Dev × Option (Option Picture) := if run.key then (d, some none)
    else match d.tailReference u x v p with
      | (d, some r) => (d, some (some r))
      | (d, none) => (d, none)
  let (d, low) : Dev × Option (Option Picture) := if run.stale then (d, some none) else d.tailBelow u x v p
  match recs, src, ref, low with
  | some recs, some src, some ref, some low =>
    let avg := avgBits x.kbps v.rate
    let budget := budgetOf avg (layerWeight v.temporal layer) x.keyWeight (Desc.param s.desc 1) run.key x.full x.carry
    let qp := x.pickQp (rateClass run.key layer) (complexity recs run.key (bw * bh)) budget
    (d, some { codec := x.codec, bw := bw, bh := bh, source := src, ref := ref, lower := low, recs := recs, key := run.key,
               stale := run.stale, qp := qp, qpMin := x.qpMin, qpMax := x.qpMax, step := qpStep x.codec,
               range := wfld x.params 6 27 24, cap := Desc.param s.desc 1, budget := budget })
  | _, _, _, _ => (d, none)

/-- The buffers of a tail after a picture of a layer: the one just coded becomes the layer's own, for TL0 and TL1 (R456). -/
def keepBuffer (layer : Nat) (b : Nat × Nat × Nat) : Nat × Nat × Nat :=
  match layer with
  | 0 => (b.2.2, b.2.1, b.1)
  | 1 => (b.1, b.2.2, b.2.1)
  | _ => b

/-- The reconstruction written to the buffer being coded, and the tail after it; whether Hold failed it. -/
def Dev.tailWrite (d : Dev) (u : UnitId) (x : TailCtx) (v : SvyCtx) (run : TailRun) (pic : Picture) : Dev × TailCtx × Bool :=
  let w := v.width / 2 ^ x.slevel
  let h := v.height / 2 ^ x.slevel
  let i := x.bufs.2.2
  match d.holdWrite (x.refAddr w h i) (pic.buffer w h x.ten) u.page with
  | (d, some _) => (d, x, true)
  | (d, none) => (d, { x with bufs := keepBuffer (temporalLayer v.temporal run.pic) x.bufs, coded := some (run.pic, i) }, false)

/-- A picture coded by a Lighter is counted, and its packets are handed to the Ferry (R456–R466): the device and the status. -/
def Dev.ltrPicture (d : Dev) (u : UnitId) (s : Slot) (x : TailCtx) (v : SvyCtx) (run : TailRun) (j : CodeJob) : Dev × Status :=
  let t := Desc.ctx s.desc
  let layer := temporalLayer v.temporal run.pic
  let y := (d.tail? (x.base t)).getD x
  let sets := if run.key then ((Config.codecSets x.codec x.params).take (setsOf x.codec)).map (·.take 40) else []
  let c := j.picture ((sets.map List.length).sum * 8 + min 64 (Config.codecHead x.codec run.key))
  let fin := j.endOf c
  match d.tailWrite u x v run (j.reconstruction c) with
  | (d, _, true) => (d.ltrFailed t, .failedMemoryUe)
  | (d, x, false) =>
    let comp := complexity j.recs run.key (j.bw * j.bh)
    let (d, x) := d.rateUpdate x (rateClass run.key layer) comp j.qp (c.used + fin) j.budget (avgBits x.kbps v.rate)
    let d := d.setTail t { x with run := none, pictureId := (x.pictureId + 1) % 32768 }
    let ix := [u.idx / 6, u.idx % 6]
    let d := if run.key then d.bump Reg.ltr_KEYS ix else d
    let top := decide (1 < v.temporal) && layer + 1 == v.temporal
    let units := codeUnits x.codec (wfld x.params 8 23 16) j.bw c fin
    let d := d.ltrPackets u t x v run (d.chainTop x) (payloadsOf x (clampN 256 1400 (wfld y.params 8 10 0)) layer run.key top sets units) 0
    let d := match d.tail? (x.base t) with
      | some z => d.setTail (x.base t) { z with frameNo := (z.frameNo + 1) % 65536 }
      | none => d
    let d := match c.state with
      | .normal => d
      | .forced => d.countRaise u.page 2 Reg.ltr_TRUNC_FORCED ix
      | .minimal => d.countRaise u.page 2 Reg.ltr_TRUNC_MINIMAL ix
    if run.stale then (d.countRaise encPage 1 Reg.encCtl_NO_RECORDS, .doneStale)
    else (d, if c.state = .normal then .done else .doneTruncated)

/-- A tail that codes nothing: halted by a failure, or before its first key picture (R461); a missing Survey set is counted and
ranks above the rest (R21). -/
def Dev.ltrMuted (d : Dev) (t : Nat) (x : TailCtx) (run : TailRun) : Dev × Status :=
  let d := d.setTail t { x with run := none }
  if run.stale then (d.countRaise encPage 1 Reg.encCtl_NO_RECORDS, .doneStale)
  else (d, if x.halted then .doneTruncated else .done)

/-- The end of an LTR instance: the device and the status. -/
def Dev.ltrEnd (d : Dev) (u : UnitId) (s : Slot) (r : LtrReport) : Dev × Status :=
  let t := Desc.ctx s.desc
  let fin := fun (x : Dev × Status) => (x.1.ltrCount u x.2 r.cycles, x.2)
  match d.tail? t with
  | none => fin (d, .failedMemoryUe)
  | some x =>
    match x.run, d.svy? x.survey with
    | some run, some v =>
      if run.mute && !run.key then fin (d.ltrMuted t x run)
      else
        match d.tailJob u s x v run with
        | (d, none) => fin (d.ltrFailed t, .failedMemoryUe)
        | (d, some j) => fin (d.ltrPicture u s x v run j)
    | _, _ => fin (d, .failedMemoryUe)

end Sys2Proof.Machine
end

