-- ==== Sys2Proof/Machine/RkCore.lean ====
section
/-!
DEFINITION. A Reckoner core (chapter 12): registers, accumulators, flags, data RAM, and what every instruction does
before and after its own effect (R377–R391).
-/

namespace Sys2Proof.Machine

/-! ### Registers (R377–R379) -/

/-- Bits 39:32 of an accumulator as a register part: sign-extended (R378). -/
def guardPart (v : Half) : Half := (v.setWidth 8).signExtend 16

/-- The bits of sr that R379 defines. -/
def srMask : Half := 0x133F

/-- cyc of the running operation. -/
def RkCore.cyc (c : RkCore) : Nat := (c.ops.head?.map (·.cyc)).getD 0

/-- The register numbered `n` under R378. -/
def RkCore.get (c : RkCore) (n : Nat) : Half :=
  if h : n < 52 then c.regs[n]
  else if n = 52 then BitVec.ofNat 16 c.cyc
  else if n = 53 then BitVec.ofNat 16 (c.cyc / 65536)
  else 0

/-- The core with the register numbered `n` written: a guard part takes 8 bits, sr the bits it has; cyc is read only. -/
def RkCore.set (c : RkCore) (n : Nat) (v : Half) : RkCore :=
  let v := if n = 34 ∨ n = 37 then guardPart v else if n = 38 then v &&& srMask else v
  { c with regs := c.regs.setIfInBounds n v }

/-- Numbers of registers: dN, aN, mN, and the others of R378. -/
def rD (n : Nat) : Nat := n
def rA (n : Nat) : Nat := 16 + n
def rM (n : Nat) : Nat := 24 + n
def rSr : Nat := 38
def rLc (l : Nat) : Nat := 39 + 3 * l
def rLs (l : Nat) : Nat := 40 + 3 * l
def rLe (l : Nat) : Nat := 41 + 3 * l
def rLr : Nat := 45
def rXpc : Nat := 46
def rXsr : Nat := 47
def rXlc : Nat := 48
def rXlv (k : Nat) : Nat := 49 + k
def rXsp : Nat := 51

/-- Whether R378 leaves a register number reserved. -/
def rReserved (n : Nat) : Bool := decide (54 ≤ n)

/-- Bit `i` of sr, and the core with it set. -/
def RkCore.srBit (c : RkCore) (i : Nat) : Bool := (c.get rSr).getLsbD i
def RkCore.setSr (c : RkCore) (i : Nat) (b : Bool) : RkCore :=
  c.set rSr (if b then c.get rSr ||| BitVec.twoPow 16 i else c.get rSr &&& ~~~(BitVec.twoPow 16 i))

/-- The bits of sr (R379). -/
def srZ : Nat := 0
def srN : Nat := 1
def srC : Nat := 2
def srV : Nat := 3
def srSV : Nat := 4
def srAV : Nat := 5
def srLA (l : Nat) : Nat := 8 + l
def srIE : Nat := 12

/-- Z, N, C and V of an ALU or compare instruction. -/
def RkCore.setFlags (c : RkCore) (res : Half) (carry excess : Bool) : RkCore :=
  (((c.setSr srZ (res == 0)).setSr srN res.msb).setSr srC carry).setSr srV excess

/-- An accumulator as a 40-bit two's complement number. -/
def RkCore.acc (c : RkCore) (i : Bool) : Int :=
  let b := 32 + 3 * bitOf i
  toSigned 40 ((c.get b).toNat + 65536 * (c.get (b + 1)).toNat + 4294967296 * ((c.get (b + 2)).toNat % 256))

/-- The core with an accumulator set to a number modulo 2⁴⁰. -/
def RkCore.setAcc (c : RkCore) (i : Bool) (v : Int) : RkCore :=
  let b := 32 + 3 * bitOf i
  let n := ofSigned 40 v
  ((c.set b (BitVec.ofNat 16 n)).set (b + 1) (BitVec.ofNat 16 (n / 65536))).set (b + 2) (BitVec.ofNat 16 (n / 4294967296))

/-- A result put into an accumulator under the SAT rules of R384. -/
def RkCore.accPut (c : RkCore) (i : Bool) (v : Int) (sat : Bool) : RkCore :=
  if sat then
    let w := clampI (-2147483648) 2147483647 v
    let c := c.setAcc i w
    if w = v then c else c.setSr srSV true
  else
    let c := c.setAcc i v
    if -549755813888 ≤ v ∧ v < 549755813888 then c else c.setSr srAV true

/-! ### Data RAM (R380) -/

/-- The half-word at a data RAM address. -/
def RkCore.half (c : RkCore) (a : Half) : Half :=
  BitVec.ofNat 16 ((Memory.read c.ram a.toNat).toNat + 256 * (Memory.read c.ram (a.toNat + 1)).toNat)

/-- The core with a half-word of data RAM written. -/
def RkCore.setHalf (c : RkCore) (a v : Half) : RkCore := { c with ram := Memory.writeN c.ram a.toNat (leBytes 2 v.toNat) }

/-- The first address of the core information area. -/
def rkInfoBase : Nat := 0xFFC0

/-- The mailbox of a nesting level. -/
def rkMailbox (level : Nat) : Half := BitVec.ofNat 16 (0xFF00 + 0x40 * level)

/-! ### One instruction -/

/-- Trap causes (R395). -/
def trapReserved : Nat := 1
def trapMisaligned : Nat := 2
def trapDelaySlot : Nat := 3
def trapLoopRule : Nat := 4
def trapTakeNoPreempt : Nat := 5
def trapInfoWrite : Nat := 6
def trapBadStatus : Nat := 7
def trapShRange : Nat := 8

/-- What an instruction comes to: it completes, possibly with an index of its own to go on at; it waits a cycle
(R387); or it traps. -/
inductive RkStep where
  | next (c : RkCore) (goto : Option Nat := none)
  | wait (c : RkCore)
  | trap (cause : Nat)
  deriving DecidableEq, Repr

/-- Instruction indices are 13 bits (R380). -/
def rkIndex (n : Nat) : Nat := n % 8192

/-- A load issued by this instruction: two more instructions read the old value (R388). -/
def RkCore.load (c : RkCore) (reg : Nat) (v : Half) : RkCore := { c with loads := c.loads ++ [⟨reg, v, 3⟩] }

/-- The end of an instruction for the loads in flight: those with no slot left write their registers, in order
(R388). -/
def RkCore.loadStep (c : RkCore) : RkCore :=
  let ls := c.loads.map fun (l : RkLoad) => { l with left := l.left - 1 }
  let c := (ls.filter fun (l : RkLoad) => l.left == 0).foldl (fun c l => c.set l.reg l.value) c
  { c with loads := ls.filter fun (l : RkLoad) => l.left != 0 }

/-- One cycle of the running operation (R394): the handler and the resume sequence are not counted. -/
def RkCore.tick (c : RkCore) : RkCore :=
  match c.mode, c.ops with
  | .run, o :: t => { c with ops := { o with cyc := o.cyc + 1 } :: t }
  | _, _ => c

/-- Whether the loop of level `l` ends at the instruction that completes (R391). -/
def RkCore.loopHit (c : RkCore) (l : Nat) : Bool := c.srBit (srLA l) && (c.get (rLe l)).toNat == c.pc

/-- The test of a loop at its last instruction: `old` is the core before that instruction. A register the
instruction wrote itself keeps what it wrote (R389, R391). -/
def RkCore.loopTest (old c : RkCore) (l : Nat) : RkCore × Option Nat :=
  if !old.loopHit l then (c, none)
  else if 1 < (old.get (rLc l)).toNat then
    (if c.get (rLc l) = old.get (rLc l) then c.set (rLc l) (old.get (rLc l) - 1) else c, some (rkIndex (old.get (rLs l)).toNat))
  else (if c.srBit (srLA l) then c.setSr (srLA l) false else c, none)

/-- Where the core goes on after an instruction that completed as `c`, `old` before it: a delay slot leads to the
branch's target, a loop of level 1 and then of level 0 is tested. -/
def RkCore.advance (old c : RkCore) (goto : Option Nat) : RkCore :=
  let r1 := old.loopTest c 1
  let r0 := if r1.2.isSome then (r1.1, r1.2) else old.loopTest r1.1 0
  let c := r0.1
  match old.branch, goto, r0.2 with
  | some t, _, _ => { c with pc := rkIndex t, branch := none }
  | none, some t, _ => { c with pc := rkIndex t }
  | none, none, some t => { c with pc := t }
  | none, none, none => { c with pc := rkIndex (c.pc + 1) }

/-- The core after an instruction that completed. -/
def RkCore.complete (old c : RkCore) (goto : Option Nat) : RkCore := ((old.advance c goto).loadStep).tick

/-- Whether a control instruction stands at the last or the last but one instruction of an active loop (R391). -/
def RkCore.atLoopEnd (c : RkCore) : Bool :=
  [0, 1].any fun l => c.srBit (srLA l) &&
    ((c.get (rLe l)).toNat == c.pc || (c.get (rLe l)).toNat == c.pc + 1)

/-- The traps of control instructions (R389, R391), and otherwise the effect. -/
def RkCore.control (c : RkCore) (f : RkStep) : RkStep :=
  if c.branch.isSome then .trap trapDelaySlot else if c.atLoopEnd then .trap trapLoopRule else f

/-- A branch: the delay slot follows, then the target or the index after the slot (R389). -/
def RkCore.branchTo (c : RkCore) (taken : Bool) (target : Nat) : RkStep :=
  c.control (.next { c with branch := some (if taken then target else c.pc + 2) })

end Sys2Proof.Machine
end

