-- ==== Sys2Proof/Machine/RkAlu.lean ====
section
/-!
DEFINITION. What each Reckoner instruction of groups 0x0 to 0x4 and 0x6 does to its core (R382–R388, R400). `fr` is
a free bit: C of instructions for which the spec states no carry.
-/

namespace Sys2Proof.Machine

/-- A result of the ALU: `exact` before it is narrowed to 16 bits, clamped with SAT (R383), and the flags (R379). -/
def RkCore.alu (c : RkCore) (rd : Nat) (exact : Int) (sat carry : Bool) : RkStep :=
  let excess := decide (exact < -32768) || decide (32767 < exact)
  let res := BitVec.ofInt 16 (if sat then clampI (-32768) 32767 exact else exact)
  let c := if sat && excess then c.setSr srSV true else c
  .next ((c.set rd res).setFlags res carry excess)

/-- Flags of a compare from its exact difference. -/
def RkCore.compare (c : RkCore) (exact : Int) (carry : Bool) : RkStep :=
  let excess := decide (exact < -32768) || decide (32767 < exact)
  .next (c.setFlags (BitVec.ofInt 16 exact) carry excess)

/-- Register dN as a signed number, and as an unsigned one. -/
def RkCore.sd (c : RkCore) (r : BitVec 4) : Int := (c.get (rD r.toNat)).toInt
def RkCore.ud (c : RkCore) (r : BitVec 4) : Nat := (c.get (rD r.toNat)).toNat

/-- A carry out of bit 15. -/
def carry16 (a b : Nat) : Bool := decide (65536 ≤ a + b)

/-! ### Group 0x0 -/

def rkAddF (rd rs rt : BitVec 4) (sat : Bool) (c : RkCore) : RkStep :=
  c.alu (rD rd.toNat) (c.sd rs + c.sd rt) sat (carry16 (c.ud rs) (c.ud rt))
def rkSubF (rd rs rt : BitVec 4) (sat fr : Bool) (c : RkCore) : RkStep := c.alu (rD rd.toNat) (c.sd rs - c.sd rt) sat fr
def rkAndF (rd rs rt : BitVec 4) (c : RkCore) : RkStep :=
  c.alu (rD rd.toNat) (c.get (rD rs.toNat) &&& c.get (rD rt.toNat)).toInt false false
def rkOrF (rd rs rt : BitVec 4) (c : RkCore) : RkStep :=
  c.alu (rD rd.toNat) (c.get (rD rs.toNat) ||| c.get (rD rt.toNat)).toInt false false
def rkXorF (rd rs rt : BitVec 4) (c : RkCore) : RkStep :=
  c.alu (rD rd.toNat) (c.get (rD rs.toNat) ^^^ c.get (rD rt.toNat)).toInt false false

/-- Shifts by `n`, 0 to 15 (R383). -/
def RkCore.shl (c : RkCore) (rd rs : BitVec 4) (n : Nat) (sat fr : Bool) : RkStep :=
  c.alu (rD rd.toNat) (c.sd rs * 2 ^ (n % 16)) sat fr
def RkCore.shra (c : RkCore) (rd rs : BitVec 4) (n : Nat) (fr : Bool) : RkStep :=
  c.alu (rD rd.toNat) (c.sd rs / 2 ^ (n % 16)) false fr
def RkCore.shrl (c : RkCore) (rd rs : BitVec 4) (n : Nat) (fr : Bool) : RkStep :=
  c.alu (rD rd.toNat) (c.get (rD rs.toNat) >>> (n % 16)).toInt false fr

def rkShlF (rd rs rt : BitVec 4) (sat fr : Bool) (c : RkCore) : RkStep := c.shl rd rs (c.ud rt) sat fr
def rkShraF (rd rs rt : BitVec 4) (fr : Bool) (c : RkCore) : RkStep := c.shra rd rs (c.ud rt) fr
def rkShrlF (rd rs rt : BitVec 4) (fr : Bool) (c : RkCore) : RkStep := c.shrl rd rs (c.ud rt) fr
def rkMinF (rd rs rt : BitVec 4) (c : RkCore) : RkStep := c.alu (rD rd.toNat) (min (c.sd rs) (c.sd rt)) false false
def rkMaxF (rd rs rt : BitVec 4) (c : RkCore) : RkStep := c.alu (rD rd.toNat) (max (c.sd rs) (c.sd rt)) false false
def rkAbsF (rd rs : BitVec 4) (sat fr : Bool) (c : RkCore) : RkStep := c.alu (rD rd.toNat) ((c.sd rs).natAbs : Int) sat fr
def rkNegF (rd rs : BitVec 4) (sat fr : Bool) (c : RkCore) : RkStep := c.alu (rD rd.toNat) (-(c.sd rs)) sat fr
def rkMovF (rd rs : BitVec 4) (c : RkCore) : RkStep := c.alu (rD rd.toNat) (c.sd rs) false false
def rkCmpF (rs rt : BitVec 4) (fr : Bool) (c : RkCore) : RkStep := c.compare (c.sd rs - c.sd rt) fr

/-! ### Group 0x1 -/

def rkAddiF (rd rs : BitVec 4) (imm : BitVec 16) (c : RkCore) : RkStep :=
  c.alu (rD rd.toNat) (c.sd rs + imm.toInt) false (carry16 (c.ud rs) imm.toNat)
def rkAndiF (rd rs : BitVec 4) (imm : BitVec 16) (c : RkCore) : RkStep :=
  c.alu (rD rd.toNat) (c.get (rD rs.toNat) &&& imm).toInt false false
def rkOriF (rd rs : BitVec 4) (imm : BitVec 16) (c : RkCore) : RkStep :=
  c.alu (rD rd.toNat) (c.get (rD rs.toNat) ||| imm).toInt false false
def rkXoriF (rd rs : BitVec 4) (imm : BitVec 16) (c : RkCore) : RkStep :=
  c.alu (rD rd.toNat) (c.get (rD rs.toNat) ^^^ imm).toInt false false
def rkMoviF (rd : BitVec 4) (imm : BitVec 16) (c : RkCore) : RkStep := c.alu (rD rd.toNat) imm.toInt false false
def rkCmpiF (rs : BitVec 4) (imm : BitVec 16) (fr : Bool) (c : RkCore) : RkStep := c.compare (c.sd rs - imm.toInt) fr
def rkShliF (rd rs : BitVec 4) (imm : BitVec 16) (fr : Bool) (c : RkCore) : RkStep := c.shl rd rs imm.toNat false fr
def rkShraiF (rd rs : BitVec 4) (imm : BitVec 16) (fr : Bool) (c : RkCore) : RkStep := c.shra rd rs imm.toNat fr
def rkShrliF (rd rs : BitVec 4) (imm : BitVec 16) (fr : Bool) (c : RkCore) : RkStep := c.shrl rd rs imm.toNat fr
def rkAmoviF (rd : BitVec 3) (imm : BitVec 16) (c : RkCore) : RkStep := c.alu (rA rd.toNat) imm.toInt false false
def rkMmoviF (rd : BitVec 3) (imm : BitVec 16) (c : RkCore) : RkStep := c.alu (rM rd.toNat) imm.toInt false false
def rkAaddiF (rd : BitVec 3) (imm : BitVec 16) (c : RkCore) : RkStep :=
  c.alu (rA rd.toNat) ((c.get (rA rd.toNat)).toInt + imm.toInt) false (carry16 (c.get (rA rd.toNat)).toNat imm.toNat)

/-! ### Loads and stores (R386): groups 0x2 and 0x4 -/

/-- Register `reg` of a CLASS (R382): d, a or m; none is reserved encoding. -/
def rkClassReg (cls : BitVec 2) (reg : BitVec 4) : Option Nat :=
  match cls.toNat with
  | 0 => some (rD reg.toNat)
  | 1 => if reg.toNat < 8 then some (rA reg.toNat) else none
  | 2 => if reg.toNat < 8 then some (rM reg.toNat) else none
  | _ => none

/-- The effective address of a load or store, and the core with its address register updated. -/
def RkCore.address (c : RkCore) (a m : BitVec 3) (pmod : Bool) (ofs : BitVec 11) : Half × RkCore :=
  let base := c.get (rA a.toNat)
  if pmod then (base, c.set (rA a.toNat) (base + c.get (rM m.toNat))) else (base + ofs.signExtend 16, c)

/-- A load of the half-word at an address into a register; `rd` reads data RAM. -/
def RkCore.loadFrom (c : RkCore) (rd : Half → Half) (reg : Nat) (a : Half) : RkStep :=
  if a.getLsbD 0 then .trap trapMisaligned else .next (c.load reg (rd a))

/-- A store to an address. -/
def RkCore.storeTo (c : RkCore) (a v : Half) : RkStep :=
  if a.getLsbD 0 then .trap trapMisaligned
  else if rkInfoBase ≤ a.toNat then .trap trapInfoWrite
  else .next (c.setHalf a v)

def rkLdF (cls : BitVec 2) (reg : BitVec 4) (a m : BitVec 3) (pmod : Bool) (ofs : BitVec 11) (rd : Half → Half)
    (c : RkCore) : RkStep :=
  match rkClassReg cls reg with
  | none => .trap trapReserved
  | some r =>
    let x := c.address a m pmod ofs
    x.2.loadFrom rd r x.1

def rkStF (cls : BitVec 2) (reg : BitVec 4) (a m : BitVec 3) (pmod : Bool) (ofs : BitVec 11) (c : RkCore) : RkStep :=
  match rkClassReg cls reg with
  | none => .trap trapReserved
  | some r =>
    let x := c.address a m pmod ofs
    x.2.storeTo x.1 (c.get r)

/-! ### Group 0x2 (R384) -/

/-- The product of R384. -/
def RkCore.product (c : RkCore) (rs rt : BitVec 4) (frac : Bool) : Int := (if frac then 2 else 1) * (c.sd rs * c.sd rt)

/-- A MAC instruction that puts `v` into its accumulator, with its parallel load. -/
def RkCore.mac (c : RkCore) (acc : Bool) (v : Int) (sat : Bool) (par : Option RkPar) (rd : Half → Half) : RkStep :=
  let c' := c.accPut acc v sat
  match par with
  | none => .next c'
  | some p =>
    let x := c'.address p.pa p.pm true 0
    x.2.loadFrom rd (rD p.prd.toNat) x.1

def rkMulF (acc : Bool) (rs rt : BitVec 4) (frac sat : Bool) (par : Option RkPar) (rd : Half → Half) (c : RkCore) :
    RkStep := c.mac acc (c.product rs rt frac) sat par rd
def rkMacF (acc : Bool) (rs rt : BitVec 4) (frac sat : Bool) (par : Option RkPar) (rd : Half → Half) (c : RkCore) :
    RkStep := c.mac acc (c.acc acc + c.product rs rt frac) sat par rd
def rkMsuF (acc : Bool) (rs rt : BitVec 4) (frac sat : Bool) (par : Option RkPar) (rd : Half → Half) (c : RkCore) :
    RkStep := c.mac acc (c.acc acc - c.product rs rt frac) sat par rd

/-! ### Group 0x3 (R385) -/

def rkClrF (acc : Bool) (c : RkCore) : RkStep := .next (c.setAcc acc 0)

def rkMvaF (acc : Bool) (rd : BitVec 4) (sh : BitVec 6) (sat : Bool) (c : RkCore) : RkStep :=
  if sh.toInt < 0 ∨ 24 < sh.toInt then .trap trapShRange
  else
    let v := c.acc acc / 2 ^ sh.toNat
    let w := clampI (-32768) 32767 v
    if sat && w != v then .next ((c.set (rD rd.toNat) (BitVec.ofInt 16 w)).setSr srSV true)
    else .next (c.set (rD rd.toNat) (BitVec.ofInt 16 v))

def rkMvdF (acc : Bool) (rs : BitVec 4) (c : RkCore) : RkStep := .next (c.setAcc acc (65536 * c.sd rs))
def rkAddaF (acc sat : Bool) (c : RkCore) : RkStep := .next (c.accPut acc (c.acc acc + c.acc !acc) sat)

def rkShaF (acc : Bool) (sh : BitVec 6) (sat : Bool) (c : RkCore) : RkStep :=
  if 0 < sh.toInt then .next (c.accPut acc (c.acc acc * 2 ^ sh.toInt.toNat) sat)
  else .next (c.setAcc acc (c.acc acc / 2 ^ (-sh.toInt).toNat))

def rkNegaF (acc sat : Bool) (c : RkCore) : RkStep := .next (c.accPut acc (-(c.acc acc)) sat)

/-! ### Group 0x6 (R378, R400) -/

def rkMovxF (rd rs : BitVec 6) (c : RkCore) : RkStep :=
  if rReserved rd.toNat || rReserved rs.toNat then .trap trapReserved else .next (c.set rd.toNat (c.get rs.toNat))

def rkPushxF (rs : BitVec 6) (c : RkCore) : RkStep :=
  if rReserved rs.toNat then .trap trapReserved
  else
    let sp := c.get rXsp - 2
    (c.set rXsp sp).storeTo sp (c.get rs.toNat)

def rkPopxF (r : BitVec 6) (rd : Half → Half) (c : RkCore) : RkStep :=
  if rReserved r.toNat then .trap trapReserved
  else
    let sp := c.get rXsp
    (c.set rXsp (sp + 2)).loadFrom rd r.toNat sp

/-! ### Group 0x5 (R389–R391) -/

/-- The conditions of the branches. -/
def RkCore.less (c : RkCore) : Bool := c.srBit srN != c.srBit srV
def RkCore.zero (c : RkCore) : Bool := c.srBit srZ

def rkBF (t : BitVec 13) (c : RkCore) : RkStep := c.branchTo true t.toNat
def rkBeqF (t : BitVec 13) (c : RkCore) : RkStep := c.branchTo c.zero t.toNat
def rkBneF (t : BitVec 13) (c : RkCore) : RkStep := c.branchTo (!c.zero) t.toNat
def rkBltF (t : BitVec 13) (c : RkCore) : RkStep := c.branchTo c.less t.toNat
def rkBgeF (t : BitVec 13) (c : RkCore) : RkStep := c.branchTo (!c.less) t.toNat
def rkBgtF (t : BitVec 13) (c : RkCore) : RkStep := c.branchTo (!c.less && !c.zero) t.toNat
def rkBleF (t : BitVec 13) (c : RkCore) : RkStep := c.branchTo (c.less || c.zero) t.toNat
def rkBvF (t : BitVec 13) (c : RkCore) : RkStep := c.branchTo (c.srBit srV) t.toNat
def rkCallF (t : BitVec 13) (c : RkCore) : RkStep := (c.set rLr (BitVec.ofNat 16 (rkIndex (c.pc + 2)))).branchTo true t.toNat
def rkRetF (c : RkCore) : RkStep := c.branchTo true (c.get rLr).toNat

/-- The value of a LOOP's count. -/
def RkCore.countOf (c : RkCore) : RkCount → Nat
  | .imm n => n.toNat
  | .reg r => c.ud r

/-- Whether LOOP breaks a rule of R391 of its own. -/
def RkCore.loopBad (c : RkCore) (level : Bool) (last : BitVec 13) : Bool :=
  c.srBit (srLA (bitOf level)) || (level && c.srBit (srLA 0) && decide ((c.get (rLe 0)).toNat ≤ last.toNat))

def rkLoopF (level : Bool) (count : RkCount) (last : BitVec 13) (c : RkCore) : RkStep :=
  c.control (
    if c.loopBad level last then .trap trapLoopRule
    else
      let l := bitOf level
      let n := c.countOf count
      let c' := ((c.set (rLs l) (BitVec.ofNat 16 (rkIndex (c.pc + 1)))).set (rLe l) (last.setWidth 16)).set (rLc l)
        (BitVec.ofNat 16 n)
      if n = 0 then .next c' (some (last.toNat + 1)) else .next (c'.setSr (srLA l) true))

def rkBreakF (level : Bool) (c : RkCore) : RkStep := c.control (.next (c.setSr (srLA (bitOf level)) false))

/-! ### NOP -/

def rkNopF (c : RkCore) : RkStep := .next c

end Sys2Proof.Machine
end

