-- ==== Sys2Proof/Machine/RkOps.lean ====
section
/-!
DEFINITION. Reckoner cores as they stand in the device (chapter 12): the operations they run, traps, pre-emption, and
one instruction issued on a core (R380, R387, R392–R401).
-/

namespace Sys2Proof.Machine

/-- The Reckoner page of a core. -/
def rknPage (c : Nat) : Page := ⟨.rkn, (UnitId.mk ukCore c).pier⟩
/-- The indices of the fields of a pier's Reckoner page. -/
def rknIx (c : Nat) : List Nat := [(UnitId.mk ukCore c).pier]

/-- The core as a unit of the Slipway. -/
def coreUnit (c : Nat) : UnitId := ⟨ukCore, c⟩

/-- A core as the last image load of its pier left it, or as reset left it. -/
def Dev.freshCore (d : Dev) (c : Nat) : RkCore :=
  let p := (coreUnit c).pier
  let loading := d.rkn.loading.contains p
  { num := c, mode := if loading then .init else .idle, regs := Vector.replicate 52 0,
    pc := if loading then ((assoc? p d.rkn.images).map RkImage.initEntry).getD 0 else 0, branch := none, loads := [],
    ram := (assoc? p d.rkn.rams).getD [], ops := [], request := none, dma := [], moved := (0, 0) }

/-- Core `c`. -/
def Dev.core (d : Dev) (c : Nat) : RkCore := (d.rkn.cores.find? (·.num == c)).getD (d.freshCore c)

/-- The device with a core replaced. -/
def Dev.setCore (d : Dev) (x : RkCore) : Dev :=
  { d with rkn := { d.rkn with cores := d.rkn.cores.filter (fun y => y.num != x.num) ++ [x] } }

/-- The image of a core's pier. -/
def Dev.imageOf (d : Dev) (c : Nat) : Option RkImage := assoc? (coreUnit c).pier d.rkn.images

/-- Task number `t` of a pier's image with a KIND, if the pier serves it (R104, R407, R409). -/
def Dev.task? (d : Dev) (pier t kind : Nat) : Option RkTask :=
  if 8 ≤ pier ∨ !d.live ⟨.rkn, pier⟩ ∨ !d.flag Reg.rkn_EN [pier] ∨ !d.flag Reg.rkn_LOADED [pier] ∨ t = 0 then none
  else ((assoc? pier d.rkn.images).bind fun i => i.tasks[t - 1]?).filter (·.kind == kind)

/-- The slot taken as the `o`-th, if it is still there. -/
def Dev.slotByOrder (d : Dev) (o : Nat) : Option Slot := d.wfg.slots.find? (·.order == o)

/-! ### Core information and data RAM (R380) -/

/-- The word of the core information area at an address. -/
def Dev.coreInfo (d : Dev) (c : RkCore) (a : Nat) : Half :=
  let o := c.ops.head?
  match a with
  | 0xFFC0 => BitVec.ofNat 16 (((d.unit (coreUnit c.num)).carries).getD c.num)
  | 0xFFC2 => BitVec.ofNat 16 (coreUnit c.num).pier
  | 0xFFC4 => BitVec.ofNat 16 ((o.map (·.startTide)).getD 0)
  | 0xFFC6 => BitVec.ofNat 16 ((o.map (·.startTide)).getD 0 / 65536)
  | 0xFFC8 => BitVec.ofNat 16 ((o.map (·.slot)).getD 0)
  | 0xFFCA => BitVec.ofNat 16 (c.ops.length - 1)
  | _ => BitVec.ofNat 16 (Config.coreInfo c.num a)

/-- A half-word as a core reads it. -/
def Dev.coreRead (d : Dev) (c : RkCore) (a : Half) : Half :=
  if rkInfoBase ≤ a.toNat then d.coreInfo c a.toNat else c.half a

/-! ### Starting, ending, pre-empting -/

/-- A core starts an operation at the next nesting level (R392): pc, sr, a0, the mailbox and cyc are set. -/
def Dev.coreStart (d : Dev) (c : RkCore) (s : Slot) (t : RkTask) : Dev :=
  let level := c.ops.length
  let box := rkMailbox level
  let op : RkOp := ⟨s.order, s.num, t.cycles, d.tide % 2 ^ 32, 0⟩
  let c := { c with mode := .run, pc := rkIndex t.entry, branch := none, loads := [], ops := op :: c.ops,
                    request := none, ram := Memory.writeN c.ram box.toNat (padTo 64 (bytesOfWords s.desc)) }
  d.setCore ((c.set rSr (BitVec.twoPow 16 srIE)).set (rA 0) box)

/-- The instance of a slot marked as running on a core from now on. -/
def Dev.slotRuns (d : Dev) (s : Slot) (u : UnitId) : Dev :=
  match s.inst with
  | some i => d.setSlot { s with inst := some { i with state := .running, engine := some u, startTide := d.tide, startPhase := d.phase } }
  | none => d

/-- The instance of a slot put into a state. -/
def Dev.slotState (d : Dev) (order : Nat) (st : InstState) : Dev :=
  match d.slotByOrder order with
  | some s =>
    match s.inst with
    | some i => d.setSlot { s with inst := some { i with state := st } }
    | none => d
  | none => d

/-- The task of a slot's operation in the image of a core's pier. -/
def Dev.slotTask (d : Dev) (s : Slot) (c : Nat) : Option RkTask :=
  (d.imageOf c).bind fun i =>
    let t := Desc.param s.desc 0 % 65536
    if t = 0 then none else (i.tasks[t - 1]?).filter (·.kind == Desc.kind s.desc)

/-- A ready operation starts on a core (R104, R392); one whose task is no longer there ends with FAILED_UNIT_FAULT. -/
def Dev.taskStart (d : Dev) (c : Nat) (s : Slot) : Dev :=
  let d := d.setCore { d.core c with request := none }
  match d.slotTask s c with
  | some t => (d.slotRuns s (coreUnit c)).coreStart (d.core c) s t
  | none => d.endInst s .failedUnitFault []

/-- The running operation leaves the core, its channels with it no longer awaited; what a PREEMPT has named starts
in its place (R393). -/
def Dev.coreEnd (d : Dev) (c : Nat) (st : Status) : Dev :=
  let x := d.core c
  match x.ops with
  | [] => d.setCore { x with mode := .idle, branch := none, loads := [] }
  | o :: t =>
    let d := d.setCore { x with mode := .idle, branch := none, loads := [], ops := t }
    let d := match d.slotByOrder o.order with
      | some s => d.endInst s st []
      | none => d
    match x.request.bind d.slotByOrder with
    | some s => d.taskStart c s
    | none => d

/-- The next operation of a core is the one pre-empted last: the core goes to RESUME_VEC (R401). -/
def Dev.coreResume (d : Dev) (c : Nat) : Dev :=
  let x := d.core c
  match x.ops with
  | [] => d
  | o :: _ =>
    let x := { x with mode := .resume, pc := ((d.imageOf c).map RkImage.resumeVec).getD 0 }
    (d.setCore (((x.setSr srIE false).setSr (srLA 0) false).setSr (srLA 1) false)).slotState o.order .running

/-- The registers that hold what the core captures at a pre-emption (R397, R398). -/
def RkCore.captured (c : RkCore) : RkCore :=
  let l0 : RkLoad := c.loads.getD 0 ⟨0, 0, 0⟩
  let l1 : RkLoad := c.loads.getD 1 ⟨0, 0, 0⟩
  let old1 := if l1.reg = l0.reg then l0.value else c.get l1.reg
  let xlc := BitVec.ofNat 16 (l1.reg % 64 * 1024 + l1.left % 4 * 256 + l0.reg % 64 * 4 + l0.left % 4)
  let c' := (((c.set rXpc (BitVec.ofNat 16 c.pc)).set rXsr (c.get rSr)).set rXlc xlc).set (rXlv 0) (c.get l0.reg)
  let c' := c'.set (rXlv 1) old1
  let c' := c.loads.foldl (fun x l => x.set l.reg l.value) c'
  { c' with loads := [] }

/-- Pre-emption is taken (R397): the state is captured and the core jumps to PREEMPT_VEC. -/
def Dev.corePreempted (d : Dev) (c : Nat) : Dev :=
  let x := (d.core c).captured
  let x := { x with mode := .handler, pc := ((d.imageOf c).map RkImage.preemptVec).getD 0 }
  let d := (d.setCore (((x.setSr srIE false).setSr (srLA 0) false).setSr (srLA 1) false)).bump Reg.rkn_PREEMPTS (rknIx c)
  match x.ops with
  | o :: _ => d.slotState o.order .preempted
  | [] => d

/-- Whether a core may take a pre-emption now. -/
def RkCore.open_ (c : RkCore) : Bool := c.mode == .run && c.srBit srIE && c.branch.isNone && c.request.isSome

/-- PREEMPT names an operation to a core (R114, R397); a core whose IE is 0 takes it later. -/
def Dev.preempt (d : Dev) (c order : Nat) : Dev :=
  let x := { d.core c with request := some order }
  let d := d.setCore x
  if x.open_ then d.corePreempted c else d

/-- A trap (R395): the operation ends with FAILED_UNIT_FAULT and the trap is recorded. -/
def Dev.coreTrap (d : Dev) (c cause : Nat) : Dev :=
  let x := d.core c
  let ix := rknIx c ++ [coreLocal c]
  let d := ((d.countRaise (rknPage c) 2 Reg.rkn_TRAPS (rknIx c)).set Reg.rkn_CORE_TRAP_CAUSE cause ix).set Reg.rkn_CORE_LAST_TRAP_PC x.pc ix
  let slot := (x.ops.head?.map (·.slot)).getD 0
  let tenant := ((x.ops.head?.bind fun o => d.slotByOrder o.order).map (·.tenant)).getD 0
  let d := d.log (rknPage c) 0x82 (if x.ops.isEmpty then 0 else 2) slot tenant (leBytes 2 x.pc ++ leBytes 1 cause)
  if x.mode = .init then d.setCore { x with mode := .initFailed } else d.coreEnd c .failedUnitFault

/-! ### One instruction (R387–R391) -/

/-- Whether a core executes instructions: it is fit and has something to execute, within the declared cycles (R394). -/
def Dev.executes (d : Dev) (c : Nat) : Bool :=
  let x := d.core c
  d.unitFit (coreUnit c) &&
  match x.mode with
  | .init | .handler | .resume => true
  | .run => match x.ops with
    | o :: _ => decide (o.cyc < o.limit)
    | [] => false
  | _ => false

/-- What an instruction came to, taken up by the device. -/
def Dev.issued (d : Dev) (c : Nat) (old : RkCore) : RkStep → Dev
  | .trap cause => d.coreTrap c cause
  | .wait x => d.setCore x.tick
  | .next x goto =>
    let x := old.complete x goto
    let d := d.setCore x
    if x.open_ && old.srBit srIE then d.corePreempted c else d

/-- An instruction issued on a core. -/
def Dev.issue (d : Dev) (c : Nat) (f : RkCore → RkStep) : Dev :=
  if d.executes c then d.issued c (d.core c) (f (d.core c)) else d

/-- An instruction that reads data RAM. -/
def Dev.issueMem (d : Dev) (c : Nat) (f : (Half → Half) → RkCore → RkStep) : Dev :=
  d.issue c (f (d.coreRead (d.core c)))

/-- An instruction whose C the spec does not state. -/
def Dev.issueFree (d : Dev) (c : Nat) (f : Bool → RkCore → RkStep) : Dev :=
  if d.executes c then
    let (d, n) := d.draw
    d.issued c (d.core c) (f (n % 2 == 1) (d.core c))
  else d

/-! ### System instructions -/

/-- The status codes END may give (R393). -/
def endStatus (n : Nat) : Option Status :=
  [Status.done, .doneConcealed, .doneTruncated, .failedLength, .failedSyntax].find? fun s => s.code == n

/-- END (R393); in an initialisation it must be with DONE (R408). -/
def Dev.rkEnd (d : Dev) (c : Nat) : Dev :=
  if !d.executes c then d
  else
    let x := d.core c
    match x.control (.next x) with
    | .trap n => d.coreTrap c n
    | _ =>
      match endStatus ((x.get (rD 0)).toNat % 256) with
      | none => d.coreTrap c trapBadStatus
      | some st =>
        if x.mode = .init then d.setCore { x with mode := if st = .done then .initDone else .initFailed }
        else d.coreEnd c st

/-- TAKE (R399): the operation that PREEMPT named starts. -/
def Dev.rkTake (d : Dev) (c : Nat) : Dev :=
  if !d.executes c then d
  else
    let x := d.core c
    match x.control (.next x) with
    | .trap n => d.coreTrap c n
    | _ =>
      match x.request.bind d.slotByOrder with
      | none => d.coreTrap c trapTakeNoPreempt
      | some s =>
        let d := match x.ops with
          | o :: _ => d.slotState o.order .preempted
          | [] => d
        d.taskStart c s

/-- The load-delay state of R398 put back: each register reads its old value until its load completes again. -/
def RkCore.restored (c : RkCore) : RkCore :=
  let w := (c.get rXlc).toNat
  let r0 := w / 4 % 64
  let s0 := w % 4
  let r1 := w / 1024
  let s1 := w / 256 % 4
  let v0 := if s1 ≠ 0 ∧ r1 = r0 then c.get (rXlv 1) else c.get r0
  let l0 : List RkLoad := if s0 = 0 then [] else [⟨r0, v0, s0⟩]
  let l1 : List RkLoad := if s1 = 0 then [] else [⟨r1, c.get r1, s1⟩]
  let c := if s1 = 0 then c else c.set r1 (c.get (rXlv 1))
  let c := if s0 = 0 then c else c.set r0 (c.get (rXlv 0))
  { c with loads := l0 ++ l1 }

/-- RTI (R401): after the POPX instructions before it, pc, sr and the load-delay state are restored. -/
def Dev.rkRti (d : Dev) (c : Nat) : Dev :=
  if !d.executes c then d
  else
    let x := d.core c
    match x.control (.next x) with
    | .trap n => d.coreTrap c n
    | _ =>
      if !x.loads.isEmpty then d.setCore x.loadStep.tick
      else
        let y := (x.restored.set rSr (x.get rXsr)).tick
        let mode := if x.mode = .init then .init else .run
        let d := d.setCore { y with pc := rkIndex (x.get rXpc).toNat, mode := mode }
        match x.ops with
        | o :: _ => d.slotState o.order .running
        | [] => d

/-! ### Overrun (R394) -/

/-- OVERRUN: the running operation has reached its declared cycles without END, by the cycles counted or by the time
since it started. -/
def Dev.overrun (d : Dev) (c : Nat) : Dev :=
  let x := d.core c
  match x.mode, x.ops with
  | .run, o :: _ =>
    match d.slotByOrder o.order with
    | none => d
    | some s =>
      let since := match s.inst with
        | some i => (1000000 * (d.tide - i.startTide) + d.phase) - i.startPhase
        | none => 0
      if o.cyc < o.limit ∧ since * 16 < o.limit * 10 then d
      else
        let d := d.setCore { x with ops := { o with cyc := max o.cyc o.limit } :: x.ops.drop 1 }
        let d := (d.countRaise (rknPage c) 3 Reg.rkn_OVERRUN (rknIx c)).log (rknPage c) 0x83 2 o.slot s.tenant (leBytes 2 o.slot ++ leBytes 2 x.pc)
        d.coreEnd c .failedLength
  | _, _ => d

end Sys2Proof.Machine
end

