-- ==== Sys2Proof/Machine/Transfer.lean ====
section
/-!
DEFINITION. Bulk cryptography (R270–R272) and host DMA transfers (R595): what their descriptors must keep and what the
end of an instance does.
-/

namespace Sys2Proof.Machine

/-! ### CRY -/

/-- MODE of a CRY descriptor, the length of its additional data, its data unit. -/
def cryMode (w : List Word) : Nat := Desc.param w 1 % 16
def cryAad (w : List Word) : Nat := Desc.param w 2 % 2 ^ 24
def cryUnit (w : List Word) : Nat := Desc.param w 3 % 2 ^ 24

/-- Whether a MODE uses a key. -/
def cryKeyed (mode : Nat) : Bool := mode != 5 && mode != 7

/-- What refuses a CRY descriptor with REFUSED_PARAM (R270). -/
def cryRefusal (w : List Word) : Bool :=
  let n := Desc.param w 0
  let mode := cryMode w
  decide (7 < mode) || n == 0 || decide (16777216 < n) ||
  decide (16 ≤ Desc.param w 1) || decide (2 ^ 24 ≤ Desc.param w 2) || decide (2 ^ 24 ≤ Desc.param w 3) || Desc.param w 4 != 0 ||
  (decide (mode ≤ 1) && decide (n < cryAad w)) ||
  ((mode == 3 || mode == 4) &&
    (cryUnit w % 16 != 0 || cryUnit w == 0 || decide (1048576 < cryUnit w) || n % max 1 (cryUnit w) != 0))

/-- The key of a key block (R271), if the checks of R263 pass under the wrapping key of tenant `t`: SET is 1, the
length is one of the two, and every byte that holds neither is zero. -/
def Dev.cryKey (d : Dev) (t ctx : Nat) (block : Bytes) : Option Bytes :=
  let w := d.wrapKey t
  let m := padTo 64 (xtsDecrypt w.key (2 ^ 27 + ctx) 64 block)
  let n := byteAt m 32
  if w.set && (n == 16 || n == 32) && (slice m n (32 - n)).all (· == 0) && (m.drop 33).all (· == 0) then some (m.take n)
  else none

/-- The input of an instance: its items' bytes if IN_VALID is 1, else PARAM0 bytes at IN_ADDR. -/
def Dev.opInput (d : Dev) (s : Slot) (i : Inst) (who : Page) : Dev × Option Bytes :=
  if (Desc.inQueue s.desc).isSome then
    i.taken.foldl (fun (acc : Dev × Option Bytes) x =>
      match acc with
      | (d, none) => (d, none)
      | (d, some b) =>
        match d.itemBytes x who with
        | (d, none) => (d, none)
        | (d, some y) => (d, some (b ++ y))) (d, some [])
  else
    match d.holdRead (Desc.inAddr s.desc) (Desc.param s.desc 0) who with
    | (d, .ok b) => (d, some b)
    | (d, .error _) => (d, none)

/-- XTS under the key of a key block (R271): 32 bytes are the two halves of XTS-AES-128 (DEDUCED, log entry 155); 16 are none that
IEEE 1619 has, a free value. -/
def cryXts (decrypt : Bool) (key : Bytes) (tweak unit : Nat) (b : Bytes) : Bytes :=
  if key.length = 32 then xts decrypt key tweak unit b else Config.xtsHalfKey decrypt key tweak unit b

/-- What a CRY mode makes of its input: the output region's bytes, those of the AUX block it writes (offset and bytes),
and whether it authenticated. -/
def cryResult (w : List Word) (key aux b : Bytes) : Bytes × Option (Nat × Bytes) × Bool :=
  let a := b.take (cryAad w)
  let p := b.drop (cryAad w)
  let iv := slice aux 64 12
  let tweak := leNat (slice aux 64 16)
  match cryMode w with
  | 0 =>
    let c := padTo (p.length + 16) (gcmEncrypt key iv a p)
    (a ++ c.take p.length, some (80, c.drop p.length), true)
  | 1 =>
    match gcmDecrypt key iv a p (slice aux 80 16) with
    | some x => (a ++ padTo p.length x, none, true)
    | none => (List.replicate b.length 0, none, false)
  | 2 => (padTo b.length (aesCtr key 128 (beNat (slice aux 64 16)) b), none, true)
  | 3 => (padTo b.length (cryXts false key tweak (cryUnit w) b), none, true)
  | 4 => (padTo b.length (cryXts true key tweak (cryUnit w) b), none, true)
  | 5 => ([], some (96, padTo 32 (sha256 b)), true)
  | 6 => ([], some (96, padTo 32 (hmacSha256 key b)), true)
  | _ => ([], some (96, padTo 32 (sha1 b)), true)

/-- The end of a CRY instance (R271, R272). -/
def Dev.cryEnd (d : Dev) (s : Slot) (i : Inst) : Dev × Status :=
  match d.opInput s i bndPage with
  | (d, none) => (d, .failedMemoryUe)
  | (d, some b) =>
    if Desc.param s.desc 0 < b.length then (d, .failedLength)
    else
      match d.holdRead (Desc.auxAddr s.desc) 128 bndPage with
      | (d, .error _) => (d, .failedMemoryUe)
      | (d, .ok aux) =>
        match d.cryKey s.tenant (Desc.ctx s.desc) (aux.take 64), cryKeyed (cryMode s.desc) with
        | none, true =>
          (((d.bump Reg.bnd_UNWRAP_FAIL).raiseLog bndPage 1 2 s.num s.tenant).raiseTenant s.tenant 3, .failedAuth)
        | key, _ =>
          let (out, extra, good) := cryResult s.desc (key.getD []) aux b
          let (d, e1) := d.holdWrite (Desc.outAddr s.desc) out bndPage
          let (d, e2) := match extra with
            | some (o, x) => d.holdWrite (Desc.auxAddr s.desc + o) x bndPage
            | none => (d, none)
          if e1.isSome || e2.isSome then (d, .failedMemoryUe)
          else if good then (d, .done)
          else (d, .failedAuth)

/-! ### XFR -/

/-- DIR of an XFR descriptor and the host address it names. -/
def xfrDir (w : List Word) : Nat := Desc.param w 1 % 4
def xfrHost (w : List Word) : Nat := Desc.param w 2 + 2 ^ 32 * Desc.param w 3

/-- What refuses an XFR descriptor with REFUSED_PARAM (R595): its count, its direction, a host address, or a Hold range
that only a unit writes. -/
def Dev.xfrRefusal (d : Dev) (w : List Word) (booked : Bool) : Bool :=
  let n := Desc.param w 0
  let dir := xfrDir w
  n % 4 != 0 || n == 0 || decide (16777216 < n) || decide (4 ≤ Desc.param w 1) || Desc.param w 4 != 0 || dir == 3 ||
  (booked && dir != 0) || (dir != 0 && xfrHost w % 4 != 0) ||
  (dir != 1 && d.unitOwned (Desc.inAddr w) n) || (dir != 2 && d.unitOwned (Desc.outAddr w) n)

/-- The end of an XFR instance: the host's bytes for DIR 1, and whether PCIe completed it. -/
def Dev.xfrEnd (d : Dev) (s : Slot) (host : Bytes) (pcieOk : Bool) : Dev × Status :=
  let n := Desc.param s.desc 0
  let who : Page := ⟨.gwy, 0⟩
  let toHold := fun (d : Dev) (b : Bytes) =>
    match d.holdWrite (Desc.outAddr s.desc) b who with
    | (d, none) => (d, Status.done)
    | (d, some _) => (d, Status.failedMemoryUe)
  if xfrDir s.desc ≠ 0 ∧ pcieOk = false then (d.bump Reg.gwy_HOST_DMA_ERR, .failedUnitFault)
  else if xfrDir s.desc = 1 then toHold d (padTo n host)
  else
    match d.holdRead (Desc.inAddr s.desc) n who with
    | (d, .error _) => (d, .failedMemoryUe)
    | (d, .ok b) =>
      if xfrDir s.desc = 0 then toHold d b
      else (d.emit (.hostWrite (xfrHost s.desc) b), .done)

end Sys2Proof.Machine
end

