-- ==== Sys2Proof/Machine/Costs.lean ====
section
/-!
DEFINITION. What the Ledger counts: costs (R67, R68), capacities in service (R70, R75, R79, R89), and the figures of its
calendars and forward pools (R70, R76, R92).
-/

namespace Sys2Proof.Machine

/-- The Ledger page. -/
def ldgPage : Page := ⟨.ldg, 0⟩

/-- Cycles per Tide that the Ledger books on one engine, and that it plans with (R45). -/
def bookable : Nat := 1550000
def planned : Nat := 1598400

/-! ### Costs (R67, R68) -/

/-- The samples of a size word. -/
def sizeArea (n : Nat) : Nat := sizeW n * sizeH n

/-- The cost of an operation from its declared parameters: `fetched` are the layer pixels of a CMP's layout, `task` the
cycles its image declares for a task's number. -/
def opCost (w : List Word) (fetched task : Nat) : Nat :=
  let p := Desc.param w
  match Desc.kind w with
  | 0x0 => ceilDiv (20 * sizeArea (p 0) + 16 * p 1 + 5 * (sizeArea (p 3) + sizeArea (p 4))) 20 + 4000 + 1500 * (p 2 % 65536)
  | 0x1 => ceilDiv (sizeArea (p 1) + sizeArea (p 2) + sizeArea (p 3) + sizeArea (p 4)) 4
  | 0x2 => ceilDiv (4 * sizeArea (p 0) + fetched) 5 + 2000 + 400 * (p 1 % 256)
  | 0x3 => ceilDiv (6 * sizeArea (p 0)) 5 + 3000
  | 0x4 => ceilDiv (16 * sizeArea (p 0) + 5 * p 1) 10 + 3000
  | 0x7 => 48 * (p 0 % 128)
  | 0x9 => 256 + ceilDiv (p 0 % 2 ^ 25) 64
  | 0xA => 200 + ceilDiv (p 0) 16
  | _ => task

/-! ### Units in service (R89) -/

/-- The indices of a kind in service. -/
def Dev.serving (d : Dev) (k : Nat) : List Nat := (List.range (d.serviceCount k)).filter fun i => d.inService ⟨k, i⟩

/-- What COUNT of kind k is to read: engines in service; for the Breakwater, the Ferry and the Tally, the one pool each
is (R75); of the cores, those of piers that hold an image (R620). -/
def Dev.countNow (d : Dev) (k : Nat) : Nat :=
  if k = 8 ∨ k = 9 ∨ k = 0xA then (if (d.serving k).isEmpty then 0 else 1)
  else if k = 5 then ((d.serving 5).filter fun c => d.flag Reg.rkn_LOADED [(UnitId.mk 5 c).pier]).length
  else (d.serving k).length

/-- COUNT of kind k as last published. -/
def Dev.countOf (d : Dev) (k : Nat) : Nat := d.get Reg.ldg_COUNT [k]

/-- CAP of kind k, per engine and Tide. -/
def capOf (k : Nat) : Nat :=
  match k with
  | 0x8 => 2380000 | 0x9 => 1280000 | 0xA => 1280000 | 0xB => 12500000
  | _ => bookable

/-- The Ledger writes each capacity pair, once start-up has reached step 8 (R89, R619). -/
def Dev.publish (d : Dev) : Dev :=
  if d.get Reg.dev_STEP < 8 then d
  else (List.range 12).foldl (fun d k =>
    (d.set Reg.ldg_CAP (if d.serviceCount k = 0 then 0 else capOf k) [k]).set Reg.ldg_COUNT (d.countNow k) [k]) d

/-- A capacity as new work may use it: lowered while derating is in force (R79). -/
def Dev.derate (d : Dev) (n : Nat) : Nat :=
  if d.flag Reg.ldg_DERATED then n * (100 - min 100 (d.get Reg.ldg_DERATE_PCT)) / 100 else n

/-- Whether the engines of a kind form one pool: the Abacus lanes and the Bond's pipelines. -/
def isPool (k : Nat) : Bool := k == 4 || k == 7

/-- The unit that a kind's bookings stand against: an engine, or the pool. -/
def poolUnit (k i : Nat) : UnitId := ⟨k, if isPool k then 0 else i⟩

/-- The published capacity per Tide of what `u` stands for. -/
def Dev.published (d : Dev) (u : UnitId) : Nat := if isPool u.kind then d.countOf u.kind * bookable else d.get Reg.ldg_CAP [u.kind]

/-! ### Figures (R70) -/

/-- What an operation of an admission books, or would: its unit, its share, its figures by Tide, its last Tide. -/
structure Booking where
  unit : UnitId
  share : Nat
  tides : List (Nat × Nat)
  finish : Nat
  deriving DecidableEq, Repr

/-- The bookings that admissions hold. -/
def Dev.bookings (d : Dev) : List Booking :=
  (d.wfg.slots.filter fun s => s.admitted && !s.detached).filterMap fun s =>
    s.engine.map fun u => ⟨u, s.share, s.booked, s.finish⟩

/-- The standing figure of a unit. -/
def standingOf (bs : List Booking) (u : UnitId) : Nat := ((bs.filter (·.unit == u)).map (·.share)).sum

/-- The one-shot figure of a unit in a Tide. -/
def oneshotOf (bs : List Booking) (u : UnitId) (t : Nat) : Nat :=
  ((bs.filter (·.unit == u)).map fun b => (assoc? t b.tides).getD 0).sum

/-- The largest one-shot figure of a unit in the calendar's Tides (R64). -/
def Dev.peakOf (d : Dev) (bs : List Booking) (u : UnitId) : Nat :=
  ((List.range 128).map fun i => oneshotOf bs u (d.tide + i)).foldl max 0

/-! ### Forward pools (R75, R76) -/

/-- The charge per second of a reservation on pool k. -/
def Reserve.charge (r : Reserve) (k : Nat) : Nat :=
  match k with
  | 0x8 => r.rateIn
  | 0x7 => (r.rateIn + r.members * r.rateOut) * ceilDiv r.maxFrame 16
  | 0x9 | 0xA => r.members * r.rateOut
  | 0xB => r.members * r.rateOut * (r.maxFrame + 20)
  | _ => 0

/-- The live reservations. -/
def Dev.reserves (d : Dev) : List Reserve :=
  d.ldg.adms.filterMap fun a => match a.kind with
    | .reserve r => some r
    | _ => none

/-- The charges per second on pool k; for the Quays, on logical port `l`. -/
def Dev.charged (d : Dev) (k l : Nat) : Nat :=
  ((d.reserves.filter fun r => k != 0xB || r.lport == l).map (·.charge k)).sum

/-- What an admission may book of a unit's capacity: what derating and, on the Bond, reservations leave. -/
def Dev.capFor (d : Dev) (u : UnitId) : Nat :=
  d.derate (d.published u) - (if u.kind = 7 then ceilDiv (d.charged 7 0) 1000 else 0)

/-! ### Queries (R92) -/

/-- BOOKED and STANDING of a query. -/
def Dev.queried (d : Dev) (k i ofs : Nat) : Nat × Nat :=
  if 0x8 ≤ k then
    let there := if k = 0xB then d.portExists i else decide (i = 0) && decide (0 < d.countOf k)
    let n := ceilDiv (d.charged k i) 1000
    if k ≤ 0xB ∧ there then (n, n) else (0, 0)
  else if (if isPool k then decide (0 < d.countOf k) && i == 0 else decide (i < d.serviceCount k) && d.unitExists ⟨k, i⟩) then
    let bs := d.bookings
    let u := poolUnit k i
    (standingOf bs u + oneshotOf bs u (d.tide + ofs), standingOf bs u)
  else (0, 0)

/-- LDG_QUERY selects an engine and a Tide. -/
def Dev.ldgQuery (d : Dev) (w : Nat) : Dev :=
  if d.live ldgPage then
    ((d.set Reg.ldg_QUERY_KIND (bits w 31 28)).set Reg.ldg_QUERY_INDEX (bits w 26 16)).set Reg.ldg_QUERY_TIDE_OFS (bits w 6 0)
  else d

end Sys2Proof.Machine
end

