-- ==== Sys2Proof/Machine/Check.lean ====
section
/-!
DEFINITION. The checks of descriptors (R60, R94, R96–R98, R270, R328, R409, R420, R455, R471, R477, R492, R595).
-/

namespace Sys2Proof.Machine

/-- What a set of descriptors is checked in: the descriptors by index, the layouts that its CMPs name, its tenant, its
Basin, whether it is a Manifest and stands, PIER_MASK. -/
structure Checked where
  ops : List (List Word)
  layouts : List (Nat × List Word)
  tenant : Nat
  basin : Option Nat
  manifest : Bool
  standing : Bool
  mask : Nat
  deriving DecidableEq, Repr

/-- The descriptor with an index. -/
def Checked.op (m : Checked) (i : Nat) : List Word := m.ops.getD i []

/-- The indices of the descriptors of a KIND. -/
def Checked.ofKind (m : Checked) (k : Nat) : List Nat :=
  (List.range m.ops.length).filter fun i => Desc.kind (m.op i) == k

/-- The layout block a CMP names, if it can be read. -/
def Dev.readLayout (d : Dev) (a : Nat) : Dev × Option (List Word) :=
  match d.holdWords a 8 cmpPage with
  | (d, .error _) => (d, none)
  | (d, .ok h) =>
    let n := 8 * (min 32 (layerCount h) + 1)
    match d.holdWords a n cmpPage with
    | (d, .error _) => (d, none)
    | (d, .ok l) => (d, some l)

/-- The layouts of the CMPs among descriptors, by index. -/
def Dev.readLayouts (d : Dev) (ops : List (List Word)) : Dev × List (Nat × List Word) :=
  (List.range ops.length).foldl (fun (acc : Dev × List (Nat × List Word)) i =>
    let w := ops.getD i []
    if Desc.kind w = opCMP then
      match acc.1.readLayout (Desc.auxAddr w) with
      | (d, some l) => (d, acc.2 ++ [(i, l)])
      | (d, none) => (d, acc.2)
    else acc) (d, [])

/-! ### Step 1: units (R60, R328) -/

/-- Whether no engine of a KIND is in service; a reserved KIND names none. -/
def Dev.noUnit (d : Dev) (w : List Word) : Bool :=
  decide (Desc.kind w ≤ 0xA) &&
  ((d.serving (unitKindOf (Desc.kind w))).isEmpty || (Desc.kind w == opMIX && !d.flag Reg.abx_EN) ||
    (Desc.kind w == opCRY && !d.flag Reg.bnd_EN))

/-! ### Step 2: tenants -/

/-- The mix a MIX descriptor names. -/
def mixNumber (w : List Word) : Nat := bits (Desc.param w 0) 28 16

/-- The tenant of the context that a descriptor names, if it has one. -/
def Dev.ctxTenant (d : Dev) (w : List Word) : Option Nat :=
  match Desc.kind w with
  | 0x0 => d.decTenant w
  | 0x2 => (d.view? (Desc.ctx w)).map View.tenant
  | 0x3 => (d.svy? (Desc.ctx w)).map SvyCtx.tenant
  | 0x4 => (d.tail? (Desc.ctx w)).map TailCtx.tenant
  | 0x7 => d.mixTenant (mixNumber w)
  | _ => none

/-- Whether a tail's tenant differs from its Survey context's, or from that of its group's records (R455). -/
def Dev.tailForeign (d : Dev) (w : List Word) : Bool :=
  match d.tail? (Desc.ctx w) with
  | none => false
  | some x =>
    ((d.svy? x.survey).map SvyCtx.tenant).any (· != x.tenant) ||
    (d.receivers ((d.tail? (x.base (Desc.ctx w))).getD x).group).any fun b => d.rowGet b RowF.TENANT != x.tenant

/-- Whether a descriptor names something of another tenant. -/
def Dev.opForeign (d : Dev) (m : Checked) (i : Nat) : Bool :=
  let w := m.op i
  let b := Desc.berth w
  (Desc.queues w).any (fun q => d.get Reg.wfg_Q_TENANT [q] != m.tenant) ||
  (b != noBerth && decide (b < d.rowCount) && d.rowState b != stFree && d.rowGet b RowF.TENANT != m.tenant) ||
  (d.ctxTenant w).any (· != m.tenant) ||
  (Desc.kind w == opLTR && d.tailForeign w) ||
  (Desc.kind w == opCMP && (((assoc? i m.layouts).map layersOf).getD []).any (d.layerForeign m.tenant)) ||
  (Desc.kind w == opXFR && m.tenant != 0)

/-! ### Step 3: fields and parameters -/

/-- The bits of words 0–9 and 15 that R96 leaves reserved. -/
def descReserved : List Word := [0x01000000, 0, 0, 0x70007000, 0x80008000, 0, 0xFC000000, 0, 0, 0, 0, 0, 0, 0, 0, 0xFFFF0000]

/-- The bits of PARAM0–PARAM4 that no rule gives a KIND. -/
def paramReserved (kind : Nat) : List Word :=
  match kind with
  | 0x0 => [0, 0, 0xFFFF0000, 0, 0]
  | 0x2 => [0, 0xFFFFFF00, 0xFFFFFFFF, 0xFFFFFFFF, 0xFFFFFFFF]
  | 0x3 => [0, 0xFFFFFFFF, 0xFFFFFFFF, 0xFFFFFFFF, 0xFFFFFFFF]
  | 0x4 => [0, 0, 0xFFFFFFFF, 0xFFFFFFFF, 0xFFFFFFFF]
  | 0x7 => [0xE000FF80, 0xFFFFFFFF, 0xFFFFFFFF, 0xFFFFFFFF, 0xFFFFFFFF]
  | 0x9 => [0xFE000000, 0xFFFFFFFC, 0, 0, 0xFFFFFFFF]
  | 0xA => [0, 0xFFFFFFF0, 0xFF000000, 0xFF000000, 0xFFFFFFFF]
  | _ => [0, 0, 0, 0, 0]

/-- Whether a reserved bit of a descriptor is set. -/
def descBits (w : List Word) : Bool :=
  ((List.range 16).any fun i => (wordAt w i &&& descReserved.getD i 0) != 0) ||
  ((List.range 5).any fun i => (wordAt w (10 + i) &&& (paramReserved (Desc.kind w)).getD i 0) != 0)

/-- Whether an ORDERED descriptor may not use its flow (R98). -/
def Dev.flowTaken (d : Dev) (m : Checked) (i : Nat) : Bool :=
  let w := m.op i
  Desc.ordered w &&
  (match d.flow? (Desc.flowId w) with
    | none => false
    | some f => m.manifest || f.owner != .tenant m.tenant) ||
  (m.manifest && Desc.ordered w && (List.range m.ops.length).any fun j =>
    j != i && Desc.ordered (m.op j) && Desc.flowId (m.op j) == Desc.flowId w)

/-- What descriptors reserve in a queue, in items. -/
def Checked.reserves (m : Checked) (q : Nat) : Nat :=
  (m.ops.map fun w => (if Desc.inQueue w = some q then Desc.inReserve w else 0) +
    (if Desc.outQueue w = some q then Desc.outReserve w else 0)).sum

/-- Whether a descriptor names a queue in which the reservations exceed the free unreserved space (R98). -/
def Dev.spaceShort (d : Dev) (m : Checked) (i : Nat) : Bool :=
  ((Desc.inQueue (m.op i)).toList ++ (Desc.outQueue (m.op i)).toList).any fun q =>
    m.reserves q != 0 && !d.openRoom q (m.reserves q)

/-- What R98 refuses in a descriptor, whatever its kind. OP_INDEX of an unbooked descriptor may be anything, and its predecessors
are not waited for (DESIGN CHOICE, log entry 131). -/
def Dev.opMalformed (d : Dev) (m : Checked) (i : Nat) : Bool :=
  let w := m.op i
  let k := Desc.kind w
  descBits w || decide (0xB ≤ k) || (Desc.preds w).any (fun p => decide (Desc.opIndex w ≤ p)) ||
  (if m.manifest then
    Desc.opIndex w != i || Desc.cls w != (if k = opMIX then 0 else 1) || Desc.window w == 0 || decide (128 < Desc.window w) ||
    (m.standing && Desc.cadence w != 0 && decide (Desc.cadence w < Desc.window w)) ||
    (m.standing && k != opCMP && Desc.cadence w == 0 && (Desc.preds w).isEmpty && (Desc.inQueue w).isNone)
  else decide (Desc.cls w < 2) || k == opMIX || (k == opCRY && Desc.cls w == 3) || Desc.window w != 0 || Desc.cadence w != 0) ||
  d.flowTaken m i || d.spaceShort m i || (Desc.berth w != noBerth && decide (d.rowCount ≤ Desc.berth w))

/-- The piers whose cores the Ledger may book for a task (R37, R74, R409): allowed, the affinity pier of its row, and serving its
number with its KIND. -/
def Dev.taskPiers (d : Dev) (mask : Nat) (w : List Word) : List (Nat × RkTask) :=
  let b := Desc.berth w
  (List.range 8).filterMap fun p =>
    if (mask ≠ 0 ∧ bitAt mask p = false) ∨ (Desc.kind w ≠ opDSP ∧ b ≠ noBerth ∧ d.rowGet b RowF.AFFINITY ≠ p) then none
    else (d.task? p (Desc.param w 0 % 65536) (Desc.kind w)).map fun t => (p, t)

/-- The tasks of the enabled, LOADED piers that hold a task's number with its KIND (R102, R409). -/
def Dev.taskHolders (d : Dev) (w : List Word) : List RkTask :=
  (List.range 8).filterMap fun p => d.task? p (Desc.param w 0 % 65536) (Desc.kind w)

/-- Whether a task's descriptor is refused (R74, R102, R409). -/
def Dev.taskRefused (d : Dev) (m : Checked) (i : Nat) : Bool :=
  let w := m.op i
  let b := Desc.berth w
  (Desc.kind w != opDSP && b != noBerth && (d.rowState b == stFree ||
    decide (8 ≤ d.rowGet b RowF.AFFINITY) || !d.pierPresent (d.rowGet b RowF.AFFINITY))) ||
  (if m.manifest then (d.taskPiers m.mask w).isEmpty else (d.taskHolders w).isEmpty) ||
  (m.standing && (d.taskPiers m.mask w).all fun x => decide (bookable < ceilDiv x.2.cycles (max 1 (Desc.window w))))

/-! #### Chains of an encode (R455, R471, R492) -/

/-- The longest sum of WINDOW from a tail back through the tails it names, itself included; `f` keeps the tails that count. -/
def Checked.tailSpan (m : Checked) : Nat → Nat → Nat
  | 0, _ => 0
  | n + 1, i =>
    Desc.window (m.op i) + (((Desc.preds (m.op i)).filter fun j => Desc.kind (m.op j) == opLTR).map (m.tailSpan n)).foldl max 0

/-- The longest sum over the tails that read a Survey context at the levels `p` takes. -/
def Dev.encodeSpan (d : Dev) (m : Checked) (svy : Nat) (p : Nat → Bool) : Nat :=
  ((m.ofKind opLTR).filter fun i =>
    match d.tail? (Desc.ctx (m.op i)) with
    | some x => x.survey == svy && p x.slevel
    | none => false).map (m.tailSpan 256) |>.foldl max 0

/-- Whether the Survey context's DEPTH is too small for the tails that read it (R471), `w` being the SVY's window. -/
def Dev.depthShort (d : Dev) (m : Checked) (svy : Nat) (w : Nat) : Bool :=
  match d.svy? svy with
  | none => true
  | some x => decide (x.depth < 1 + ceilDiv (d.encodeSpan m svy fun _ => true) (max 1 w))

/-- The tails of a Survey stream besides that of operation `i`: those bound, and those the Manifest names before it (R45). -/
def Dev.surveyTails (d : Dev) (m : Checked) (svy i : Nat) : Nat :=
  let reads := fun (w : List Word) => Desc.kind w == opLTR && ((d.tail? (Desc.ctx w)).map TailCtx.survey) == some svy
  (d.wfg.slots.filter fun s => reads s.desc).length + ((m.ofKind opLTR).filter fun j => decide (j < i) && reads (m.op j)).length

/-- Whether an LTR descriptor is refused (R455, R471); a Survey stream has at most 16 tails (R45). -/
def Dev.ltrRefusal (d : Dev) (m : Checked) (i : Nat) : Bool :=
  let w := m.op i
  let t := Desc.ctx w
  match d.tail? t with
  | none => true
  | some x =>
    match d.svy? x.survey with
    | none => true
    | some v =>
      let y := (d.tail? (x.base t)).getD x
      let vw := v.width / 2 ^ x.slevel
      let vh := v.height / 2 ^ x.slevel
      let rows := blocksY v.height x.slevel
      let st := d.stream y.group y.stream
      let svys := (Desc.preds w).filter fun j => Desc.kind (m.op j) == opSVY && Desc.ctx (m.op j) == x.survey
      let below := (Desc.preds w).any fun j => Desc.kind (m.op j) == opLTR &&
        match d.tail? (Desc.ctx (m.op j)) with
        | some z => z.chain && z.chainBase == x.chainBase && z.spatial + 1 == x.spatial
        | none => false
      d.ctxBound opLTR t || svys.isEmpty || decide (16 ≤ d.surveyTails m x.survey i) || (x.chain && x.spatial != 0 && !below) ||
      decide (sizeW (Desc.param w 0) ≠ vw) || decide (sizeH (Desc.param w 0) ≠ vh) ||
      decide (vw < 64) || decide (3840 < vw) || decide (vh < 64) || decide (2160 < vh) ||
      (x.codec != 3 && decide (levelFrame x.codec x.level < vw * vh)) ||
      decide (Desc.param w 1 < 1280 + rows * (32 + 4 * blocksX v.width x.slevel)) || decide (67108864 < Desc.param w 1) ||
      decide (Desc.param w 1 < avgBits x.kbps v.rate) ||
      !st.valid || st.src != noBerth ||
      d.enc.tails.any (fun z => z.2.base z.1 != x.base t &&
        (z.2.chain == false || z.2.chainBase == z.1) && z.2.group == y.group && z.2.stream == y.stream) ||
      (decide (x.codec ≤ 2) && decide (1 < v.temporal) && d.get Reg.fry_FM_ID == 0) ||
      (x.codec == 5 && d.get Reg.fry_DD_ID == 0) ||
      svys.any fun j => d.depthShort m x.survey (Desc.window (m.op j))

/-- Whether an SVY reads what a CMP makes: it names it as a predecessor, or takes its items. -/
def readsView (cmp svy : List Word) : Bool :=
  (Desc.preds svy).contains (Desc.opIndex cmp) || ((Desc.outQueue cmp).isSome && Desc.outQueue cmp == Desc.inQueue svy)

/-- Whether a CMP descriptor is refused (R477, R479, R492). -/
def Dev.cmpRefusal (d : Dev) (m : Checked) (i : Nat) : Bool :=
  let w := m.op i
  match d.view? (Desc.ctx w), assoc? i m.layouts with
  | some x, some l =>
    let every := 1000000 / max 1 x.rate
    let n := Desc.param w 1
    let svys := (m.ofKind opSVY).filter fun j => readsView w (m.op j)
    let deep := fun (j : Nat) =>
      1 + (Desc.window w + Desc.window (m.op j) + d.encodeSpan m (Desc.ctx (m.op j)) (· == 0) - 1) / max 1 every
    d.viewBound (Desc.ctx w) || decide (sizeW (Desc.param w 0) ≠ x.width) || decide (sizeH (Desc.param w 0) ≠ x.height) ||
    n == 0 || decide (32 < n) || decide (n < layerCount l) || !d.layoutOk (Desc.ctx w) x l ||
    Desc.cadence w != 0 || !(Desc.preds w).isEmpty || decide (every < Desc.window w) ||
    decide (x.outDepth < 2) || svys.any (fun j => decide (x.outDepth < deep j)) ||
    svys.any fun j => match d.svy? (Desc.ctx (m.op j)) with
      | some v => v.rate != x.rate || v.hp10 != x.hp10
      | none => false
  | _, _ => true

/-- Whether an SVY descriptor is refused: its context is not valid, or its size is not the context's. -/
def Dev.svyRefusal (d : Dev) (w : List Word) : Bool :=
  match d.svy? (Desc.ctx w) with
  | none => true
  | some x => decide (sizeW (Desc.param w 0) ≠ x.width) || decide (sizeH (Desc.param w 0) ≠ x.height)

/-- Whether a MIX descriptor is refused (R328, R97). -/
def Dev.mixRefusal (d : Dev) (m : Checked) (i : Nat) : Bool :=
  let w := m.op i
  let c := Desc.param w 0 % 128
  !m.standing || Desc.window w != 1 || Desc.cadence w != 1 || m.basin.isNone || (d.mix (mixNumber w)).basin != m.basin ||
  c == 0 || decide (64 < c) || (d.mixSlot (mixNumber w)).isSome ||
  (m.ofKind opMIX).any (fun j => decide (j < i) && mixNumber (m.op j) == mixNumber w) ||
  decide (c < (d.entriesInUse (mixNumber w)).length)

/-- What a descriptor's own kind refuses with REFUSED_PARAM. -/
def Dev.kindRefused (d : Dev) (m : Checked) (i : Nat) : Bool :=
  let w := m.op i
  match Desc.kind w with
  | 0x0 => d.decRefusal w (d.ctxBound opDEC (Desc.ctx w))
  | 0x2 => d.cmpRefusal m i
  | 0x3 => d.svyRefusal w
  | 0x4 => d.ltrRefusal m i
  | 0x7 => d.mixRefusal m i
  | 0x9 => d.xfrRefusal w m.manifest
  | 0xA => cryRefusal w
  | 0x5 | 0x6 | 0x8 => d.taskRefused m i
  | _ => false

/-- The layer pixels that a CMP's layout fetches. -/
def Dev.fetchedOf (d : Dev) (m : Checked) (i : Nat) : Nat :=
  match d.view? (Desc.ctx (m.op i)), assoc? i m.layouts with
  | some x, some l => fetchedPixels x.width x.height l
  | _, _ => 0

/-- Whether the share of a standing operation other than a task exceeds what one engine may book (R71). -/
def Dev.shareLarge (d : Dev) (m : Checked) (i : Nat) : Bool :=
  let w := m.op i
  m.standing && !isTask (Desc.kind w) && decide (bookable < ceilDiv (opCost w (d.fetchedOf m i) 0) (max 1 (Desc.window w)))

/-- Steps 2 and 3 of R60 over descriptors: the first failure and the index it was found at. -/
def Dev.checkOps (d : Dev) (m : Checked) : Option (Status × Nat) :=
  let all := List.range m.ops.length
  match all.find? (d.opForeign m) with
  | some i => some (.refusedTenant, i)
  | none =>
    (all.find? fun i => d.opMalformed m i || d.kindRefused m i || d.shareLarge m i).map fun i => (Status.refusedParam, i)

end Sys2Proof.Machine
end

