-- ==== Sys2Proof/Machine/Admit.lean ====
section
/-!
DEFINITION. Admission by the Ledger (R58–R66, R70–R76, R88–R91, R94, R95, R293–R296): Manifests, reservations,
withdrawals.
-/

namespace Sys2Proof.Machine

/-! ### The search of R73 -/

/-- The engines that may take a descriptor in rotated order, each with the operation's cost there (R53, R73, R74). -/
def Dev.candidates (d : Dev) (m : Checked) (i : Nat) : List (UnitId × Nat) :=
  let w := m.op i
  let k := unitKindOf (Desc.kind w)
  if isPool k then [(poolUnit k 0, opCost w 0 0)]
  else
    let piers := d.taskPiers m.mask w
    let cost := opCost w (d.fetchedOf m i) 0
    (rotated (d.serviceCount k) d.tide).filterMap fun e =>
      let u : UnitId := ⟨k, e⟩
      if !d.inService u then none
      else if isTask (Desc.kind w) then (assoc? u.pier piers).map fun t => (u, t.cycles)
      else if k ≤ 3 ∧ m.mask ≠ 0 ∧ bitAt m.mask u.pier = false then none
      else some (u, cost)

/-- `fill_finish` of R73: the last Tide of `c` cycles filled in from Tide `t` on, and the cycles by Tide. -/
def fillFinish (cap standing : Nat) (one : Nat → Nat) (last : Nat) : Nat → Nat → Nat → Option (Nat × List (Nat × Nat))
  | 0, _, _ => none
  | k + 1, t, c =>
    if c = 0 then some (t - 1, [])
    else if last < t then none
    else
      let x := min c (cap - standing - one t)
      (fillFinish cap standing one last k (t + 1) (c - x)).map fun r => (r.1, if x = 0 then r.2 else (t, x) :: r.2)

/-- The first engine on which a standing operation fits. -/
def Dev.fitStanding (d : Dev) (bs : List Booking) (rel window : Nat) : List (UnitId × Nat) → Option Booking
  | [] => none
  | (u, cost) :: rest =>
    let s := ceilDiv cost (max 1 window)
    if standingOf bs u + s + d.peakOf bs u ≤ d.capFor u then some ⟨u, s, [], rel + window - 1⟩
    else d.fitStanding bs rel window rest

/-- The engine that finishes a one-shot operation earliest, the first met among equals, by its deadline. -/
def Dev.fitOneshot (d : Dev) (bs : List Booking) (rel deadline : Nat) (l : List (UnitId × Nat)) : Option Booking :=
  l.foldl (fun best x =>
    match fillFinish (d.capFor x.1) (standingOf bs x.1) (oneshotOf bs x.1) (d.tide + 127) 200 rel x.2 with
    | none => best
    | some (f, ts) =>
      if deadline < f then best
      else match best with
        | none => some ⟨x.1, 0, ts, f⟩
        | some b => if f < b.finish then some ⟨x.1, 0, ts, f⟩ else best) none

/-- The Tide an operation is released in, its predecessors ending at their deadlines (R72, R73). -/
def releaseOf (m : Checked) (trial : List Booking) (start i : Nat) : Nat :=
  match Desc.preds (m.op i) with
  | [] => start
  | l => (l.map fun j => (trial[j]?.map (·.finish)).getD 0 + 1).foldl max 0

/-- The search over the descriptors in order: their bookings, or the index of the first that finds no engine. -/
def Dev.search (d : Dev) (m : Checked) (start deadline : Nat) : Except Nat (List Booking) :=
  (List.range m.ops.length).foldl (fun acc i =>
    match acc with
    | .error j => .error j
    | .ok trial =>
      let bs := d.bookings ++ trial
      let rel := releaseOf m trial start i
      let found := if m.standing then d.fitStanding bs rel (Desc.window (m.op i)) (d.candidates m i)
        else d.fitOneshot bs rel deadline (d.candidates m i)
      match found with
      | some b => .ok (trial ++ [b])
      | none => .error i) (.ok [])

/-- ADMIT_SPAN of a standing admission: the longest sum of WINDOW over a dependency path (R84). -/
def spanOf (m : Checked) : Nat :=
  ((List.range m.ops.length).foldl (fun (l : List Nat) i =>
    l ++ [Desc.window (m.op i) + ((Desc.preds (m.op i)).map fun j => l.getD j 0).foldl max 0]) []).foldl max 0

/-! ### Results (R90, R93) -/

/-- The outcome of an admission port (R90): its status, the failed operation and the kind that was short, the handle, the first
Tide and the span; a field that the outcome has nothing for reads 0. -/
def Dev.ldgResult (d : Dev) (p : Nat) (st : Status) (failOp failKind : Option Nat := none) (handle first span : Nat := 0) : Dev :=
  let d := (d.set Reg.ldg_ADMIT_VALID 1 [p]).set Reg.ldg_ADMIT_STATUS st.code [p]
  let d := (d.set Reg.ldg_ADMIT_FAIL_OP (failOp.getD 0) [p]).set Reg.ldg_ADMIT_FAIL_KIND (failKind.getD 0) [p]
  let d := (d.set Reg.ldg_ADMIT_HANDLE handle [p]).set64 Reg.ldg_ADMIT_FIRST_TIDE_LO Reg.ldg_ADMIT_FIRST_TIDE_HI first [p]
  (d.set Reg.ldg_ADMIT_SPAN span [p]).raise ldgPage (if st = .done then 0 else 1)

/-- A handle that no admission holds; which of them, the spec leaves open. -/
def Dev.newHandle (d : Dev) : Dev × Option Nat :=
  let (d, n) := d.draw
  (d, probe (d.ldg.adms.map (·.handle)) 1 65535 (min 65535 (d.ldg.adms.length + 1)) n)

/-! ### Manifests -/

/-- The view of an admitted CMP takes its first layout and what the admission booked for it (R477, R489). -/
def Dev.viewAdmitted (d : Dev) (m : Checked) (i : Nat) : Dev :=
  let w := m.op i
  match Desc.kind w == opCMP, d.view? (Desc.ctx w), assoc? i m.layouts with
  | true, some x, some l =>
    d.setView (Desc.ctx w) { x with
      layout := l.take (8 * (layerCount l + 1)), inUse := [], layers := [],
      fBooked := fetchedPixels x.width x.height l, maxLayers := Desc.param w 1 }
  | _, _, _ => d

/-- The slot of an admitted operation. -/
def Dev.slotOf (d : Dev) (m : Checked) (handle start num i : Nat) (b : Booking) : Slot :=
  { num := num, order := d.wfg.order + i, owner := .adm handle, desc := m.op i, tenant := m.tenant, engine := some b.unit,
    share := b.share, booked := b.tides, finish := b.finish, nextCadence := start, standing := m.standing }

/-- An admission is committed: slots, flows and views. -/
def Dev.commit (d : Dev) (m : Checked) (handle start deadline : Nat) (bs : List Booking) : Dev :=
  let (d, n) := d.draw
  let nums := d.generalSlots n m.ops.length
  let slots := (List.range m.ops.length).filterMap fun i =>
    (bs[i]?).map fun b => d.slotOf m handle start (nums.getD i 0) i b
  let flows : List Flow := ((List.range m.ops.length).filter fun i => Desc.ordered (m.op i)).map fun i =>
    { id := Desc.flowId (m.op i), owner := .adm handle, next := Desc.flowSeq (m.op i), held := [] }
  let d := { d with wfg := { d.wfg with
    slots := d.wfg.slots ++ slots, order := d.wfg.order + m.ops.length, flows := d.wfg.flows ++ flows } }
  let kind : AdmKind := if m.standing then .standing else .oneshot deadline
  let adm : Admission := { handle := handle, tenant := m.tenant, kind := kind, start := start, basin := m.basin }
  let d := { d with ldg := { d.ldg with adms := d.ldg.adms ++ [adm] } }
  (List.range m.ops.length).foldl (fun (d : Dev) i => d.viewAdmitted m i) d

/-- What refuses a Manifest's header or the command that names it (R12, R60, R64, R66, R94). -/
def Dev.headerBad (d : Dev) (w h : List Word) (count start deadline : Nat) (standing : Bool) : Bool :=
  let basin := wfld h 3 11 0
  (wordAt w 0 &&& 0x00FFFFC0) != 0 || (wordAt w 1 &&& 0xFF) != 0 || (wordAt w 2 &&& 0xFFFFFF00) != 0 ||
  (wordAt w 3 &&& 0xFFFFFE00) != 0 || (wordAt w 6 &&& 0xFFFFFF80) != 0 || (wordAt w 7 &&& 0xFFFFFF00) != 0 ||
  count == 0 || decide (256 < count) ||
  wfld h 0 31 16 != 0x4D4E || wfld h 0 15 8 != 1 || wfld h 0 7 0 != 0 || wfld h 1 31 0 != count ||
  wfld h 2 31 0 != wfld w 0 5 0 || (wordAt h 3 &&& 0xFFFFE000) != 0 || ((h.drop 4).take 12).any (· != 0) ||
  (wfld h 3 12 12 == 1 && (d.basinTenant basin).isNone) ||
  decide (start < d.tide + 2) || decide (d.tide + 127 < start) ||
  (!standing && (wfld w 6 6 0 == 0 || decide (d.tide + 127 < deadline)))

/-- Step 4 of R60 and the commit. -/
def Dev.admitBudget (d : Dev) (p : Nat) (m : Checked) (start deadline : Nat) : Dev :=
  let ordered := (m.ops.filter Desc.ordered).length
  if d.freeGeneral < m.ops.length then d.ldgResult p .refusedBudget
  else if 4096 < d.wfg.flows.length + ordered then d.ldgResult p .refusedBudget none (some 6)
  else
    match d.search m start deadline with
    | .error i => d.ldgResult p .refusedBudget (some i) (some (unitKindOf (Desc.kind (m.op i))))
    | .ok bs =>
      match d.newHandle with
      | (d, none) => d.ldgResult p .refusedBudget
      | (d, some handle) =>
        let d := d.commit m handle start deadline bs
        d.ldgResult p .done none none handle start (if m.standing then spanOf m else deadline - start)

/-- The checks of a Manifest that was read whole, in the order of R60. A PIER_MASK that names absent piers only names no unit
that is there (R5). -/
def Dev.admitRead (d : Dev) (p : Nat) (w h : List Word) (ops : List (List Word)) (standing : Bool) : Dev :=
  let count := wfld w 3 8 0
  let given := wfld w 4 31 0 + 2 ^ 32 * wfld w 5 31 0
  let start := if given = 0 then d.tide + 2 else given
  let deadline := start + wfld w 6 6 0
  let mask := wfld w 7 7 0
  if mask ≠ 0 ∧ (List.range 8).all (fun n => !bitAt mask n || !d.pierPresent n) then d.ldgResult p .refusedNoUnit
  else match ((List.range ops.length).find? fun i => d.noUnit (ops.getD i [])) with
  | some i => d.ldgResult p .refusedNoUnit (some i) (some (unitKindOf (Desc.kind (ops.getD i []))))
  | none =>
    let (d, layouts) := d.readLayouts ops
    let basin := if wfld h 3 12 12 = 1 then some (wfld h 3 11 0) else none
    let m : Checked := ⟨ops, layouts, wfld w 0 5 0, basin, true, standing, mask⟩
    let basinForeign := (basin.bind d.basinTenant).any (· != m.tenant)
    match d.checkOps m with
    | some (.refusedTenant, i) => d.ldgResult p .refusedTenant (some i)
    | other =>
      if basinForeign then d.ldgResult p .refusedTenant
      else if d.headerBad w h count start deadline standing then d.ldgResult p .refusedParam
      else match other with
        | some (_, i) => d.ldgResult p .refusedParam (some i)
        | none => d.admitBudget p m start deadline

/-- An admission of a Manifest (R95: it is read once, before any check of R60). -/
def Dev.admitManifest (d : Dev) (p : Nat) (w : List Word) (standing : Bool) : Dev :=
  let addr := wfld w 1 31 8 * 256 + 2 ^ 32 * wfld w 2 7 0
  let n := min 256 (wfld w 3 8 0)
  match d.holdWords addr (16 * (n + 1)) ldgPage with
  | (d, .error _) => d.ldgResult p .refusedParam
  | (d, .ok ws) => d.admitRead p w (ws.take 16) ((List.range n).map fun i => slice ws (16 * (i + 1)) 16) standing

/-! ### Reservations (R66, R76, R142, R293–R296) -/

/-- The reservation a command describes. -/
def reserveOf (w : List Word) : Reserve :=
  ⟨wfld w 3 31 31 == 1, wfld w 1 24 0, wfld w 2 31 0, wfld w 3 13 0, wfld w 4 24 0, wfld w 5 3 0, wfld w 6 31 0⟩

/-- The first pool that is short, in the order of R76's table. -/
def Dev.poolShort (d : Dev) (r : Reserve) : Option Nat :=
  let bs := d.bookings
  let bond := poolUnit 7 0
  [0x8, 0x7, 0x9, 0xA, 0xB].find? fun k =>
    let cap := if k = 7 then d.published bond else if k = 0xB then 12500000 * (d.portRate r.lport / 100) else capOf k
    let booked := if k = 7 then 1000 * (standingOf bs bond + d.peakOf bs bond) else 0
    decide (1000 * d.derate cap < d.charged k r.lport + booked + r.charge k)

/-- The wheel of a segment: m of R295 on a port, and the lanes a fan reservation needs. -/
def Dev.wheelM (d : Dev) (l : Nat) : Nat := 10000000 / max 1 (d.get Reg.fry_CELL [l]) / 16
def Dev.wheelN (d : Dev) (r : Reserve) (pi : Nat) : Nat := ceilDiv r.members (max 1 (d.wheelM r.lport * pi))

/-- What a segment takes of the fan slot region, in bytes (R296). -/
def Segment.slotBytes (s : Segment) : Nat := 4 * s.lanes.length * s.m * s.pi

/-- Whether a fan reservation fails a wheel check (R296). -/
def Dev.wheelShort (d : Dev) (r : Reserve) (pi : Nat) : Bool :=
  let m := d.wheelM r.lport
  let n := d.wheelN r pi
  decide ((d.lanesFree r.lport).length < n) ||
  decide (1000 * min 0x500 (d.get Reg.fry_FAN_PEAK_MAX) < (d.fry.segs.map fun s => s.lanes.length * s.m).sum + n * m) ||
  decide (d.get Reg.fry_FAN_SLOT_SIZE * mib < (d.fry.segs.map Segment.slotBytes).sum + 4 * n * m * pi)

/-- Whether a reservation is refused for a field, its target or CELL. -/
def Dev.reserveBad (d : Dev) (w : List Word) (r : Reserve) : Bool :=
  (wordAt w 0 &&& 0x00FFFFC0) != 0 || (wordAt w 1 &&& 0xFE000000) != 0 || (wordAt w 3 &&& 0x7FFFC000) != 0 ||
  (wordAt w 4 &&& 0xFE000000) != 0 || (wordAt w 5 &&& 0xFFFFFFF0) != 0 || wordAt w 7 != 0 ||
  decide (r.maxFrame < 64) || decide (9600 < r.maxFrame) || !d.portExists r.lport ||
  (if r.fan then
    decide (65536 ≤ r.target) || (d.fan? r.target).isNone || (d.seg? r.target r.lport).isSome ||
    decide (d.get Reg.fry_CELL [r.lport] * d.portRate r.lport < (r.maxFrame + 20) * 80)
  else r.members != 1 || decide (d.rowCount ≤ r.target) || d.rowGet r.target RowF.PINNED != 1)

/-- A fan reservation's segment takes the lowest free lanes of its port (R295). -/
def Dev.segmentNew (d : Dev) (r : Reserve) (pi handle : Nat) : Dev :=
  let n := d.wheelN r pi
  let seg : Segment := ⟨r.target, r.lport, handle, (d.lanesFree r.lport).take n, d.wheelM r.lport, pi,
    d.get Reg.fry_CELL [r.lport], r.maxFrame, r.members, [], []⟩
  { d with fry := { d.fry with segs := d.fry.segs ++ [seg] } }

/-- RESERVE_FWD, in the order of R60 and R296. -/
def Dev.reserveFwd (d : Dev) (p : Nat) (w : List Word) : Dev :=
  let r := reserveOf w
  let tenant := wfld w 0 5 0
  let foreign := if r.fan then ((d.fan? r.target).map (·.tenant)).any (· != tenant)
    else decide (r.target < d.rowCount) && d.rowState r.target != stFree && d.rowGet r.target RowF.TENANT != tenant
  let pi := ((d.fan? r.target).map (·.pi)).getD 1
  if !d.live (qayPage r.lport) || [0x7, 0x8, 0x9, 0xA].any (fun k => (d.serving k).isEmpty) then d.ldgResult p .refusedNoUnit
  else if foreign then d.ldgResult p .refusedTenant
  else if d.reserveBad w r then d.ldgResult p .refusedParam
  else
    match d.poolShort r with
    | some k => d.ldgResult p .refusedBudget none (some k)
    | none =>
      if r.fan && d.wheelShort r pi then d.ldgResult p .refusedBudget none (some 9)
      else
        match d.newHandle with
        | (d, none) => d.ldgResult p .refusedBudget
        | (d, some handle) =>
          let adm : Admission := { handle := handle, tenant := tenant, kind := .reserve r, start := d.tide, basin := none }
          let d := { d with ldg := { d.ldg with adms := d.ldg.adms ++ [adm] } }
          let d := if r.fan then d.segmentNew r pi handle else d
          d.ldgResult p .done none none handle

/-! ### Ports -/

/-- The words of an admission port. -/
def Dev.admitWords (d : Dev) (p : Nat) : List Word := (List.range 8).map fun j => d.word (Reg.ldg_ADMIT_CMD.addrAt [p, j])

/-- GO of an admission port (R59, R66, R88, R198); it wakes every Hold channel (R520). The port is BUSY until device time moves
on, and a GO written to it until then is ignored and logged (R90, R93; log entry 24). -/
def Dev.ldgGo (d : Dev) (p : Nat) : Dev :=
  let w := d.admitWords p
  if !d.live ldgPage || decide (4 ≤ p) then d
  else if d.ldg.busy.contains p then d.raiseLog ldgPage 6 (detail := leBytes 8 (Reg.ldg_ADMIT_GO.addrAt [p]))
  else
  let d := { d with ldg := { d.ldg with busy := p :: d.ldg.busy } }.wakeChannels
  if !d.flag Reg.ldg_ADMIT_EN || !d.flag Reg.tkp_ANCHORED then d.ldgResult p .refusedNoUnit
  else
    match wfld w 0 31 24 with
    | 1 => d.admitManifest p w true
    | 2 => d.admitManifest p w false
    | 3 => d.reserveFwd p w
    | _ => d.ldgResult p .refusedParam

/-- The words of a command written to an admission port. -/
def Dev.ldgPosted (d : Dev) (op p : Nat) (words : List Word) : Dev :=
  let w := (List.range 8).map fun j => wordAt words j
  let w := w.set 0 (Word.withFld (wordAt w 0) 31 24 op)
  (List.range 8).foldl (fun (d : Dev) j => d.setWord (Reg.ldg_ADMIT_CMD.addrAt [p, j]) (wordAt w j)) d

/-- A command submitted through a port: its words written, then GO. -/
def Dev.ldgCmd (d : Dev) (op p : Nat) (words : List Word) : Dev :=
  if d.live ldgPage ∧ p < 4 then (d.ldgPosted op p words).ldgGo p else d

/-- A handle written to LDG_WITHDRAW (R65, R91). While a withdrawal is pending STATUS keeps the outcome before it, and two that
are pending share BUSY (DESIGN CHOICE, log entry 129). -/
def Dev.ldgWithdraw (d : Dev) (handle : Nat) : Dev :=
  if !d.live ldgPage then d
  else if d.ldg.adms.any (·.handle == handle) then
    let adms := d.ldg.adms.map fun (a : Admission) => if a.handle = handle then { a with ending := true, withdrawn := true } else a
    { d with ldg := { d.ldg with adms := adms } }.set Reg.ldg_WITHDRAW_BUSY 1
  else d.set Reg.ldg_WITHDRAW_STATUS Status.refusedParam.code

end Sys2Proof.Machine
end

