-- ==== Sys2Proof/Machine/Compose.lean ====
section
/-!
DEFINITION. The Layer Composer (R482–R494): what each layer of an instance draws, blending, and the pictures written.
-/

namespace Sys2Proof.Machine

/-! ### The start of an instance (R486–R491) -/

/-- An item kept as the newest of its output index, or refused (R486): the states, whether one was skipped or bad. -/
def keepItem (s : LayerState) (i : Item) : LayerState × Bool × Bool :=
  if i.type ≠ 2 then (s, false, true)
  else
    let o := i.meta6 / 2 ^ 22 % 4
    let p : LayerPic := ⟨i.addr, wfld i.words 4 31 0, bitAt i.meta6 19⟩
    ({ s with kept := assocSet o p s.kept }, (assoc? o s.kept).isSome, false)

/-- The items of a queue that are present, popped into a layer's state. -/
def Dev.layerPop (d : Dev) (q : Nat) (s : LayerState) : Nat → Dev × LayerState
  | 0 => (d, s)
  | n + 1 =>
    match d.take q with
    | (d, none) => (d, s)
    | (d, some i) =>
      let (s, skip, bad) := keepItem s i
      ((d.bump Reg.cmpCtl_LAYER_SKIP [] (bitOf skip)).bump Reg.cmpCtl_LAYER_BAD [] (bitOf bad)).layerPop q s n

/-- The items of a QUEUE layer's queue are shared by every layer of the view that names it. -/
def shareKept (l : List Word) (q : Nat) (got : List (Nat × LayerPic)) (states : List LayerState) : List LayerState :=
  states.zipIdx.map fun (s : LayerState × Nat) =>
    if namesSource srcQueue q (layerRec l s.2) then
      { s.1 with kept := got.foldl (fun k (x : Nat × LayerPic) => assocSet x.1 x.2 k) s.1.kept }
    else s.1

/-- Every queue a layout names, popped once. -/
def Dev.popLayers (d : Dev) (l : List Word) (states : List LayerState) : Dev × List LayerState :=
  let qs := (((layersOf l).filter fun r => Layer.kind r == srcQueue).map Layer.index).eraseDups
  qs.foldl (fun (acc : Dev × List LayerState) q =>
    let (d, got) := acc.1.layerPop q {} (acc.1.queue q).depth
    (d, shareKept l q got.kept acc.2)) (d, states)

/-- The picture a layer may use in a view picture (R486). -/
def Dev.layerPicture (d : Dev) (r : List Word) (s : LayerState) : Option LayerPic :=
  if Layer.kind r = srcQueue then assoc? (Layer.output r) s.kept
  else if Layer.kind r = srcEssence then (assoc? (Layer.index r) d.cmp.rx).bind (·.newest)
  else none

/-- Whether a picture is ready for a view picture with R_p (R488); Tides are compared by their low words. -/
def layerReady (rp period : Nat) (p : LayerPic) : Bool :=
  decide (0 ≤ seqDiff 32 (p.tide % 2 ^ 32 + period) (rp % 2 ^ 32))

/-- What a layer draws, its state after it, and whether it is not ready (R488). -/
def layerChoose (rp limit : Nat) (r : List Word) (s : LayerState) (p : Option LayerPic) :
    LayerState × LayerDraw × Bool :=
  if Layer.kind r = srcColour ∨ Layer.kind r = srcGraphic then (s, .placeholder, false)
  else
    match p.filter (layerReady rp (Layer.period r)) with
    | some x => ({ s with stale := 0, good := some x }, .picture x, false)
    | none =>
      let c := min 255 (s.stale + 1)
      match s.good with
      | some x => if c ≤ limit then ({ s with stale := c }, .picture x, true) else ({ s with stale := c }, .placeholder, true)
      | none => ({ s with stale := c }, .placeholder, true)

/-- A CMP instance starts on a Composer: the layout that is due, the items of its queues, what each layer draws. -/
def Dev.cmpStart (d : Dev) (u : UnitId) (s : Slot) (i : Inst) : Dev :=
  let v := Desc.ctx s.desc
  let d := (d.set Reg.lcp_BUSY 1 [u.idx]).set Reg.lcp_CTX v [u.idx]
  let d := d.layoutDue v i.release
  match d.view? v with
  | none => d
  | some x =>
    let (d, states) := d.popLayers x.layout (carryLayers x.inUse x.layout x.layers)
    let picks := states.zipIdx.map fun (y : LayerState × Nat) =>
      let r := layerRec x.layout y.2
      layerChoose i.release x.staleLimit r y.1 (d.layerPicture r y.1)
    d.setView v { x with
      layers := picks.map (·.1)
      draws := picks.map (·.2.1)
      inUse := x.layout
      bg := wfld x.params 3 29 0
      count := x.count + 1 }

/-! ### Layer images -/

/-- What a layer brings to blending: its samples on the 10-bit scale and the coverage of each luma position. -/
structure LayerImage where
  pic : Picture
  cover : Plane
  deriving DecidableEq, Repr

/-- The samples of a colour (R475, R479). -/
def colourOf (c : Nat) : Nat × Nat × Nat := (bits c 9 0, bits c 19 10, bits c 29 20)

/-- A layer in one colour. -/
def colourImage (w h c a : Nat) : LayerImage :=
  let (y, cb, cr) := colourOf c
  ⟨⟨planeOf w h fun _ _ => y, planeOf (w / 2) (h / 2) fun _ _ => cb, planeOf (w / 2) (h / 2) fun _ _ => cr⟩,
    planeOf w h fun _ _ => a⟩

/-- A row fetched as runs of pixels: those of tiles that are culled are not read (R481). -/
def Dev.fetchRow (d : Dev) (who : Page) (runs : List (Nat × Bool)) (half : Nat) (a : Nat) : Dev × Option Bytes :=
  let r := runs.foldl (fun (acc : Dev × Option Bytes × Nat) x =>
    let (d, b, o) := acc
    let n := x.1 * half / 2
    match b with
    | none => (d, none, o)
    | some y =>
      if x.2 then (d, some (y ++ List.replicate n 0), o + n)
      else
        match d.holdRead (a + o) n who with
        | (d, .ok z) => (d, some (y ++ z), o + n)
        | (d, .error _) => (d, none, o)) (d, some [], 0)
  (r.1, r.2.1)

/-- The runs of a layer's row at view row `y`, cut to `n` pixels: by tile, with whether the tile is culled. -/
def rowRuns (vw vh : Nat) (l : List Word) (i n y : Nat) : List (Nat × Bool) :=
  let r := layerRec l i
  (List.range ((vw + 15) / 16)).filterMap fun tx =>
    let k := overlapLen (16 * tx) 16 (Layer.dx r) n
    if k = 0 then none else some (k, culled vw vh l i tx (y / 16))

/-- Rows of a layer's source: `half` bytes for two pixels, row `j` at view row `y j` and address `at_ j`. -/
def Dev.fetchRows (d : Dev) (who : Page) (vw vh : Nat) (l : List Word) (i n half : Nat) (rows : List (Nat × Nat)) :
    Dev × Option (List Bytes) :=
  rows.foldl (fun (acc : Dev × Option (List Bytes)) x =>
    match acc with
    | (d, none) => (d, none)
    | (d, some bs) =>
      match d.fetchRow who (rowRuns vw vh l i n x.1) half x.2 with
      | (d, some b) => (d, some (bs ++ [b]))
      | (d, none) => (d, none)) (d, some [])

/-- The BT.709 samples of a graphic's pixel (R483). -/
def rgbSamples (r g b : Nat) : Nat × Nat × Nat :=
  let f := fun (ofs kr kg kb hi : Int) => (clampI 64 hi (ofs + (kr * r + kg * g + kb * b + 32768) / 65536)).toNat
  (f 64 47864 161017 16255 940, f 512 (-26383) (-88755) 115138 960, f 512 115138 (-104580) (-10558) 960)

/-- The coverage of a pixel of a layer (R484). -/
def coverage (blend galpha : Nat) (alpha : Option Nat) : Nat :=
  match alpha with
  | some a => if blend = 1 then (a + a / 128) * galpha / 256 else galpha
  | none => galpha

/-- The image of a graphic whose rows are given (R482–R484). -/
def graphicImage (r : List Word) (rows : List Bytes) : LayerImage :=
  let w := Layer.w r
  let h := Layer.h r
  let px := fun (x y : Nat) => let b := rows.getD y []; rgbSamples (byteAt b (4 * x)) (byteAt b (4 * x + 1)) (byteAt b (4 * x + 2))
  let four := fun (f : Nat × Nat × Nat → Nat) (x y : Nat) =>
    (f (px (2 * x) (2 * y)) + f (px (2 * x + 1) (2 * y)) + f (px (2 * x) (2 * y + 1)) + f (px (2 * x + 1) (2 * y + 1)) + 2) / 4
  ⟨⟨planeOf w h fun x y => (px x y).1, planeOf (w / 2) (h / 2) (four (·.2.1)), planeOf (w / 2) (h / 2) (four (·.2.2))⟩,
    planeOf w h fun x y => coverage (Layer.blend r) (Layer.galpha r) (some (byteAt (rows.getD y []) (4 * x + 3)))⟩

/-- A layer's graphic read from Hold. -/
def Dev.fetchGraphic (d : Dev) (who : Page) (vw vh : Nat) (l : List Word) (i : Nat) : Dev × Option LayerImage :=
  let r := layerRec l i
  let rows := (List.range (Layer.h r)).map fun y => (Layer.dy r + y, Layer.gfx r + up256 (4 * Layer.w r) * y)
  match d.fetchRows who vw vh l i (Layer.w r) 8 rows with
  | (d, some bs) => (d, some (graphicImage r bs))
  | (d, none) => (d, none)

/-- The image of a layer from its source's samples, the part past the source drawn in COLOUR (R485): what is covered
horizontally and vertically, and the samples. -/
def pictureImage (r : List Word) (cw ch : Nat) (y cb cr : Nat → Nat → Nat) : LayerImage :=
  let (ky, kb, kr) := colourOf (Layer.colour r)
  let part := fun (w h : Nat) (f : Nat → Nat → Nat) (k x y : Nat) => if x < w ∧ y < h then f x y else k
  ⟨⟨planeOf (Layer.w r) (Layer.h r) (part cw ch y ky), planeOf (Layer.w r / 2) (Layer.h r / 2) (part (cw / 2) (ch / 2) cb kb),
    planeOf (Layer.w r / 2) (Layer.h r / 2) (part (cw / 2) (ch / 2) cr kr)⟩,
    planeOf (Layer.w r) (Layer.h r) fun _ _ => Layer.galpha r⟩

/-- A layer's picture in HP8 or HP10 read from Hold: its source's size, its address. -/
def Dev.fetchPicture (d : Dev) (who : Page) (vw vh : Nat) (l : List Word) (i sw sh : Nat) (p : LayerPic) :
    Dev × Option LayerImage :=
  let r := layerRec l i
  let cw := min (Layer.w r) (sw - Layer.sx r)
  let ch := min (Layer.h r) (sh - Layer.sy r)
  let st := pictureStride sw p.ten
  let sb := sampleBytes p.ten
  let luma := (List.range ch).map fun y => (Layer.dy r + y, p.addr + st * (Layer.sy r + y) + sb * Layer.sx r)
  let chroma := (List.range (ch / 2)).map fun y =>
    (Layer.dy r + 2 * y, p.addr + st * sh + st * (Layer.sy r / 2 + y) + sb * Layer.sx r)
  let up := fun (x : Nat) => if p.ten then x else to10 x
  match d.fetchRows who vw vh l i cw (2 * sb) luma with
  | (d, none) => (d, none)
  | (d, some ys) =>
    match d.fetchRows who vw vh l i cw (2 * sb) chroma with
    | (d, none) => (d, none)
    | (d, some cs) =>
      (d, some (pictureImage r cw ch (fun x y => up (sampleIn (ys.getD y []) p.ten 0 x))
        (fun x y => up (sampleIn (cs.getD y []) p.ten 0 (2 * x)))
        (fun x y => up (sampleIn (cs.getD y []) p.ten 0 (2 * x + 1)))))

/-- A layer's EV10 picture read from Hold (R482, R495). -/
def Dev.fetchEssence (d : Dev) (who : Page) (vw vh : Nat) (l : List Word) (i sw sh : Nat) (p : LayerPic) :
    Dev × Option LayerImage :=
  let r := layerRec l i
  let cw := min (Layer.w r) (sw - Layer.sx r)
  let ch := min (Layer.h r) (sh - Layer.sy r)
  let rows := (List.range ch).map fun y => (Layer.dy r + y, p.addr + evStride sw * (Layer.sy r + y) + 5 * (Layer.sx r / 2))
  match d.fetchRows who vw vh l i cw 5 rows with
  | (d, none) => (d, none)
  | (d, some bs) =>
    let chroma := fun (k x y : Nat) => (evSample (bs.getD (2 * y) []) 0 x k + evSample (bs.getD (2 * y + 1) []) 0 x k + 1) / 2
    (d, some (pictureImage r cw ch (fun x y => evSample (bs.getD y []) 0 (x / 2) (1 + 2 * (x % 2))) (chroma 0) (chroma 2)))

/-- The size of the source picture of layer `i`: its flow's format, or that of the picture an engine output at its address; of a
picture that none did, what the report says, and a free value where it says nothing. -/
def Dev.sourceSize (d : Dev) (r : List Word) (i : Nat) (p : LayerPic) (rep : CmpReport) : Dev × Nat × Nat :=
  if Layer.kind r = srcEssence then
    (d, match d.get Reg.ess_VRX_FORMAT [Layer.index r] with
      | 0 => (1280, 720)
      | 1 => (1920, 1080)
      | _ => (3840, 2160))
  else
    match assoc? p.addr d.dec.made, rep.sizes.find? (·.1 == i) with
    | some x, _ => (d, x)
    | none, some x => (d, x.2)
    | none, none => let (d, n) := d.draw; (d, n % 65536, n / 65536 % 65536)

/-- The image of layer `i` of the running instance; none where Hold failed a fetch. -/
def Dev.layerImage (d : Dev) (who : Page) (x : View) (i : Nat) (rep : CmpReport) : Dev × Option LayerImage :=
  let r := layerRec x.inUse i
  let colour := colourImage (Layer.w r) (Layer.h r) (Layer.colour r) (Layer.galpha r)
  if Layer.kind r = srcColour then (d, some colour)
  else if Layer.kind r = srcGraphic then d.fetchGraphic who x.width x.height x.inUse i
  else
    match x.draws.getD i .placeholder with
    | .placeholder => if Layer.gfx r = 0 then (d, some colour) else d.fetchGraphic who x.width x.height x.inUse i
    | .picture p =>
      let (d, sw, sh) := d.sourceSize r i p rep
      let d := if sw < Layer.sx r + Layer.w r ∨ sh < Layer.sy r + Layer.h r then d.bump Reg.cmpCtl_LAYER_CLIP else d
      if Layer.kind r = srcEssence then d.fetchEssence who x.width x.height x.inUse i sw sh p
      else d.fetchPicture who x.width x.height x.inUse i sw sh p

/-! ### Blending (R484) -/

/-- One sample blended over another. -/
def blendSample (a l b : Nat) : Nat := (a * l + (256 - a) * b + 128) / 256

/-- A plane with a layer's plane blended over it at (ox, oy). -/
def blendPlane (base top : Plane) (cover : Nat → Nat → Nat) (ox oy : Nat) : Plane :=
  planeOf base.width base.height fun x y =>
    if ox ≤ x ∧ x < ox + top.width ∧ oy ≤ y ∧ y < oy + top.height then
      blendSample (cover (x - ox) (y - oy)) (top.at (x - ox) (y - oy)) (base.at x y)
    else base.at x y

/-- A picture with a layer blended over it at (dx, dy). -/
def blendLayer (base : Picture) (im : LayerImage) (dx dy : Nat) : Picture :=
  let chroma := fun (x y : Nat) => (im.cover.at (2 * x) (2 * y) + im.cover.at (2 * x + 1) (2 * y) +
    im.cover.at (2 * x) (2 * y + 1) + im.cover.at (2 * x + 1) (2 * y + 1)) / 4
  ⟨blendPlane base.y im.pic.y (fun x y => im.cover.at x y) dx dy, blendPlane base.cb im.pic.cb chroma (dx / 2) (dy / 2),
    blendPlane base.cr im.pic.cr chroma (dx / 2) (dy / 2)⟩

/-- The view picture: the layers of the running instance drawn over the background; none where a fetch failed. -/
def Dev.composed (d : Dev) (who : Page) (x : View) (rep : CmpReport) : Dev × Option Picture :=
  (drawOrder x.inUse).foldl (fun (acc : Dev × Option Picture) i =>
    match acc with
    | (d, none) => (d, none)
    | (d, some p) =>
      match d.layerImage who x i rep with
      | (d, none) => (d, none)
      | (d, some im) => (d, some (blendLayer p im (Layer.dx (layerRec x.inUse i)) (Layer.dy (layerRec x.inUse i)))))
    (d, some (colourImage x.width x.height x.bg 256).pic)

/-! ### The end of an instance (R488, R492–R496) -/

/-- Counters of the Composer's page for an instance that ended. -/
def Dev.lcpCount (d : Dev) (u : UnitId) (st : Status) (cycles : Nat) : Dev :=
  let d := (d.set Reg.lcp_BUSY 0 [u.idx]).set Reg.lcp_LAST_CYCLES cycles [u.idx]
  let d := if st.code < 0x10 then d.bump Reg.lcp_PICTURES [u.idx] else d
  match st with
  | .doneStale => d.countRaise u.page 1 Reg.lcp_STALE [u.idx]
  | .failedMemoryUe => d.bump Reg.lcp_MEM_UE [u.idx]
  | _ => d

/-- The layers of an instance that were not ready, by what they drew: last good pictures and placeholders. -/
def staleCounts (x : View) : Nat × Nat :=
  let late := x.layers.zipIdx.filter fun (s : LayerState × Nat) =>
    decide (0 < s.1.stale) && (Layer.kind (layerRec x.inUse s.2) == srcQueue || Layer.kind (layerRec x.inUse s.2) == srcEssence)
  let held := late.filter fun (s : LayerState × Nat) => x.draws.getD s.2 .placeholder != .placeholder
  (held.length, late.length - held.length)

/-- The item of a view picture (R493). -/
def viewItem (x : View) (st : Status) (addr tv : Nat) : Item :=
  let n := staleCounts x
  holdItem (Config.itemLane 0x0045 % 8) 2 0 addr noBerth
    (st.code * 2 ^ 24 + n.1 % 256 * 65536 + n.2 % 256 * 256 + bitOf x.hp10 * 128) tv

/-- The end of a CMP instance on a Composer: the device, the status, the items. -/
def Dev.cmpEnd (d : Dev) (u : UnitId) (s : Slot) (i : Inst) (rep : CmpReport) : Dev × Status × List Item :=
  let v := Desc.ctx s.desc
  match d.view? v with
  | none => (d.lcpCount u .failedMemoryUe rep.cycles, .failedMemoryUe, [])
  | some x =>
    let n := staleCounts x
    let d := (d.bump Reg.cmpCtl_STALE_LAYERS [] n.1).countRaise cmpPage 2 Reg.cmpCtl_PLACEHOLDER [] n.2
    match d.composed u.page x rep with
    | (d, none) => (d.lcpCount u .failedMemoryUe rep.cycles, .failedMemoryUe, [])
    | (d, some p) =>
      let k := x.count - 1
      let out := (if x.hp10 then p else p.depth true false).bytes x.hp10
      let addr := x.outRing + k % max 1 x.outDepth * pictureBytes x.width x.height x.hp10
      let (d, e) := (d.noteMade addr x.width x.height).holdWrite addr out u.page
      let (d, e') : Dev × Option HoldErr :=
        if x.essEn then d.holdWrite (x.essRing + k % max 1 x.essDepth * (evStride x.width * x.height)) p.evBytes u.page
        else (d, none)
      if e.isSome || e'.isSome then (d.lcpCount u .failedMemoryUe rep.cycles, .failedMemoryUe, [])
      else
        let st : Status := if n.1 + n.2 = 0 then .done else .doneStale
        let d := if x.essEn then d.setView v { x with ess := ((k, i.deadline) :: x.ess).take (max 1 x.essDepth) } else d
        (d.lcpCount u st rep.cycles, st, [viewItem x st addr (i.deadline % 2 ^ 32)])

end Sys2Proof.Machine
end

