-- ==== Sys2Proof/Machine/Engines.lean ====
section
/-!
DEFINITION. Dispatch: which operation an engine takes, what starting and ending it does, and pre-emption (R52, R104–R108,
R111, R114, R116).
-/

namespace Sys2Proof.Machine

/-! ### Ready lists (R104–R108) -/

/-- Whether a core has been told to pre-empt for a slot's operation. -/
def Dev.requested (d : Dev) (order : Nat) : Bool := d.rkn.cores.any fun c => c.request == some order

/-- Whether an instance may be dispatched: its flow's window takes its number (R111), and the space it will use in its
OUT_QUEUE is free, or is kept for it already, if it takes items from an IN_QUEUE (R108). -/
def Dev.dispatchable (d : Dev) (s : Slot) (i : Inst) : Bool :=
  (match d.flowOf s with
    | some f => f.ending || decide (seqAhead f.next i.seq < 256)
    | none => true) &&
  ((Desc.inQueue s.desc).isNone || (d.asm s.order).claim.isSome || (d.outSpace s).isSome)

/-- The slots whose instances are ready and may be dispatched. An operation of an admission is ready from its release Tide on, and
never starts early on unbooked cycles (DESIGN CHOICE, log entry 128). -/
def Dev.readySlots (d : Dev) : List (Slot × Inst) :=
  d.instances.filter fun x => x.2.state == .ready && d.dispatchable x.1 x.2 && !d.requested x.1.order

/-- Whether an instance comes before another on the list of C1 (R105). -/
def Dev.before1 (d : Dev) (a b : Slot × Inst) : Bool :=
  let r := fun (x : Slot × Inst) => rotIdx slotCount d.tide x.1.num
  decide (a.2.deadline < b.2.deadline) || (a.2.deadline == b.2.deadline &&
    (decide (a.2.release < b.2.release) || (a.2.release == b.2.release && decide (r a ≤ r b))))

/-- The head of the list of C1 of a unit. -/
def Dev.headBooked (d : Dev) (u : UnitId) : Option Slot :=
  ((sortBy d.before1 (d.readySlots.filter fun x => x.1.admitted && x.1.engine == some (poolUnit u.kind u.idx) &&
    Desc.kind x.1.desc != opMIX)).head?).map (·.1)

/-- Whether a core of a pier may take an unbooked task: the pier holds it, and is the affinity pier of the row that BERTH
names (R104). -/
def Dev.taskOn (d : Dev) (pier : Nat) (w : List Word) : Bool :=
  (Desc.berth w == noBerth || d.rowGet (Desc.berth w) RowF.AFFINITY == pier) &&
  (d.task? pier (Desc.param w 0 % 65536) (Desc.kind w)).isSome

/-- The head of the list of an unbooked class for a unit, in order of submission. -/
def Dev.headUnbooked (d : Dev) (u : UnitId) (cls : Nat) : Option Slot :=
  let fits := d.readySlots.filter fun x =>
    !x.1.admitted && Desc.cls x.1.desc == cls && unitKindOf (Desc.kind x.1.desc) == u.kind &&
    (u.kind != ukCore || d.taskOn u.pier x.1.desc) && (Desc.kind x.1.desc != opDEC || decide (0 < (d.asm x.1.order).frames))
  ((sortBy (fun (a b : Slot × Inst) => decide (a.1.order ≤ b.1.order)) fits).head?).map (·.1)

/-- The booked cycles an engine still owes in the Tide: its figure, less the booked work it has run (R107). The pipelines of
the Bond owe their pool's figure in equal parts (DESIGN CHOICE, log entry 130). -/
def Dev.owed (d : Dev) (u : UnitId) : Nat :=
  let bs := d.bookings
  let v := poolUnit u.kind u.idx
  let ran := ((d.wfg.ran.filter fun x => poolUnit x.1.kind x.1.idx == v && x.2.1 == d.tide).map (·.2.2)).sum
  let left := standingOf bs v + oneshotOf bs v d.tide - ran
  if isPool u.kind then ceilDiv left (max 1 (d.countOf u.kind)) else left

/-- Whether an unbooked operation fits the Tide on an engine that cannot be pre-empted (R107). -/
def Dev.fitsTide (d : Dev) (home : UnitId) (s : Slot) : Bool :=
  decide (s.share + d.owed home ≤ planned - d.phase * 8 / 5)

/-- What a unit that is not a core takes next. -/
def Dev.nextFor (d : Dev) (home : UnitId) : Option Slot :=
  match d.headBooked home with
  | some s => some s
  | none =>
    match d.headUnbooked home 2, d.headUnbooked home 3 with
    | some s, _ => if d.fitsTide home s then some s else none
    | none, some s => if d.fitsTide home s then some s else none
    | none, none => none

/-! ### Starting (R106, R108) -/

/-- Every item of a queue. -/
def Dev.takeAll (d : Dev) (q : Nat) : Nat → Dev × List Item
  | 0 => (d, [])
  | n + 1 =>
    match d.take q with
    | (d, none) => (d, [])
    | (d, some i) => let (d, r) := d.takeAll q n; (d, i :: r)

/-- The items an operation takes at its start: a frame for a DEC, every item for an SCL (R498), none for a task and for
a Survey whose view picture is missing (R453), a packet otherwise. -/
def Dev.takeInputs (d : Dev) (s : Slot) (i : Inst) : Dev × List Item :=
  match Desc.inQueue s.desc with
  | none => (d, [])
  | some q =>
    let k := Desc.kind s.desc
    if k = opDEC then d.asmTake s
    else if k = opSCL then d.takeAll q (d.queue q).depth
    else if isTask k || (k == opSVY && i.noView) then (d, [])
    else d.takePacket q (d.queue q).depth

/-- The space in OUT_QUEUE that is kept for an instance from its start on: what its assembler kept, or what is free. -/
def Dev.keptFor (d : Dev) (s : Slot) : Nat × Bool :=
  match (d.asm s.order).claim with
  | some opn => (outItems s.desc, opn)
  | none => (d.outSpace s).getD (0, true)

/-- The SHA lanes that may run a MODE (R245): the SHA-1 lanes, or that of SHA-256; with none of them left the others (R249). -/
def Dev.shaLanes (d : Dev) (mode : Nat) : List Nat :=
  let all := d.serving ukSha
  let own := all.filter fun i => decide (i < 8) == (mode == 7)
  ((if own.isEmpty then all else own).map fun i => (d.executor ⟨ukSha, i⟩).idx)

/-- A CRY of a SHA mode is given a lane to hash in (R245, R248). -/
def Dev.shaLane (d : Dev) (s : Slot) (i : Inst) : Dev :=
  if cryMode s.desc < 5 then d
  else
    let (d, l) : Dev × Option Nat := d.pick (d.shaLanes (cryMode s.desc))
    d.setSlot { s with inst := some { i with lane := l } }

/-- An instance starts on a unit. -/
def Dev.startOn (d : Dev) (u : UnitId) (s : Slot) : Dev :=
  match s.inst with
  | none => d
  | some i =>
    let (n, opn) : Nat × Bool := d.keptFor s
    let i : Inst := { i with claim := n, claimOpn := opn }
    let (d, items) := (d.setSlot { s with inst := some i }).takeInputs s i
    let i : Inst := { i with state := .running, engine := some u, startTide := d.tide, startPhase := d.phase, taken := items }
    let s : Slot := { s with inst := some i }
    let d := d.setSlot s
    match Desc.kind s.desc with
    | 0x0 | 0x1 => d.vdeStart u s
    | 0x2 => d.cmpStart u s i
    | 0x3 => d.svyStart u s i
    | 0x4 => d.ltrStart u s i
    | 0x9 => (d.set Reg.gwy_DMA_BUSY 1 [u.idx]).set Reg.gwy_DMA_SLOT s.num [u.idx]
    | 0xA => d.shaLane s i
    | _ => d

/-- The class of the operation on top of a core's stack. -/
def Dev.topClass (d : Dev) (c : Nat) : Option Nat :=
  ((d.core c).ops.head?.bind fun o => d.slotByOrder o.order).map fun s => Desc.cls s.desc

/-- A core takes what comes next: C1, then in each class the operation it was pre-empted in before the list (R106,
R116). -/
def Dev.coreNext (d : Dev) (c : Nat) (home : UnitId) : Dev :=
  let top := d.topClass c
  match d.headBooked home with
  | some s => d.taskStart c s
  | none =>
    if top = some 2 then d.coreResume c
    else
      match d.headUnbooked home 2 with
      | some s => d.taskStart c s
      | none =>
        if top.isSome then d.coreResume c
        else match d.headUnbooked home 3 with
          | some s => d.taskStart c s
          | none => d

/-- OP_START: an idle engine takes the head of its highest class that is not empty. -/
def Dev.opStart (d : Dev) (u : UnitId) (ph : Nat) : Dev :=
  let d := d.atPhase ph
  if !d.unitTakes u || (d.runningOn u).isSome then d
  else
    match d.home u with
    | none => d
    | some home =>
      if u.kind = ukCore then (if (d.core u.idx).mode = .idle then d.coreNext u.idx home else d)
      else
        match d.nextFor home with
        | some s => d.startOn u s
        | none => d

/-! ### Pre-emption (R114, R397) -/

/-- The cores in service that could take an unbooked task and run nothing. -/
def Dev.idleCore (d : Dev) (w : List Word) : Bool :=
  (List.range (d.serviceCount ukCore)).any fun c =>
    let u := d.executor (coreUnit c)
    d.unitTakes u && (d.core u.idx).mode == .idle && d.taskOn u.pier w

/-- The operation that a running core is to be pre-empted for, if one of a higher class is ready for it. -/
def Dev.preemptFor (d : Dev) (c : RkCore) : Option Slot :=
  match c.mode == .run && c.request.isNone && d.unitTakes (coreUnit c.num), d.home (coreUnit c.num), d.topClass c.num with
  | true, some home, some cls =>
    if cls < 2 then none
    else
      match d.headBooked home with
      | some s => some s
      | none =>
        if cls = 3 then
          match d.headUnbooked home 2 with
          | some s => if d.idleCore s.desc then none else some s
          | none => none
        else none
  | _, _, _ => none

/-- Cores that run an operation of a lower class than one that is ready for them are told to pre-empt, in rotated
order. -/
def Dev.preemptScan (d : Dev) : Dev :=
  let cores := sortBy (fun (a b : RkCore) => decide (rotIdx 1088 d.tide a.num ≤ rotIdx 1088 d.tide b.num)) d.rkn.cores
  (cores.map (·.num)).foldl (fun (d : Dev) c =>
    match d.preemptFor (d.core c) with
    | some s => d.preempt c s.order
    | none => d) d

/-! ### Ending (R109, R81) -/

/-- The engine's page shows that nothing runs on it. -/
def Dev.engineIdle (d : Dev) (u : UnitId) : Dev :=
  match u.kind with
  | 0x0 => d.set Reg.vde_BUSY 0 [u.idx / 4, u.idx % 4]
  | 0x1 => d.set Reg.svy_BUSY 0 [u.idx / 2, u.idx % 2]
  | 0x2 => d.set Reg.ltr_BUSY 0 [u.idx / 6, u.idx % 6]
  | 0x3 => d.set Reg.lcp_BUSY 0 [u.idx]
  | 0x6 => d.set Reg.gwy_DMA_BUSY 0 [u.idx]
  | _ => d

/-- The booked cycles an instance has run in the Tide are noted for its engine's home (R107). -/
def Dev.noteRan (d : Dev) (s : Slot) (i : Inst) : Dev :=
  match s.admitted, i.engine.bind d.home with
  | true, some home =>
    let since := if i.startTide = d.tide then i.startPhase else 0
    let old := d.wfg.ran.filter fun x => x.2.1 == d.tide
    { d with wfg := { d.wfg with ran := (home, d.tide, (d.phase - since) * 8 / 5) :: old } }
  | _, _ => d

/-- What an engine's work comes to at its end: the device, the status, the items for OUT_QUEUE, the picture made. -/
def Dev.opResult (d : Dev) (u : UnitId) (s : Slot) (i : Inst) (rep : OpReport) : Option (Dev × Status × List Item × Nat) :=
  match Desc.kind s.desc, rep with
  | 0x0, .dec r => let x := d.decEnd u s i r; some (x.1, x.2.1, x.2.2, 0)
  | 0x1, .scl r => let x := d.sclEnd u s i r; some (x.1, x.2.1, x.2.2, 0)
  | 0x2, .cmp r => let x := d.cmpEnd u s i r; some (x.1, x.2.1, x.2.2, i.deadline)
  | 0x3, .svy r => let x := d.svyEnd u s i r; some (x.1, x.2.1, [], x.2.2)
  | 0x4, .ltr r => let x := d.ltrEnd u s r; some (x.1, x.2, [], 0)
  | 0x9, .xfr r =>
    let x := d.xfrEnd s r.host r.pcieOk
    some ((x.1.set Reg.gwy_DMA_BUSY 0 [u.idx]).set Reg.gwy_DMA_LAST_STATUS x.2.code [u.idx], x.2, [], 0)
  | 0xA, .plain => let x := d.cryEnd s i; some (x.1, x.2, [], 0)
  | _, _ => none

/-- OP_COMPLETE: the instance of a slot ends as its engine reports; a task ends by END, a mix with its Tide. -/
def Dev.opComplete (d : Dev) (n : Nat) (rep : OpReport) (ph : Nat) : Dev :=
  let d := d.atPhase ph
  match d.slot? n with
  | none => d
  | some s =>
    match s.inst with
    | none => d
    | some i =>
      match i.state == .running, i.engine with
      | true, some u =>
        match d.opResult u s i rep with
        | some (d, st, items, pic) => (((d.noteRan s i).endInst s st items pic)).preemptScan
        | none => d
      | _, _ => d

/-- A unit's instance is failed by a fault (R81, R434, R461, R496). -/
def Dev.failInst (d : Dev) (s : Slot) : Dev :=
  match s.inst with
  | none => d
  | some i =>
    let d := match i.engine with
      | some u => d.engineIdle u
      | none => d
    let d := if Desc.kind s.desc = opLTR then d.ltrFailed (Desc.ctx s.desc) else d
    d.endInst s .failedUnitFault []

end Sys2Proof.Machine
end

