-- ==== Sys2Proof/Machine/Submit.lean ====
section
/-!
DEFINITION. Unbooked submission, its time limit and its cancelling (R99, R101–R103, R110), and the configuration of
Spill queues (R122, R124, R129, R130).
-/

namespace Sys2Proof.Machine

/-! ### Unbooked submission (R102) -/

/-- Where a submission came from: port p of the Wharfinger page, or the port of VF v; its tenant is the port's. -/
def Dev.portTenant (d : Dev) : BtcPort → Nat
  | .pf _ => 0
  | .vf v => d.vfTenant v

/-- The result of a submission, with its slot where it was accepted. -/
def Dev.submitResult (d : Dev) (p : BtcPort) (code : Nat) (slot : Option Nat := none) : Dev :=
  match p with
  | .pf n =>
    let d := (d.set Reg.wfg_SUBMIT_VALID 1 [n]).set Reg.wfg_SUBMIT_RESULT code [n]
    match slot with
    | some k => d.set Reg.wfg_SUBMIT_SLOT k [n]
    | none => d
  | .vf v =>
    let d := (d.set Reg.vf_SUBMIT_VALID 1 [v - 1]).set Reg.vf_SUBMIT_RESULT code [v - 1]
    match slot with
    | some k => d.set Reg.vf_SUBMIT_SLOT k [v - 1]
    | none => d

/-- The slot a submission of a class takes (R99, R101): for C3 a reserved slot while one is free; a general slot within
UNBOOKED_MAX. -/
def Dev.submitSlot (d : Dev) (cls n : Nat) : Option Nat :=
  let general := if d.unbookedUse < d.get Reg.wfg_UNBOOKED_MAX then (d.generalSlots n 1).head? else none
  if cls = 3 then (d.reservedSlot n).orElse fun _ => general else general

/-- An accepted submission: its slot, its flow, its one instance, ready at once. -/
def Dev.submitted (d : Dev) (m : Checked) (p : BtcPort) (num : Nat) : Dev :=
  let w := m.op 0
  let now : Inst := { count := 1, seq := Desc.flowSeq w, release := d.tide, deadline := d.tide, state := .ready, engine := none }
  let vf := match p with
    | .pf _ => none
    | .vf v => some v
  let cost := opCost w (d.fetchedOf m 0) (((d.taskHolders w).head?.map fun (x : RkTask) => x.cycles).getD 0)
  let slot : Slot := {
    num := num
    order := d.wfg.order
    owner := .tenant m.tenant
    desc := w
    tenant := m.tenant
    share := cost
    submitTide := d.tide
    vf := vf
    inst := some now
    nInst := 1 }
  let flows : List Flow :=
    if Desc.ordered w && (d.flow? (Desc.flowId w)).isNone then [⟨Desc.flowId w, .tenant m.tenant, Desc.flowSeq w, [], false⟩] else []
  let d := { d with wfg := { d.wfg with
    slots := d.wfg.slots ++ [slot], order := d.wfg.order + 1, flows := d.wfg.flows ++ flows } }
  ((d.viewAdmitted m 0).asmSlot slot).preemptScan

/-- The checks of a descriptor that was read, in the order of R102. -/
def Dev.submitRead (d : Dev) (p : BtcPort) (w : List Word) : Dev :=
  let (d, layouts) := d.readLayouts [w]
  let m : Checked := ⟨[w], layouts, d.portTenant p, none, false, false, 0⟩
  let newFlow := Desc.ordered w && (d.flow? (Desc.flowId w)).isNone
  if d.noUnit w then d.submitResult p Status.refusedNoUnit.code
  else
    match d.checkOps m with
    | some (st, _) => d.submitResult p st.code
    | none =>
      let (d, n) := d.draw
      match d.submitSlot (Desc.cls w) n with
      | none => d.submitResult p 1
      | some num =>
        if newFlow && decide (4096 ≤ d.wfg.flows.length) then d.submitResult p 1
        else (d.submitted m p num).submitResult p 0 (some num)

/-- GO of a submit port: DESC_LO bits 5:0 must be zero, and the descriptor must be readable. -/
def Dev.submitGo (d : Dev) (p : BtcPort) : Dev :=
  let lo := match p with
    | .pf n => d.get Reg.wfg_SUBMIT_DESC_LO [n]
    | .vf v => d.get Reg.vf_SUBMIT_DESC_LO [v - 1]
  let hi := match p with
    | .pf n => d.get Reg.wfg_SUBMIT_DESC_HI [n]
    | .vf v => d.get Reg.vf_SUBMIT_DESC_HI [v - 1]
  let there := match p with
    | .pf n => decide (n < 4)
    | .vf v => decide (1 ≤ v) && decide (v ≤ 64)
  if !d.live wfgPage || !there then d
  else if lo % 64 ≠ 0 then d.submitResult p Status.refusedParam.code
  else
    match d.holdWords (lo + 2 ^ 32 * hi) 16 wfgPage with
    | (d, .error _) => d.submitResult p Status.refusedParam.code
    | (d, .ok w) => d.submitRead p w

/-- UNBOOKED_SUBMIT: the port's address words written, then GO. -/
def Dev.submitCmd (d : Dev) (p : BtcPort) (lo hi : Nat) : Dev :=
  match p with
  | .pf n =>
    if d.live wfgPage ∧ n < 4 then ((d.set Reg.wfg_SUBMIT_DESC_LO lo [n]).set Reg.wfg_SUBMIT_DESC_HI hi [n]).submitGo p else d
  | .vf v =>
    if d.live wfgPage ∧ 1 ≤ v ∧ v ≤ 64 then
      ((d.set Reg.vf_SUBMIT_DESC_LO lo [v - 1]).set Reg.vf_SUBMIT_DESC_HI hi [v - 1]).submitGo p
    else d

/-! ### The time limit and WFG_CANCEL (R103) -/

/-- The slot that a number names now: one whose admission is over, and whose instance still runs, has given its number up. -/
def Dev.slotNow? (d : Dev) (n : Nat) : Option Slot := d.wfg.slots.find? fun s => s.num == n && !s.detached

/-- An unbooked operation that has not started ends with CANCELLED. -/
def Dev.cancelUnstarted (d : Dev) (n : Nat) : Dev :=
  match d.slotNow? n with
  | none => d
  | some s =>
    match s.admitted, s.inst with
    | false, some i => if i.state = .ready then (d.raise wfgPage 4).endInst s .cancelled [] else d
    | _, _ => d

/-- UNBOOKED_TIMEOUT: the limit of UNBOOKED_TIMEOUT × 16 Tides has passed. -/
def Dev.unbookedTimeout (d : Dev) (n : Nat) : Dev :=
  match d.slotNow? n with
  | none => d
  | some s =>
    if s.submitTide + 16 * atLeast1 (d.get Reg.wfg_UNBOOKED_TIMEOUT) ≤ d.tide then d.cancelUnstarted n else d

/-- WFG_CANCEL: the slot's operation ends with CANCELLED if it has not started. -/
def Dev.wfgCancel (d : Dev) (w : Nat) : Dev := if d.live wfgPage then d.cancelUnstarted (w % 32768) else d

/-! ### Queue configuration (R122, R130) -/

/-- Whether a queue may not be enabled (R122). -/
def Dev.queueBad (d : Dev) (q : Nat) : Bool :=
  let n := d.get Reg.wfg_QSPILL_SIZE [q]
  let a := 256 * d.get Reg.wfg_QSPILL_BASE [q]
  decide (n < 32) || decide (1048576 < n) || n % 32 != 0 || d.inSpill (some q) a (32 * n) ||
  d.unitRegions.any (·.touches a (32 * n))

/-- The address of word `i` of a queue's control block. -/
def queueAddr (q i : Nat) : Nat := 0x60000 + 0x20 * q + 4 * i

/-- QCFG_WRITE: the whole word, unless it would change EN while the queue holds items; an enable that R122 forbids leaves EN
at 0. -/
def Dev.qcfgWrite (d : Dev) (q : Nat) (w : Word) : Dev :=
  if !d.live wfgPage || decide (4096 ≤ q) then d
  else
    let old := d.flag Reg.wfg_Q_EN [q]
    let new := Word.fld w 31 31 == 1
    let w := w &&& 0xFFFFF000
    if old != new && (d.queue q).depth != 0 then d.logIgnored wfgPage (queueAddr q 0)
    else
      let bad := new && !old && d.queueBad q
      let d' := d.setWord (queueAddr q 0) (if bad then w &&& 0x7FFFFFFF else w)
      let d' := if bad then (d'.set Reg.wfg_QCFG_BAD 1 [q]).raise wfgPage 6
        else if new && !old then d'.set Reg.wfg_QCFG_BAD 0 [q] else d'
      let d' := d'.pfcEdge d (d.get Reg.wfg_PFC_LPORT [q])
      let d' := if d'.get Reg.wfg_PFC_LPORT [q] = d.get Reg.wfg_PFC_LPORT [q] then d'
        else d'.pfcEdge d (d'.get Reg.wfg_PFC_LPORT [q])
      d'.stallResume q

/-- A write of another word of a queue's control block: the spill area is fixed while EN is 1 (R130). -/
def Dev.queueWrite (d : Dev) (q i : Nat) (w : Word) : Dev :=
  match i with
  | 0 => d.qcfgWrite q w
  | 1 => (d.setWord (queueAddr q 1) w).watermark q
  | 2 => if d.flag Reg.wfg_Q_EN [q] then d.logIgnored wfgPage (queueAddr q 2) else d.setWord (queueAddr q 2) w
  | 3 => if d.flag Reg.wfg_Q_EN [q] then d.logIgnored wfgPage (queueAddr q 3) else d.setWord (queueAddr q 3) (w &&& 0x1FFFFF)
  | 7 =>
    let d := (d.set Reg.wfg_QEGRESS_RESERVE (Word.fld w 23 16) [q]).stallResume q
    match Word.fld w 31 28 with
    | 1 => d.dropRest q (Word.fld w 2 0)
    | 2 => d.flushQueue q
    | 3 => d.clearDrop q
    | _ => d
  | _ => d

/-- Whether pin TMARKn is driven low: a queue mapped to it is ABOVE_HIGH (R125). -/
def Dev.tmarkLow (d : Dev) (n : Nat) : Bool :=
  d.wfg.queues.any fun x => x.above && d.flag Reg.wfg_TMARK_EN [x.num] && d.get Reg.wfg_TMARK_PIN [x.num] == n

end Sys2Proof.Machine
end

