-- ==== Sys2Proof/Machine/Release.lean ====
section
/-!
DEFINITION. What a Tide boundary does to the Ledger and the Wharfinger: derating, the ends of admissions, releases, and
the move of a Tide break (R50, R58, R63, R65, R72, R79, R82, R83, R142, R478).
-/

namespace Sys2Proof.Machine

/-! ### Step 2: derating and ends -/

/-- Derating is re-evaluated at the boundary (R79), where a change of WARN_DERATE_EN acts too (DESIGN CHOICE, log entry 127). -/
def Dev.derateStep (d : Dev) : Dev :=
  let want := d.flag Reg.ldg_THERMAL_WARN && d.flag Reg.ldg_WARN_DERATE_EN
  if want == d.flag Reg.ldg_DERATED then d
  else (d.set Reg.ldg_DERATED (bitOf want)).raise ldgPage (if want then 2 else 3)

/-- A slot of an admission that ends: a started instance runs on, as does a released one of a standing operation; a
one-shot operation that has not started ends with `code`. -/
def Dev.endSlotOf (d : Dev) (code : Status) (order : Nat) : Dev :=
  match d.slotByOrder order with
  | none => d
  | some s =>
    let out : Slot := { s with detached := true }
    match s.inst with
    | some i => if i.onEngine || s.standing then d.setSlot out else (d.setSlot out).endInst out code []
    | none =>
      if s.standing || s.ended then d.dropSlot order
      else
        let i : Inst := { count := s.nInst + 1, seq := (Desc.flowSeq s.desc + s.nInst) % 65536, release := d.tide,
                          deadline := s.finish, state := .ready, engine := none }
        let out : Slot := { out with inst := some i }
        (d.setSlot out).endInst out code []

/-- The flows an admission owns: from now on nothing holds them back (R112). -/
def Dev.endFlows (d : Dev) (h : Nat) : Dev :=
  let flows := d.wfg.flows.map fun (f : Flow) => if f.owner = .adm h then { f with ending := true } else f
  let d := { d with wfg := { d.wfg with flows := flows } }
  ((d.wfg.flows.filter fun f => f.owner == .adm h).map (·.id)).foldl Dev.flowIdle d

/-- What the end of an admission reports (R65, R82, R142). -/
def Dev.endReport (d : Dev) (a : Admission) : Dev :=
  let d := if a.withdrawn then
    ((d.set Reg.ldg_WITHDRAW_BUSY 0).set Reg.ldg_WITHDRAW_STATUS Status.done.code).raise ldgPage 0 else d
  let d := if a.rowClosed then (d.set Reg.ldg_LOST_HANDLE a.handle).raise ldgPage 7 else d
  if a.lost then (d.set Reg.ldg_LOST_HANDLE a.handle).raiseLog ldgPage 4 0 0 a.tenant (leBytes 2 a.handle) else d

/-- An admission ends: its handle, bookings, reservations and slots are freed. -/
def Dev.endAdm (d : Dev) (a : Admission) : Dev :=
  let code : Status := if a.lost then .failedUnitFault else .cancelled
  let orders := (d.wfg.slots.filter fun s => s.owner == .adm a.handle && !s.detached).map (·.order)
  let d := orders.foldl (fun d o => d.endSlotOf code o) d
  let d := d.endFlows a.handle
  let d := d.segEnd a.handle
  ({ d with ldg := { d.ldg with adms := d.ldg.adms.filter (·.handle != a.handle) } }).endReport a

/-- Whether an admission ends at this boundary (R58, R65, R82, R142). -/
def Dev.admOver (d : Dev) (a : Admission) : Bool :=
  a.ending ||
  match a.kind with
  | .oneshot t =>
    decide (t < d.tide) || (d.wfg.slots.filter fun s => s.owner == .adm a.handle && !s.detached).all fun s => s.ended && s.inst.isNone
  | _ => false

/-- Step 2 of R50. -/
def Dev.ledgerStep (d : Dev) : Dev :=
  let d := d.derateStep
  (d.ldg.adms.filter d.admOver).foldl Dev.endAdm d

/-! ### Step 3: releases (R63, R72, R478) -/

/-- The Tide a CMP's next picture is released in (R478). -/
def Dev.pictureTide (d : Dev) (s : Slot) (start : Nat) : Nat :=
  start + s.nInst * 1000000 / max 1 (((d.view? (Desc.ctx s.desc)).map View.rate).getD 1)

/-- Whether the inputs of an operation that names no predecessor are complete: a frame assembled in a Tide before, or a
packet in its IN_QUEUE. -/
def Dev.inputsThere (d : Dev) (s : Slot) : Bool :=
  match Desc.inQueue s.desc with
  | none => false
  | some q =>
    if Desc.kind s.desc = opDEC then decide (0 < (d.asm s.order).frames) && decide ((d.asm s.order).doneTide < d.tide)
    else (d.queue q).lanes.any fun l => l.any (·.last)

/-- Whether an operation of an admission is released at this boundary. -/
def Dev.releaseDue (d : Dev) (s : Slot) : Bool :=
  match d.ldg.adms.find? fun a => s.owner == .adm a.handle with
  | none => false
  | some a =>
    !s.detached && s.inst.isNone && !s.ended.and (!s.standing) &&
    (match s.lastDeadline with
      | some t => decide (t < d.tide)
      | none => true) &&
    (if !(Desc.preds s.desc).isEmpty then (Desc.preds s.desc).all fun i => !((assoc? i s.predsDone).getD []).isEmpty
      else if !s.standing then decide (a.start ≤ d.tide) && s.nInst == 0
      else if Desc.kind s.desc = opCMP then decide (d.pictureTide s a.start ≤ d.tide)
      else if Desc.cadence s.desc ≠ 0 then decide (s.nextCadence ≤ d.tide)
      else decide (a.start ≤ d.tide) && d.inputsThere s)

/-- The next cadence Tide after this one. -/
def nextAfter (cadence next tide : Nat) : Nat :=
  if cadence = 0 ∨ tide < next then next else next + ((tide - next) / cadence + 1) * cadence

/-- An operation's next instance is released: it is ready, and it uses one completion of each predecessor. -/
def Dev.releaseSlot (d : Dev) (s : Slot) : Dev :=
  let deadline := if s.standing then d.tide + Desc.window s.desc - 1 else s.finish
  let preds := (Desc.preds s.desc).eraseDups
  let used := preds.filterMap fun i => (((assoc? i s.predsDone).getD []).head?).map fun x => (i, x.1, x.2)
  let i : Inst := { count := s.nInst + 1, seq := (Desc.flowSeq s.desc + s.nInst) % 65536, release := d.tide,
                    deadline := deadline, state := .ready, engine := none, preds := used }
  d.setSlot { s with
    inst := some i, nInst := s.nInst + 1, lastDeadline := some deadline, ended := false,
    nextCadence := nextAfter (Desc.cadence s.desc) s.nextCadence d.tide,
    predsDone := s.predsDone.map fun (x : Nat × List (Nat × Nat)) => (x.1, x.2.drop 1) }

/-- Step 3 of R50: operations whose release Tide is the new Tide become ready. -/
def Dev.releaseStep (d : Dev) : Dev :=
  let d := ((d.wfg.slots.filter d.releaseDue).map (·.order)).foldl (fun (d : Dev) o =>
    match d.slotByOrder o with
    | some s => d.releaseSlot s
    | none => d) d
  let asms := d.dec.asms.filter fun a => d.wfg.slots.any (·.order == a.order)
  let d := { d with dec := { d.dec with asms := asms } }
  ((d.wfg.flows.map (·.id)).foldl Dev.flowIdle d).preemptScan

/-! ### A Tide break (R83) -/

/-- An instance's Tides moved by `f`. -/
def Inst.moved (i : Inst) (f : Nat → Nat) : Inst :=
  { i with release := f i.release, deadline := f i.deadline, startTide := f i.startTide }

/-- A slot's Tides moved by `f`. -/
def Slot.moved (s : Slot) (f : Nat → Nat) : Slot :=
  { s with
    booked := s.booked.map fun (x : Nat × Nat) => (f x.1, x.2)
    submitTide := f s.submitTide
    inst := s.inst.map fun (i : Inst) => i.moved f
    lastDeadline := s.lastDeadline.map f
    finish := f s.finish
    nextCadence := f s.nextCadence }

/-- An admission's Tides moved by `f`. -/
def Admission.moved (a : Admission) (f : Nat → Nat) : Admission :=
  { a with
    start := f a.start
    kind := match a.kind with
      | .oneshot t => .oneshot (f t)
      | k => k }

/-- The calendar moves with a Tide break: every release, deadline and entry keeps its distance. -/
def Dev.ledgerBreak (d : Dev) (f : Nat → Nat) : Dev :=
  let adms := d.ldg.adms.map fun (a : Admission) => a.moved f
  let slots := d.wfg.slots.map fun (s : Slot) => s.moved f
  let ran := d.wfg.ran.map fun (x : UnitId × Nat × Nat) => (x.1, f x.2.1, x.2.2)
  ({ d with ldg := { d.ldg with adms := adms }, wfg := { d.wfg with slots := slots, ran := ran } }).raise ldgPage 5

end Sys2Proof.Machine
end

