-- ==== Sys2Proof/Machine/Faults.lean ====
section
/-!
DEFINITION. A unit faults: what runs on it fails, a spare takes its calendar, and what follows where no spare is free
(R81, R82, R164, R214, R248, R249, R277, R305, R319, R320, R396, R526, R527, R563, R565).
-/

namespace Sys2Proof.Machine

/-- The Slipway page. -/
def slwPage : Page := ⟨.slw, 0⟩

/-- What a kind's figures are kept by where the cores of each pier count as a kind of their own (R565). -/
def kindKey (u : UnitId) : Nat := if u.kind = ukCore then 16 + u.pier else u.kind

/-! ### Carrying -/

/-- Kinds whose spare takes over at once: the lanes with a hand-over within microseconds (R164, R214, R248, R277, R305,
R526); engines, cores and the Abacus lanes change at the next Tide boundary (R81, R319, R320). -/
def swiftKind (k : Nat) : Bool := [0x7, 0x8, 0x9, 0xA, 0xB, 0xC, 0xE].contains k

/-- The calendar of `h` passes to what was chosen for it: back to itself, or to a spare. -/
def Dev.takeCalendar (d : Dev) (h : UnitId) : Dev :=
  let x := d.unit h
  match x.next with
  | none => d
  | some n =>
    let d := match x.carrier with
      | some s =>
        let y := d.unit ⟨h.kind, s⟩
        if s ≠ n ∧ y.carries = some h.idx then d.setUnit ⟨h.kind, s⟩ { y with carries := none, forAudit := false } else d
      | none => d
    if n = h.idx then d.setUnit h { x with next := none, carrier := none }
    else (d.setUnit h { x with next := none, carrier := some n }).setUnit ⟨h.kind, n⟩ { d.unit ⟨h.kind, n⟩ with carries := some h.idx }

/-- Spare `s` is to carry the calendar of `h` for a fault; SPARE_LOW if it was the last one free (R565). -/
def Dev.carryFor (d : Dev) (h : UnitId) (s : Nat) : Dev :=
  let v : UnitId := ⟨h.kind, s⟩
  let d := (d.setUnit v { d.unit v with carries := some h.idx, forAudit := false }).setUnit h
    { d.unit h with next := some s, lost := false }
  let d := if swiftKind h.kind then d.takeCalendar h else d
  if (d.freeSpares h).isEmpty then d.raise slwPage 3 else d

/-! ### Audits that end early (R562, R563) -/

/-- The slot of an audit's AUD operation ends. -/
def Dev.endAud (d : Dev) (a : Audit) (st : Status) : Dev :=
  let d := { d with slw := { d.slw with audits := d.slw.audits.filter fun x => x.unit != a.unit } }
  match d.slotByOrder a.order with
  | some s => d.endInst s st []
  | none => d

/-- An audit is aborted: the unit takes its calendar back at the next boundary. A core's data RAM stands as it was at the
hand-over, nothing is copied back (DESIGN CHOICE, log entry 134). -/
def Dev.abortAudit (d : Dev) (a : Audit) : Dev :=
  let d := ((d.endAud a .cancelled).bump Reg.slw_AUDIT_ABORT).raise slwPage 1
  let d := d.set Reg.slw_KIND_LAST_RESULT 2 [a.unit.kind]
  let d := d.setUnit a.unit { d.unit a.unit with audit := false }
  match a.spare with
  | none => d
  | some s =>
    let v : UnitId := ⟨a.unit.kind, s⟩
    (d.setUnit a.unit { d.unit a.unit with next := some a.unit.idx }).setUnit v { d.unit v with forAudit := false }

/-- The spare of an audit that a fault of `h` may take: that of another unit of the kind, or an idle spare that is itself
under audit. -/
def Dev.auditSpare (d : Dev) (h : UnitId) : Option (Audit × Nat) :=
  (d.slw.audits.filterMap fun a =>
    let s := a.spare.getD a.unit.idx
    let v : UnitId := ⟨a.unit.kind, s⟩
    if kindKey a.unit == kindKey h && a.unit != h && !(d.unit v).fault && !(d.unit v).retired then some (a, s)
    else none).head?

/-! ### What fails (R81, R82, R396) -/

/-- Every operation on a core fails, and what it was told to pre-empt for waits again. -/
def Dev.coreFails (d : Dev) (c : Nat) : Dev :=
  let x := d.core c
  let d := d.setCore { x with mode := .idle, ops := [], request := none, branch := none, loads := [], dma := [] }
  (x.ops.map (·.order)).foldl (fun (d : Dev) o =>
    match d.slotByOrder o with
    | some s => d.endInst s .failedUnitFault []
    | none => d) d

/-- What runs on a unit fails; on a SHA lane, the CRY operations that hash in it (R248). -/
def Dev.unitFails (d : Dev) (u : UnitId) : Dev :=
  if u.kind = ukCore then d.coreFails u.idx
  else if u.kind = ukSha then
    ((d.wfg.slots.filter fun s => s.inst.any fun i => i.state == .running && i.lane == some u.idx).map (·.order)).foldl
      (fun (d : Dev) o =>
        match d.slotByOrder o with
        | some s => d.failInst s
        | none => d) d
  else
    match d.runningOn u with
    | some (s, _) => d.failInst s
    | none => d

/-- The released instances of the calendar of `h` that no engine has started fail. -/
def Dev.dueFails (d : Dev) (h : UnitId) : Dev :=
  let due := d.wfg.slots.filter fun s => s.engine == some h && s.inst.any fun i => i.state == .ready
  (due.map (·.order)).foldl (fun (d : Dev) o =>
    match d.slotByOrder o with
    | some s => d.failInst s
    | none => d) d

/-- Admissions are lost: they end at the next Tide boundary (R82). -/
def Dev.loseAdms (d : Dev) (f : Admission → Bool) : Dev :=
  let adms := d.ldg.adms.map fun (a : Admission) => if f a then { a with ending := true, lost := true } else a
  { d with ldg := { d.ldg with adms := adms } }

/-- The admissions with a booking on a unit. -/
def Dev.bookedOn (d : Dev) (u : UnitId) (a : Admission) : Bool :=
  d.wfg.slots.any fun s => s.owner == .adm a.handle && !s.detached && s.engine == some u

/-- The reservations on the logical ports of the Quays given (R565). -/
def onQuays (qs : List Nat) (a : Admission) : Bool :=
  match a.kind with
  | .reserve r => qs.contains (r.lport / 4)
  | _ => false

/-- The handles to end, the latest first, until what is left fits. -/
def trimmed (excess : List Nat → Bool) : List Nat → List Nat → List Nat
  | ended, [] => ended
  | ended, h :: t => if excess ended then trimmed excess (h :: ended) t else ended

/-- What of a pool's figures is booked and charged, but for the admissions given and those that end already. -/
def Dev.poolUse (d : Dev) (k : Nat) (ended : List Nat) : Nat :=
  let adms := d.ldg.adms.filter fun a => !a.ending && !ended.contains a.handle
  let d' : Dev := { d with ldg := { d.ldg with adms := adms } }
  let bs := (d.wfg.slots.filter fun s => !s.detached && adms.any fun a => s.owner == .adm a.handle).filterMap fun s =>
    s.engine.map fun u => (⟨u, s.share, s.booked, s.finish⟩ : Booking)
  let u := poolUnit k 0
  standingOf bs u + d.peakOf bs u + (if k = 7 then ceilDiv (d'.charged 7 0) 1000 else 0)

/-- A pool has lost capacity: the admissions on it end, the latest handle first, until the figures fit (R249, R319). -/
def Dev.trimPool (d : Dev) (k : Nat) : Dev :=
  let mine := d.ldg.adms.filter fun a => !a.ending &&
    (d.bookedOn (poolUnit k 0) a || (k == 7 && match a.kind with
      | .reserve _ => true
      | _ => false))
  let gone := trimmed (fun ended => decide (d.published (poolUnit k 0) < d.poolUse k ended)) [] (mine.map (·.handle)).reverse
  d.loseAdms fun a => gone.contains a.handle

/-- A fault that finds no spare (R82, R565). -/
def Dev.noSpare (d : Dev) (h : UnitId) : Dev :=
  let d := (d.setUnit h { d.unit h with lost := true, next := none }).publish
  match h.kind with
  | 0x4 => (d.raise ⟨.abx, 0⟩ 7).trimPool 4
  | 0x7 => (d.raise ⟨.bnd, 0⟩ 7).trimPool 7
  | 0xC => d.raise ⟨.bnd, 0⟩ 7
  | 0x8 => d.loseAdms (onQuays [2 * h.idx, 2 * h.idx + 1])
  | 0x9 => d.loseAdms (onQuays [h.idx])
  | 0xA => d.set Reg.dev_DEV_STATE 2
  | 0xB => d.quayLinksDown (h.idx / 4)
  | 0xD => (d.dressGone h.idx).raise ⟨.abx, 0⟩ 7
  | 0xE =>
    let d : Dev := { d with hold := { d.hold with lost := d.hold.lost ++ [h.idx] } }
    (d.set Reg.hld_CH_STATE 5 [h.idx]).raiseLog hldPage 4 (detail := leBytes 1 h.idx)
  | _ =>
    let d := d.dueFails h
    let d := d.loseAdms (d.bookedOn h)
    if h.kind = ukCore then d.raise h.page 7 else d

/-- A calendar needs another engine: a free spare, or the spare of an audit, or none (R81, R82, R563). -/
def Dev.moveCalendar (d : Dev) (h : UnitId) : Dev :=
  let (d, free) : Dev × Option Nat := d.pick (d.freeSpares h)
  match free with
  | some s => d.carryFor h s
  | none =>
    match d.auditSpare h with
    | some (a, s) => ((d.abortAudit a).carryFor h s).dueFails h
    | none => d.noSpare h

/-- The calendar a unit executes, or was chosen to execute from the next boundary, for anything but an audit. -/
def Dev.holds (d : Dev) (u : UnitId) : Option UnitId :=
  let x := d.unit u
  match x.carries with
  | some h => if x.forAudit then none else some ⟨u.kind, h⟩
  | none => d.home u

/-- The event of the page of a unit that faults (R164, R214, R276, R317, R396, R434, R461, R496, R527): a Hold channel's controller
raises its own only where a spare stands in. -/
def Dev.faultEvent (d : Dev) (u : UnitId) : Dev :=
  match u.kind with
  | 0x5 => d.raiseLog u.page 4 (detail := leBytes 1 (coreLocal u.idx))
  | 0xB => d
  | 0xE =>
    if !(d.freeSpares u).isEmpty ∧ (d.holds u).isSome then d.raiseLog hldPage 3 (detail := leBytes 1 u.idx) else d
  | k => if k ≤ 3 then d.raiseLog u.page 0 else d.raiseLog u.page 0 (detail := leBytes 1 u.idx)

/-- A unit faults (R81, R82, R562–R564): its page reports it, its audit ends, what runs on it fails, its calendar moves. -/
def Dev.faultUnit (d : Dev) (u : UnitId) : Dev :=
  let x := d.unit u
  if !d.unitExists u || x.fault then d
  else
    let d := d.faultEvent u
    let held := d.holds u
    let mine := d.slw.audits.find? fun a => a.unit == u
    let asSpare := d.slw.audits.find? fun a => a.unit.kind == u.kind && a.spare == some u.idx
    let d := d.setUnit u { x with fault := true, softReset := false, audit := false, forAudit := false }
    let d := match mine with
      | some a =>
        let d := d.endAud a .failedUnitFault
        match a.spare with
        | some s => d.setUnit ⟨u.kind, s⟩ { d.unit ⟨u.kind, s⟩ with forAudit := false }
        | none => d
      | none => d
    let d := match asSpare with
      | some a => d.abortAudit a
      | none => d
    let d := d.unitFails u
    match held with
    | some h =>
      (if h = u then d else d.setUnit u { d.unit u with carries := none }).moveCalendar h
    | none => d

/-! ### The fault events -/

/-- A unit of a page that has power faults; one that is in FAULT stands. -/
def Dev.fails (d : Dev) (u : UnitId) : Bool := d.live u.page && d.unitExists u && !(d.unit u).fault

/-- ENGINE_FAULT: a VDE, a Survey, a Lighter or a Composer faults (R434, R461, R496). -/
def Dev.engineFault (d : Dev) (kind index : Nat) : Dev :=
  let u : UnitId := ⟨kind, index⟩
  if kind ≤ 3 ∧ d.fails u = true then d.faultUnit u else d

/-- CORE_FAULT: a Reckoner core faults (R396). -/
def Dev.coreFault (d : Dev) (c : Nat) : Dev := if d.fails (coreUnit c) then d.faultUnit (coreUnit c) else d

/-- A lane of a device-level unit faults: what was lost with it is counted. -/
def Dev.laneFault (d : Dev) (u : UnitId) (c : RegField) (ix : List Nat) (lost : Nat) : Dev :=
  if d.fails u then (d.bump c ix lost).faultUnit u else d

/-- BWR_PIPE_FAULT: `lost` frames are dropped under PIPE_FAULT (R214). -/
def Dev.bwrPipeFault (d : Dev) (i lost : Nat) : Dev := d.laneFault ⟨ukBwr, i⟩ Reg.bwr_REASON_COUNT [0x1B] lost

/-- BND_PIPE_FAULT: an AES pipeline, or a SHA lane (R248). -/
def Dev.bndPipeFault (d : Dev) (sha : Bool) (i lost : Nat) : Dev :=
  d.laneFault ⟨if sha then ukSha else ukAes, i⟩ Reg.bnd_PIPE_FAULT_DROP [] lost

/-- FRY_LANE_FAULT (R277). -/
def Dev.fryLaneFault (d : Dev) (i lost : Nat) : Dev := d.laneFault ⟨ukFry, i⟩ Reg.fry_PIPE_FAULT_DROP [] lost

/-- TLY_LANE_FAULT (R305). -/
def Dev.tlyLaneFault (d : Dev) (i lost : Nat) : Dev := d.laneFault ⟨ukTly, i⟩ Reg.tly_PIPE_FAULT_DROP [] lost

/-- ABX_MAC_FAULT: the mixes the lane computes in this Tide are silenced (R319). -/
def Dev.macFault (d : Dev) (i : Nat) (mixes : List Nat) : Dev :=
  let u : UnitId := ⟨ukMac, i⟩
  if d.fails u then (if (d.holds u).isSome then d.macSilence mixes else d).faultUnit u else d

/-- ABX_DRESS_FAULT (R320). -/
def Dev.dressFault (d : Dev) (i : Nat) : Dev :=
  let u : UnitId := ⟨ukDress, i⟩
  if d.fails u then
    (match d.holds u with
      | some h => d.dressSilence h.idx
      | none => d).faultUnit u
  else d

/-- CTRL_FAULT: a Hold channel controller faults; with its group's spare in use the channel is lost (R526, R527). -/
def Dev.ctrlFault (d : Dev) (i : Nat) : Dev := if d.fails ⟨ukHold, i⟩ then d.faultUnit ⟨ukHold, i⟩ else d

/-- QAY_PCS_FAULT: a PCS lane set of a Quay faults (R565). -/
def Dev.qayPcsFault (d : Dev) (i : Nat) : Dev := if d.fails ⟨ukPcs, i⟩ then d.faultUnit ⟨ukPcs, i⟩ else d

end Sys2Proof.Machine
end

