-- ==== Sys2Proof/Machine/HoldOps.lean ====
section
/-!
DEFINITION. What Hold does of itself and on command: single requests, refresh, retraining, scrub, self-refresh, enable,
error injection (R507, R509, R513, R517–R520, R525, R528).
-/

namespace Sys2Proof.Machine

/-! ### Single requests -/

/-- HOLD_READ: a read of one block for a requester, with what its DQ lines bring. -/
def Dev.holdReadOne (d : Dev) (a : Nat) (flaw : ReadFlaw) (who : Page) : Dev :=
  match d.readBlock (a / 64 * 64) who flaw with
  | (d, .ok b) => d.emit (.holdResponse none b)
  | (d, .error e) => d.emit (.holdResponse (some e) [])

/-- HOLD_WRITE: a write of bytes for a requester. -/
def Dev.holdWriteOne (d : Dev) (a : Nat) (b : Bytes) (who : Page) : Dev :=
  match d.holdWrite a b who with
  | (d, e) => d.emit (.holdResponse e [])

/-! ### Refresh, training, scrub (R517–R520, R525) -/

/-- REFRESH_RATE_READ: the indication of a channel's dies sets its multiplier. -/
def Dev.refreshRate (d : Dev) (ch ind : Nat) : Dev :=
  if d.channels ≤ ch ∨ 2 < ind ∨ !d.live hldPage then d
  else
    let hot := ind == 2 && d.get Reg.hld_CH_REFRESH_MULT [ch] != 2
    let d := d.set Reg.hld_CH_REFRESH_MULT ind [ch]
    let d := d.set Reg.hld_HOT (bitOf ((List.range d.channels).any fun c => d.get Reg.hld_CH_REFRESH_MULT [c] == 2))
    if hot then d.raise hldPage 7 else d

/-- RETRAIN of a channel in its Tide slot at phase 500,000 ns; every third failure in a row is a
controller fault. -/
def Dev.retrain (d : Dev) (ch : Nat) (ok : Bool) : Dev :=
  let n := clampN 16 1000 (d.get Reg.hld_RETRAIN_TIDES)
  let st := d.get Reg.hld_CH_STATE [ch]
  if d.channels ≤ ch ∨ !d.live hldPage ∨ d.tide % n ≠ ch % n ∨ 500000 < d.phase ∨ (st ≠ 2 ∧ st ≠ 3) then d
  else
    let d := d.atPhase 500000
    if ok then d.set Reg.hld_CH_RETRAIN_CONSEC 0 [ch]
    else
      let k := d.get Reg.hld_CH_RETRAIN_CONSEC [ch] + 1
      let d := ((d.bump Reg.hld_CH_RETRAIN_FAIL [ch]).set Reg.hld_CH_RETRAIN_CONSEC (min k 65535) [ch]).raise hldPage 8
      if k % 3 = 0 then d.ctrlFault (d.executor ⟨ukHold, ch⟩).idx else d

/-- The corrections a channel has counted in its window. -/
def Dev.windowCount (d : Dev) (ch : Nat) : Nat := ((assoc? ch d.hold.runs).map (·.ceWindow)).getD 0

/-- PATROL_SCRUB of a block: a correction is written back and counted. -/
def Dev.patrolScrub (d : Dev) (a : Nat) (flaw : ReadFlaw) : Dev :=
  let blk := a / 64 * 64
  if !d.flag Reg.hld_SCRUB_EN then d
  else
    match d.holdPlace blk with
    | none => d
    | some (ch, _) =>
      let before := d.windowCount ch
      match d.readBlock blk hldPage flaw true with
      | (d, .ok _) =>
        if before < d.windowCount ch then
          { d with hold := { d.hold with bad := assocDel blk d.hold.bad } }.bump Reg.hld_SCRUB_CORR
        else d
      | (d, .error _) => d

/-- SELF_REFRESH_ENTRY of a channel (R520). -/
def Dev.selfRefresh (d : Dev) (ch : Nat) : Dev :=
  let idle : Bool := match assoc? ch d.hold.lastAccess with
    | some t => decide (t + 1000 * atLeast1 (d.get Reg.hld_SR_IDLE) ≤ d.ns)
    | none => true
  if ch < d.channels ∧ d.live hldPage ∧ d.flag Reg.hld_AUTO_SR_EN ∧ d.get Reg.hld_CH_STATE [ch] = 2 ∧ d.ldg.adms.isEmpty ∧ idle then
    (d.set Reg.hld_CH_STATE 3 [ch]).bump Reg.hld_CH_SR_ENTRIES [ch]
  else d

/-- A new Tide begins: with a new window of 1,000 Tides each channel's count starts again (R525). -/
def Dev.holdWindow (d : Dev) (was : Nat) : Dev :=
  if was / 1000 = d.tide / 1000 then d
  else { d with hold := { d.hold with runs := d.hold.runs.map fun (x : Nat × ChanRun) =>
    (x.1, { x.2 with ceWindow := 0, stormed := false }) } }

/-! ### HLD_CTRL (R513, R528) -/

/-- Injection is disarmed. -/
def Dev.disarm (d : Dev) : Dev := ({ d with hold := { d.hold with injection := none } }).set Reg.hld_ARMED 0

/-- A write to HLD_CTRL: an enable checks the regions, and INJ_EN at 0 disarms any injection. -/
def Dev.holdCtrlWrite (d : Dev) (w : Word) : Dev :=
  if !d.live hldPage then d
  else
    let d := ((d.set Reg.hld_INJ_EN (Word.fld w 3 3)).set Reg.hld_SCRUB_EN (Word.fld w 2 2)).set Reg.hld_AUTO_SR_EN (Word.fld w 1 1)
    let d := if Word.fld w 3 3 = 0 then d.disarm else d
    if Word.fld w 0 0 = 0 then d.set Reg.hld_EN 0
    else if d.flag Reg.hld_EN then d
    else if d.regionsOk then (d.remap.set Reg.hld_EN 1).set Reg.hld_REGION_BAD 0
    else ((d.set Reg.hld_REGION_BAD 1).raise hldPage 6).logIgnored hldPage (Reg.hld_EN.addrAt [])

/-- HOLD_ENABLE: EN is written as 1, the other fields as they stand. -/
def Dev.holdEnable (d : Dev) : Dev := d.holdCtrlWrite (Word.withFld (d.word (Reg.hld_EN.addrAt [])) 0 0 1)

/-- INJ_DISABLE: INJ_EN is written as 0. -/
def Dev.injDisable (d : Dev) : Dev := d.holdCtrlWrite (Word.withFld (d.word (Reg.hld_EN.addrAt [])) 3 3 0)

/-- The block an injection names. -/
def Dev.injBlock (d : Dev) : Nat := d.get64 Reg.hld_INJ_ADDR_LO Reg.hld_INJ_ADDR_HI / 64 * 64

/-- ARM and INJ_POISON as a write of their word gives them (R528). -/
def Dev.injWrite (d : Dev) (w : Word) : Dev :=
  if !d.live hldPage then d
  else if Word.fld w 1 0 = 0 then d
  else if !d.flag Reg.hld_INJ_EN then d.logIgnored hldPage (Reg.hld_ARM.addrAt [])
  else
    let blk := d.injBlock
    let d := if Word.fld w 1 1 = 1 ∧ !d.hold.poison.contains blk then
        { d with hold := { d.hold with poison := blk :: d.hold.poison, poisonLogged := d.hold.poisonLogged.filter (· != blk) } }
      else d
    if Word.fld w 0 0 = 0 then d
    else
      let i : Injection := ⟨d.get Reg.hld_INJ_CH, d.get Reg.hld_INJ_SYMBOLS, d.flag Reg.hld_INJ_REPEAT,
        d.flag Reg.hld_INJ_CHECK, d.flag Reg.hld_INJ_ON_WRITE, blk⟩
      ({ d with hold := { d.hold with injection := some i } }).set Reg.hld_ARMED 1

/-- The words of an injection are written, then its strobe. -/
def Dev.injCmd (d : Dev) (ctl lo hi : Word) (strobe : Word) : Dev :=
  if !d.live hldPage then d
  else
    let d := (((d.set Reg.hld_INJ_CH (Word.fld ctl 29 24)).set Reg.hld_INJ_SYMBOLS (Word.fld ctl 19 16)).set Reg.hld_INJ_REPEAT
      (Word.fld ctl 3 3)).set Reg.hld_INJ_CHECK (Word.fld ctl 2 2)
    ((d.set Reg.hld_INJ_ON_WRITE (Word.fld ctl 1 1)).set64 Reg.hld_INJ_ADDR_LO Reg.hld_INJ_ADDR_HI (lo.toNat + 2 ^ 32 * hi.toNat)).injWrite
      strobe

end Sys2Proof.Machine
end

