-- ==== Sys2Proof/Machine/Apu.lean ====
section
/-!
DEFINITION. The Audio Port Unit (chapter 11, R355–R369): alignment groups, TDM and AES3 members, alignment to the
Tide, and the clock monitors.
-/

namespace Sys2Proof.Machine

/-- The APU page. -/
def apuPage : Page := ⟨.apu, 0⟩

/-- A member with nothing in it. -/
def Member.idle (m : Nat) : Member := { num := m }

/-- Member `m`: 0–7 TDM ports, 8–11 AES3 receivers, 12–15 AES3 transmitters. -/
def Dev.member (d : Dev) (m : Nat) : Member := (d.apu.members.find? (·.num == m)).getD (Member.idle m)

/-- The device with a member replaced. -/
def Dev.setMember (d : Dev) (x : Member) : Dev :=
  let rest := d.apu.members.filter (fun y => y.num != x.num)
  { d with apu := { d.apu with members := if x = Member.idle x.num then rest else rest ++ [x] } }

/-- The group of a member, and whether its EN is 1. -/
def Dev.memberGroup (d : Dev) (m : Nat) : Nat :=
  if m < 8 then d.get Reg.apu_TDM_GROUP [m] else if m < 12 then d.get Reg.apu_AES_RX_GROUP [m - 8]
  else d.get Reg.apu_AES_TX_GROUP [m - 12]
def Dev.memberEn (d : Dev) (m : Nat) : Bool :=
  if m < 8 then d.flag Reg.apu_TDM_EN [m] else if m < 12 then d.flag Reg.apu_AES_RX_EN [m - 8]
  else d.flag Reg.apu_AES_TX_EN [m - 12]

/-- Whether a member is in service: the APU, its group without CFG_BAD, and itself enabled (R357). -/
def Dev.memberOn (d : Dev) (m : Nat) : Bool :=
  let g := d.memberGroup m
  d.live apuPage && d.flag Reg.apu_EN && d.flag Reg.apu_GRP_EN [g] && !d.flag Reg.apu_GRP_CFG_BAD [g] && d.memberEn m

/-! ### Settings (R357, R360) -/

/-- The rate of a rate code in Hz (R373). -/
def rateHz (c : Nat) : Nat := [32000, 44100, 48000, 88200, 96000, 176400, 192000].getD c 0

/-- The width of a slot in bits. -/
def slotBits (w : Nat) : Nat := [16, 24, 32].getD w 0

/-- Whether the settings of TDM port n break R360, at its group's rate. -/
def Dev.tdmBad (d : Dev) (n : Nat) : Bool :=
  let f := d.get Reg.apu_TDM_FORMAT [n]
  let w := d.get Reg.apu_TDM_WIDTH [n]
  let slots := d.get Reg.apu_TDM_SLOTS [n] + 1
  f == 3 || w == 3 || (f != 2 && slots != 2) ||
    decide (49152000 < rateHz (d.get Reg.apu_GRP_RATE [d.memberGroup n]) * slots * slotBits w)

/-- Whether the settings of group g break R357 or R360. -/
def Dev.groupBad (d : Dev) (g : Nat) : Bool :=
  let mode := d.get Reg.apu_GRP_ASRC_MODE [g]
  let rate := d.get Reg.apu_GRP_RATE [g]
  let base := match mode with
    | 0 => rate != 2
    | 1 => rate == 0 || decide (4 < rate) || d.get Reg.apu_GRP_CLK_SRC [g] != 0
    | 2 => rate == 0 || decide (4 < rate)
    | _ => true
  base || decide (4 < d.get Reg.apu_GRP_CLK_SRC [g]) ||
    (List.range 8).any fun n => d.flag Reg.apu_TDM_EN [n] && d.memberGroup n == g && d.tdmBad n

/-- The states of a monitor. -/
def monAcquire : Nat := 1
def monLocked : Nat := 2
def monLost : Nat := 3

/-- The monitor that watches the CLK_SRC of a group (R358, R368). -/
def Dev.srcMon (d : Dev) (g : Nat) : Option Nat :=
  match d.get Reg.apu_GRP_CLK_SRC [g] with
  | 1 => some 0
  | 2 => some 1
  | 3 => some 2
  | 4 => some (11 + d.get Reg.apu_GRP_CLK_AES [g])
  | _ => none

/-- HOLD of every group: its CLK_SRC is LOST (R369, R373). -/
def Dev.apuHolds (d : Dev) : Dev :=
  (List.range 8).foldl (fun d g =>
    d.set Reg.apu_GRP_HOLD (bitOf ((d.srcMon g).any fun m => d.get Reg.apu_MON_STATE [m] == monLost)) [g]) d

/-- CFG_BAD and HOLD of the groups, after a write to the settings (R357, R373). -/
def Dev.apuCheck (d : Dev) : Dev :=
  ((List.range 8).foldl (fun d g =>
    let bad := d.flag Reg.apu_GRP_EN [g] && d.groupBad g
    let was := d.flag Reg.apu_GRP_CFG_BAD [g]
    let d := d.set Reg.apu_GRP_CFG_BAD (bitOf bad) [g]
    if bad && !was then d.raise apuPage 4 else d) d).apuHolds

/-- The frequencies driven on WCLK_OUT and AMCLK_OUT, 0 where a pin is not driven (R373). -/
def Dev.wclkOut (d : Dev) : Nat :=
  if d.flag Reg.apu_EN && d.flag Reg.apu_WCLK_OUT_EN then rateHz (d.get Reg.apu_GRP_RATE [d.get Reg.apu_WCLK_OUT_GROUP]) else 0
def Dev.amclkOut (d : Dev) : Nat :=
  if d.flag Reg.apu_EN && d.flag Reg.apu_AMCLK_OUT_EN then
    [24576000, 22579200, 12288000, 11289600].getD (d.get Reg.apu_AMCLK_OUT_SEL) 0 else 0

/-- The clock outputs change as a write changes what they carry. -/
def Dev.audioClocks (d before : Dev) : Dev :=
  let d := if d.wclkOut = before.wclkOut then d else d.emit (.wclkOut d.wclkOut)
  if d.amclkOut = before.amclkOut then d else d.emit (.amclkOut d.amclkOut)

/-- The reference member of a group (R359): its lowest enabled TDM port, or its lowest enabled AES3 receiver. -/
def Dev.refMember (d : Dev) (g : Nat) : Option Nat :=
  (List.range 12).find? fun m => d.memberOn m && d.memberGroup m == g

/-- The member whose transmit fill decides for a group: its lowest enabled TDM port, or its lowest enabled AES3
transmitter. -/
def Dev.refSender (d : Dev) (g : Nat) : Option Nat :=
  (List.range 8 ++ [12, 13, 14, 15]).find? fun m => d.memberOn m && d.memberGroup m == g

/-! ### Channels (R355, R361, R362) -/

/-- The first channel of a member, and how many it has. -/
def memberBase (m : Nat) : Nat := if m < 8 then 32 * m else 256 + 2 * (m % 4)
def memberChans (m : Nat) : Nat := if m < 8 then 32 else 2

/-- The masks in use on TDM port n: receive and transmit. -/
def Dev.tdmMasks (d : Dev) (n : Nat) : Nat × Nat := ((d.apu.masks.find? (·.1 == n)).map (·.2)).getD (0, 0)

/-- TDM_MASK_APPLY: the masks in effect are used from this frame sync on (R362). -/
def Dev.tdmMaskApply (d : Dev) (n : Nat) : Dev :=
  let rest := d.apu.masks.filter (·.1 != n)
  if 8 ≤ n then d
  else { d with apu := { d.apu with masks := rest ++ [(n, d.get Reg.apu_TDM_RX_MASK [n], d.get Reg.apu_TDM_TX_MASK [n])] } }

/-- Whether slot s of member m is enabled for a direction; slots at or beyond the slot count are ignored. -/
def Dev.slotOn (d : Dev) (m s : Nat) (tx : Bool) : Bool :=
  if m < 8 then
    decide (s ≤ d.get Reg.apu_TDM_SLOTS [m]) && bitAt (if tx then (d.tdmMasks m).2 else (d.tdmMasks m).1) s
  else decide (s < 2)

/-- The 24-bit sample of a received slot of a width (R361); AES3 and converted samples have 24 bits. -/
def rxSample (width v : Nat) : Int :=
  toSigned 24 (match width with
    | 16 => v % 65536 * 256
    | 32 => v / 256 % 2 ^ 24
    | _ => v % 2 ^ 24)

/-- What a slot of a width carries of a 24-bit sample (R361). -/
def txWord (width : Nat) (x : Int) : Nat :=
  match width with
  | 16 => ofSigned 24 x / 256
  | 32 => ofSigned 24 x * 256
  | _ => ofSigned 24 x

/-- The width of member m's slots in bits. -/
def Dev.memberWidth (d : Dev) (m : Nat) : Nat := if m < 8 then slotBits (d.get Reg.apu_TDM_WIDTH [m]) else 24

/-- Whether a receiver's channels are muted as non-audio (R364). -/
def Dev.nonaudioMuted (d : Dev) (m : Nat) : Bool :=
  decide (8 ≤ m) && decide (m < 12) && d.flag Reg.apu_AES_RX_NONAUDIO [m - 8] &&
    d.get Reg.apu_GRP_ASRC_MODE [d.memberGroup m] != 0

/-- One received frame of member m (R361, R363): a subframe with an error delivers the previous sample, one whose
validity bit is set delivers zero while VALID_MUTE is 1. -/
def Dev.rxFrame1 (d : Dev) (m : Nat) (prev : List Int) (f : List AudioWord) : List Int :=
  let raw := d.get Reg.apu_GRP_ASRC_MODE [d.memberGroup m] == 0
  (List.range (memberChans m)).map fun s =>
    let w := f.getD s ⟨0, false, false, false⟩
    if 8 ≤ m ∧ (w.parity ∨ w.biphase) then prev.getD s 0
    else if 8 ≤ m ∧ w.invalid ∧ d.flag Reg.apu_AES_RX_VALID_MUTE [m - 8] then 0
    else rxSample (if raw then d.memberWidth m else 24) w.value

/-- The frames a member received in a Tide, put into its FIFO of 192 frames; what finds it full is lost. -/
def Dev.rxFrames (d : Dev) (m : Nat) (fs : List (List AudioWord)) : Dev :=
  let x := d.member m
  let (rx, last) := fs.foldl (fun (acc : List (List Int) × List Int) f =>
    let y := d.rxFrame1 m acc.2 f
    (acc.1 ++ [y], y)) (x.rx, x.last)
  let d := d.setMember { x with rx := rx.take 192, last := last }
  if 8 ≤ m ∧ m < 12 then
    let count := fun (p : AudioWord → Bool) => ((fs.map fun f => (f.filter p).length).sum)
    let d := if count (·.parity) = 0 then d else d.bump Reg.apu_AES_RX_PARITY_ERR [m - 8] (count (·.parity))
    if count (·.biphase) = 0 then d else d.bump Reg.apu_AES_RX_BIPHASE_ERR [m - 8] (count (·.biphase))
  else d

/-! ### Slips and blocks (R366, R367) -/

/-- SLIP_WIN in effect. -/
def Dev.slipWin (d : Dev) (g : Nat) : Nat := clampN 4 48 (d.get Reg.apu_GRP_SLIP_WIN [g])

/-- The slip decision of a group for a fill: 1 insert, 2 drop, 0 none. -/
def Dev.slipOf (d : Dev) (g fill : Nat) : Nat :=
  if fill + d.slipWin g ≤ 96 then 1 else if 96 + d.slipWin g ≤ fill then 2 else 0

/-- A slip is counted, recorded, raised and logged. -/
def Dev.noteSlip (d : Dev) (g kind : Nat) (tx : Bool) : Dev :=
  if kind = 0 then d
  else
    let c := match tx, kind with
      | false, 1 => Reg.apu_GRP_RX_SLIP_INS
      | false, _ => Reg.apu_GRP_RX_SLIP_DROP
      | true, 1 => Reg.apu_GRP_TX_SLIP_INS
      | true, _ => Reg.apu_GRP_TX_SLIP_DROP
    let d := (d.bump c [g]).set Reg.apu_GRP_SLIP_TIDE (d.tide % 2 ^ 32) [g]
    let d := ((d.set Reg.apu_GRP_SLIP_TX (bitOf tx) [g]).set Reg.apu_GRP_SLIP_INSERT (bitOf (kind == 1)) [g]).set
      Reg.apu_GRP_SLIP_PHASE d.phase [g]
    d.raiseLog apuPage 3

/-- The 48 frames a member delivers at a boundary, and what is left: an insert repeats the last of 47, a drop
discards the oldest first, an empty FIFO gives zeros. -/
def readFrames (kind chans : Nat) (fifo : List (List Int)) : List (List Int) × List (List Int) :=
  let zero := List.replicate chans (0 : Int)
  let fifo := if kind = 2 then fifo.drop 1 else fifo
  let n := if kind = 1 then 47 else 48
  let got := fifo.take n ++ List.replicate (n - fifo.length) zero
  (if kind = 1 then got ++ [got.getLastD zero] else got, fifo.drop n)

/-- A sample under a mute that began or ended in a Tide (R369), over the 48 samples of its block. -/
def fade (mute : Bool) (since : Option Nat) (tide n : Nat) (x : Int) : Int :=
  x * muted mute since tide n 65536 / 65536

/-- The receive side of a member at the boundary that ends Tide `t`: its channels' blocks. -/
def Dev.rxBlocks (d : Dev) (m kind t : Nat) : Dev :=
  let x := d.member m
  let (fs, rest) := readFrames kind (memberChans m) x.rx
  let d := d.setMember { x with rx := rest }
  let blocks := (List.range (memberChans m)).filterMap fun s =>
    if !d.slotOn m s false || d.nonaudioMuted m then none
    else some (memberBase m + s, (List.range 48).map fun n => fade x.rxMute x.rxAt t n ((fs.getD n []).getD s 0))
  { d with apu := { d.apu with blocks := d.apu.blocks ++ blocks } }

/-- Whether an output block goes to a channel: DEST_KIND and DEST_INDEX of the record it was made with (R326, R338, R355). -/
def OutBlock.goesTo (y : OutBlock) (kind c : Nat) : Bool :=
  y.args.any fun w => wfld w 0 21 20 == kind && wfld w 0 31 22 == c

/-- The output block delivered to a channel at the boundary that begins `d.tide`: that of input Tide `d.tide` − 3. -/
def Dev.outBlock (d : Dev) (kind c : Nat) : List Int :=
  (d.abx.mixes.findSome? fun x => (x.2.outs.find? fun y => y.tide + 3 == d.tide && y.goesTo kind c).map (·.samples)).getD silence

/-- Whether a disabled transmit slot of a TDM port is driven as zero: TX_IDLE is 0 (R362). -/
def Dev.idleZero (d : Dev) (m s : Nat) : Bool :=
  decide (m < 8) && decide (s ≤ d.get Reg.apu_TDM_SLOTS [m]) && !d.flag Reg.apu_TDM_TX_IDLE [m]

/-- What a member's transmit side sent in the Tide just ended. -/
def Dev.txSend (d : Dev) (m n : Nat) : Dev :=
  let x := d.member m
  let sent := x.tx.take n
  let d := d.setMember { x with tx := x.tx.drop n }
  if sent.isEmpty || !d.outputsOpen then d
  else
    (List.range (memberChans m)).foldl (fun d s =>
      if d.slotOn m s true then
        d.emit (.audio (memberBase m + s) (sent.map fun f => txWord (d.memberWidth m) (f.getD s 0)))
      else if d.idleZero m s then d.emit (.audio (memberBase m + s) (sent.map fun _ => 0)) else d) d

/-- The transmit side of a member takes 48 frames from the output blocks: an insert adds the last once more, a drop
leaves the first out. -/
def Dev.txBlocks (d : Dev) (m kind : Nat) : Dev :=
  let x := d.member m
  let cols := (List.range (memberChans m)).map fun s => if d.slotOn m s true then d.outBlock 2 (memberBase m + s) else silence
  let frames := (List.range 48).map fun n => cols.map fun c => fade x.txMute x.txAt d.tide n (c.getD n 0)
  let frames := match kind with
    | 1 => frames ++ [frames.getLastD []]
    | 2 => frames.drop 1
    | _ => frames
  d.setMember { x with tx := (x.tx ++ frames).take 192 }

/-- The members of a group that are in service, for a direction. -/
def Dev.groupMembers (d : Dev) (g : Nat) (tx : Bool) : List Nat :=
  ((List.range 8) ++ (if tx then [12, 13, 14, 15] else [8, 9, 10, 11])).filter fun m => d.memberOn m && d.memberGroup m == g

/-- The extra samples of latency of a group's converters (R366). -/
def Dev.filterDelay (d : Dev) (g : Nat) : Nat :=
  match d.get Reg.apu_GRP_ASRC_MODE [g] with
  | 0 => 0
  | 1 => if d.get Reg.apu_GRP_RATE [g] = 2 then 0 else 16
  | _ => 16

/-- The receive side of a group at a boundary (R366, R367): one slip decision, from its reference member's fill. -/
def Dev.groupRx (d : Dev) (g t : Nat) : Dev :=
  match d.refMember g with
  | none => d
  | some r =>
    let f := (d.member r).rx.length
    let d := (d.set Reg.apu_GRP_RX_FILL f [g]).set Reg.apu_GRP_RX_LAT (16 * (f + d.filterDelay g)) [g]
    let k := d.slipOf g f
    (d.groupMembers g false).foldl (fun d m => d.rxBlocks m k t) (d.noteSlip g k false)

/-- The transmit side of a group at a boundary (R366, R367). -/
def Dev.groupTx (d : Dev) (g : Nat) : Dev :=
  match d.refSender g with
  | none => d
  | some r =>
    let f := (d.member r).tx.length
    let d := (d.set Reg.apu_GRP_TX_FILL f [g]).set Reg.apu_GRP_TX_LAT (16 * (f + d.filterDelay g)) [g]
    let k := d.slipOf g f
    (d.groupMembers g true).foldl (fun d m => d.txBlocks m k) (d.noteSlip g k true)

/-- A group at the boundary that ends Tide `t`. -/
def Dev.groupTide (d : Dev) (g t : Nat) : Dev := (d.groupRx g t).groupTx g

/-- Whether member `m`'s ratio is held: its own incoming clock, or the CLK_SRC that clocks it, is LOST (R369). -/
def Dev.ratioHeld (d : Dev) (m : Nat) : Bool :=
  if 12 ≤ m || (decide (m < 8) && d.flag Reg.apu_TDM_MASTER [m]) then d.flag Reg.apu_GRP_HOLD [d.memberGroup m]
  else d.get Reg.apu_MON_STATE [m + 3] == monLost

/-- What the members did in Tide `t`, which has ended, and the blocks of its boundary (R366). -/
def Dev.apuTide (d : Dev) (t : Nat) (ms : List MemberTide) : Dev :=
  let d := { d with apu := { d.apu with blocks := [] } }
  let d := ms.foldl (fun d x =>
    if !d.memberOn x.member || decide (16 ≤ x.member) then d
    else
      let d := if x.member < 12 then d.rxFrames x.member x.frames else d
      let d := if x.member < 8 ∨ 12 ≤ x.member then d.txSend x.member x.consumed else d
      let d := match x.fsPhase with
        | some p => if x.member < 8 then d.set Reg.apu_TDM_FS_PHASE p [x.member]
          else if x.member < 12 then d.set Reg.apu_AES_RX_FS_PHASE p [x.member - 8] else d
        | none => d
      let g := d.memberGroup x.member
      match x.ratio with
      | some q => if d.refMember g = some x.member ∧ d.get Reg.apu_GRP_ASRC_MODE [g] = 2 ∧ !d.ratioHeld x.member then d.set Reg.apu_GRP_RATIO q [g] else d
      | none => d) d
  (List.range 8).foldl (fun d g =>
    let d := if d.get Reg.apu_GRP_ASRC_MODE [g] = 1 ∧ (d.refMember g).isSome then
      d.set Reg.apu_GRP_RATIO (rateHz (d.get Reg.apu_GRP_RATE [g]) * 2 ^ 24 / 48000) [g] else d
    d.groupTide g t) d

/-! ### AES3 (R363–R365) -/

/-- The CRCC of the first 23 bytes of a professional channel-status block. -/
def csCrc (b : Bytes) : Nat := (b.take 23).foldl (crcByte 0xB8) 0xFF

/-- Whether a channel-status block may be latched (R364). -/
def csOk (b : Bytes) : Bool := !bitAt (byteAt b 0) 0 || byteAt b 23 == csCrc b

/-- Six words latched from a block of 24 bytes. -/
def Dev.latchWords (d : Dev) (f : RegField) (k : Nat) (b : Bytes) : Dev :=
  (List.range 6).foldl (fun d i => d.set f (wordAt (wordsOf 6 b) i).toNat [k, i]) d

/-- One subframe's blocks latched at a Z preamble. -/
def Dev.latchStatus (d : Dev) (cs user : RegField) (k : Nat) (c u : Bytes) : Dev :=
  let d := d.latchWords user k u
  if !csOk c then d.bump Reg.apu_AES_RX_CS_CRC_ERR [k]
  else
    let old := (List.range 6).map fun i => d.get cs [k, i]
    let d := d.latchWords cs k c
    if old = (wordsOf 6 c).map (·.toNat) then d else d.raise apuPage 5

/-- A Z preamble at receiver k (R363, R364): the blocks of both subframes, the measured rate code, and whether the
block passed without a preamble or biphase error. -/
def Dev.aesBlockRx (d : Dev) (k : Nat) (ca cb ua ub : Bytes) (rate : Nat) (clean : Bool) : Dev :=
  if 4 ≤ k ∨ !d.memberOn (8 + k) then d
  else
    let good := if clean then min 2 ((assoc? k d.apu.good).getD 0 + 1) else 0
    let d := { d with apu := { d.apu with good := assocSet k good d.apu.good } }
    let d := (d.set Reg.apu_AES_RX_LOCK (bitOf (good == 2)) [k]).set Reg.apu_AES_RX_RATE rate [k]
    let was := d.nonaudioMuted (8 + k)
    let d := d.latchStatus Reg.apu_AES_RX_CS_A Reg.apu_AES_RX_USER_A k (padTo 24 ca) (padTo 24 ua)
    let d := d.latchStatus Reg.apu_AES_RX_CS_B Reg.apu_AES_RX_USER_B k (padTo 24 cb) (padTo 24 ub)
    let b0 := d.get Reg.apu_AES_RX_CS_A [k, 0]
    let d := (d.set Reg.apu_AES_RX_PRO (b0 % 2) [k]).set Reg.apu_AES_RX_NONAUDIO (b0 / 2 % 2) [k]
    if d.nonaudioMuted (8 + k) && !was then d.raise apuPage 6 else d

/-- A block start at transmitter k (R365): the channel status and user bits in effect are used from here on, with
byte 23 computed under AUTO_CRC, and the validity bits. -/
def Dev.aesCsApply (d : Dev) (k : Nat) : Dev :=
  if 4 ≤ k ∨ !d.memberOn (12 + k) then d
  else
    let words := fun (f : RegField) => (List.range 6).map fun i => BitVec.ofNat 32 (d.get f [k, i])
    let crc := fun (ws : List Word) =>
      let b := bytesOfWords ws
      if d.flag Reg.apu_AES_TX_AUTO_CRC [k] ∧ bitAt (byteAt b 0) 0 then
        wordsOf 6 (b.take 23 ++ leBytes 1 (csCrc b)) else ws
    let st := crc (words Reg.apu_AES_TX_CS_A) ++ crc (words Reg.apu_AES_TX_CS_B) ++
      words Reg.apu_AES_TX_USER_A ++ words Reg.apu_AES_TX_USER_B
    let rest := d.apu.status.filter (·.1 != k)
    let d := { d with apu := { d.apu with status := rest ++ [(k, st)] } }
    let validity := bitOf (d.flag Reg.apu_AES_TX_V_A [k]) + 2 * bitOf (d.flag Reg.apu_AES_TX_V_B [k])
    if d.outputsOpen then d.emit (.aesBlock k st validity) else d

/-! ### Clock monitors (R368, R369) -/

/-- The expected rate of a monitor in Hz: WCLK_IN0, WCLK_IN1, AMCLK_IN divided to the rate of the first group that
uses it, the FS of a TDM port, the measured rate of an AES3 receiver. -/
def Dev.monRate (d : Dev) (m : Nat) : Nat :=
  if m = 0 then rateHz (d.get Reg.apu_WCLK_IN0_RATE)
  else if m = 1 then rateHz (d.get Reg.apu_WCLK_IN1_RATE)
  else if m = 2 then
    match (List.range 8).find? fun g => d.flag Reg.apu_GRP_EN [g] && d.get Reg.apu_GRP_CLK_SRC [g] == 3 with
    | some g => rateHz (d.get Reg.apu_GRP_RATE [g])
    | none => if d.get Reg.apu_AMCLK_IN_SEL % 2 = 0 then 48000 else 44100
  else if m < 11 then rateHz (d.get Reg.apu_GRP_RATE [d.memberGroup (m - 3)])
  else rateHz (d.get Reg.apu_AES_RX_RATE [m - 11])

/-- The frame period of a monitor in 2⁻¹⁶ ns. -/
def Dev.monPeriod (d : Dev) (m : Nat) : Nat := 65536000000000 / atLeast1 (d.monRate m)

/-- The groups whose CLK_SRC a monitor watches. -/
def Dev.monGroups (d : Dev) (m : Nat) : List Nat :=
  (List.range 8).filter fun g => d.srcMon g == some m

/-- Whether a monitor watches: the APU is in service, and a TDM port's FS comes from outside (R368). -/
def Dev.monOn (d : Dev) (m : Nat) : Bool :=
  decide (m < 15) && d.live apuPage && d.flag Reg.apu_EN &&
    !(decide (3 ≤ m) && decide (m < 11) && d.flag Reg.apu_TDM_MASTER [m - 3])

/-- The member whose own incoming clock a monitor watches. -/
def monMember (m : Nat) : Option Nat := if m < 3 then none else if m < 11 then some (m - 3) else some (m - 3)

/-- The members a source clocks: those of its groups that are masters, and the AES3 transmitters (R358). -/
def Dev.clockedBy (d : Dev) (m : Nat) : List Nat :=
  (d.monGroups m).flatMap fun g =>
    ((List.range 8).filter fun n => d.memberOn n && d.memberGroup n == g && d.flag Reg.apu_TDM_MASTER [n]) ++
    ([12, 13, 14, 15].filter fun n => d.memberOn n && d.memberGroup n == g)

/-- A member muted, or let in again, over the 48 samples of the next block (R369). -/
def Dev.muteMember (d : Dev) (mute tx : Bool) (m : Nat) : Dev :=
  let x := d.member m
  let at_ := some (if tx then d.tide + 1 else d.tide)
  if tx then (if x.txMute = mute then d else d.setMember { x with txMute := mute, txAt := at_ })
  else if x.rxMute = mute then d else d.setMember { x with rxMute := mute, rxAt := at_ }

/-- A monitor's state set, and HOLD of the groups it clocks with it. -/
def Dev.setMon (d : Dev) (m st : Nat) : Dev := (d.set Reg.apu_MON_STATE st [m]).apuHolds

/-- The members whose converters follow monitor `m`: those its source clocks and the one whose incoming clock it is. -/
def Dev.affected (d : Dev) (m : Nat) : List Nat := d.clockedBy m ++ (monMember m).toList

/-- LOCK of the groups whose reference member follows monitor `m` (R359, R373). -/
def Dev.lockRefs (d : Dev) (m : Nat) (lock : Bool) : Dev :=
  (d.affected m).foldl (fun d x =>
    if d.refMember (d.memberGroup x) = some x then d.set Reg.apu_GRP_LOCK (bitOf lock) [d.memberGroup x] else d) d

/-- The last edge of a monitor. -/
def Dev.monLast (d : Dev) (m : Nat) : Option Nat := (d.apu.mons.find? (·.num == m)).bind (·.last)

/-- The device with a monitor's last edge. -/
def Dev.setMonLast (d : Dev) (m : Nat) (t : Option Nat) : Dev :=
  { d with apu := { d.apu with mons := d.apu.mons.filter (·.num != m) ++ [⟨m, t⟩] } }

/-- CLK_LOST: the window of the third missing edge has closed (R368, R369); before that it changes nothing. A member whose
own clock is LOST ramps its receive channels to zero. -/
def Dev.clkLost (d : Dev) (m : Nat) : Dev :=
  match d.monLast m with
  | none => d
  | some last =>
    let p := d.monPeriod m
    if d.get Reg.apu_MON_STATE [m] = monLost ∨ d.ns * 65536 ≤ last + 3 * p + p / 8 ∨ !d.monOn m then d
    else
      let d := (((d.setMon m monLost).bump Reg.apu_MON_EDGE_MISS [m] 3).raise apuPage 0).lockRefs m false
      match monMember m with
      | some x => d.muteMember true false x
      | none => d

/-- An edge on a monitored clock (R368): in its window, with the edges that did not come counted, or outside. An edge
after the third missing window finds the clock LOST. -/
def Dev.clkEdge (d : Dev) (m frac : Nat) : Dev :=
  let d := d.clkLost m
  let t := d.ns * 65536 + frac % 65536
  if !d.monOn m then d
  else
    let st := d.get Reg.apu_MON_STATE [m]
    match d.monLast m with
    | none => (d.setMonLast m (some t)).setMon m monAcquire
    | some last =>
      let p := d.monPeriod m
      let k := (t - last + p / 2) / p
      if st = monLost then (d.setMonLast m (some t)).setMon m monAcquire
      else if k = 0 ∨ t + p / 8 < last + k * p ∨ last + k * p + p / 8 < t then d.bump Reg.apu_MON_EDGE_EXTRA [m]
      else
        let d := d.setMonLast m (some t)
        if k = 1 then d else d.bump Reg.apu_MON_EDGE_MISS [m] (k - 1)

/-- CLK_LOCKED: a member's or a source's converter has locked (R368, R369): its channels ramp in. -/
def Dev.clkLocked (d : Dev) (m : Nat) : Dev :=
  if !d.monOn m ∨ d.get Reg.apu_MON_STATE [m] ≠ monAcquire then d
  else
    let d := ((d.setMon m monLocked).raise apuPage 2).lockRefs m true
    (d.affected m).foldl (fun d x => (d.muteMember false false x).muteMember false true x) d

/-- The rate of a clock over the Tide just ended (R368): more than 1,000 ppm off the tracked value forces
re-acquisition, and every affected member is muted in both directions. -/
def Dev.clockRate (d : Dev) (r : ClockRate) : Dev :=
  let st := d.get Reg.apu_MON_STATE [r.mon]
  if !d.monOn r.mon ∨ (st ≠ monAcquire ∧ st ≠ monLocked) then d
  else
    let d := d.set Reg.apu_MON_RATE_DEV (ofSigned 16 (clampI (-32768) 32767 r.fromExpected)) [r.mon]
    if r.fromTracked.natAbs ≤ 1000 then d
    else
      let d := ((d.setMon r.mon monAcquire).raise apuPage 1).lockRefs r.mon false
      (d.affected r.mon).foldl (fun d x => (d.muteMember true false x).muteMember true true x) d

end Sys2Proof.Machine
end

