-- ==== Sys2Proof/Machine/EssAudio.lean ====
section
/-!
DEFINITION. Essence audio (chapter 11, R370–R372, R375, R376): receive rings, blocks for the Abacus, and packets.
-/

namespace Sys2Proof.Machine

/-- The ESS page. -/
def essPage : Page := ⟨.ess, 0⟩

/-- Whether the ESS is in service (R591). -/
def Dev.essOn (d : Dev) : Bool := d.live essPage && d.enabled essPage

/-- The channels of a flow. -/
def Dev.arxChannels (d : Dev) (f : Nat) : Nat := d.get Reg.ess_ARX_CHANNELS [f] + 1
def Dev.atxChannels (d : Dev) (f : Nat) : Nat := d.get Reg.ess_ATX_CHANNELS [f] + 1

/-- Bytes of a sample by ENC, and samples of a packet by PTIME. -/
def encBytes (enc : Nat) : Nat := if enc = 1 then 2 else 3
def ptimeSamples (ptime : Nat) : Nat := if ptime = 1 then 6 else 48

/-- The 64-bit value nearest to `near` that is `m` modulo 2³². -/
def nearest32 (near m : Nat) : Nat :=
  let base := near / 2 ^ 32 * 2 ^ 32 + m % 2 ^ 32
  let cands := [base, base + 2 ^ 32] ++ (if 2 ^ 32 ≤ base then [base - 2 ^ 32] else [])
  cands.foldl (fun (best c : Nat) => if ((c : Int) - (near : Int)).natAbs < ((best : Int) - (near : Int)).natAbs then c else best) base

/-- The filled positions of a flow's ring. -/
def Dev.ring (d : Dev) (f : Nat) : List (Nat × List Int) := (assoc? f d.ess.rings).getD []

/-- The device with a flow's ring replaced. -/
def Dev.setRing (d : Dev) (f : Nat) (r : List (Nat × List Int)) : Dev :=
  { d with ess := { d.ess with rings := assocPut [] f r d.ess.rings } }

/-- RX_DELAY as it acts. -/
def Dev.rxDelay (d : Dev) (f : Nat) : Nat := clampN 6 8192 (d.get Reg.ess_ARX_DELAY [f])

/-- One sample in 24 bits: L24, or L16 at the top. -/
def essSample (enc v : Nat) : Int := if enc = 1 then toSigned 16 v * 256 else toSigned 24 v

/-- The samples of a payload, one list per media-clock value. -/
def essSamples (enc chans n : Nat) (b : Bytes) : List (List Int) :=
  let k := encBytes enc
  (List.range n).map fun i => (List.range chans).map fun c => essSample enc (beAt b ((i * chans + c) * k) k)

/-- A packet refused by a flow. -/
def Dev.essRefuse (d : Dev) (c : RegField) (f bit : Nat) : Dev := d.countRaise essPage bit c [f]

/-- A packet of receive flow `f` (R371). -/
def Dev.essAudioRx (d : Dev) (f : Nat) (rtp : Bytes) : Dev :=
  match rtpOf rtp with
  | none => d.essRefuse Reg.ess_ARX_BAD_FORMAT f 18
  | some h =>
    let enc := d.get Reg.ess_ARX_ENC [f]
    let chans := d.arxChannels f
    let n := ptimeSamples (d.get Reg.ess_ARX_PTIME [f])
    let body := rtp.drop h.hdrLen
    if h.pt ≠ d.get Reg.ess_ARX_PT [f] ∨ body.length ≠ chans * encBytes enc * n then
      d.essRefuse Reg.ess_ARX_BAD_FORMAT f 18
    else
      let m := (h.ts + 2 ^ 32 - d.get Reg.ess_ARX_TS_OFS [f]) % 2 ^ 32
      let pos := nearest32 (d.ns * 48000 / 1000000000) m + d.rxDelay f
      let target := pos / 48
      if target < d.tide then d.essRefuse Reg.ess_ARX_LATE f 16
      else if d.tide + 320 < target then d.essRefuse Reg.ess_ARX_EARLY f 17
      else
        let new := (essSamples enc chans n body).zipIdx.map fun x => (pos + x.2, x.1)
        let keep := (d.ring f).filter fun x => !new.any (·.1 == x.1)
        (d.setRing f (keep ++ new)).bump Reg.ess_ARX_PKTS [f]

/-- The enabled receive flows that take packets of row `b`: as RX_BERTH, or with RED_EN as RX_BERTH2 (R371). -/
def Dev.essAudioFlows (d : Dev) (b : Nat) : List Nat :=
  (List.range 64).filter fun f => d.flag Reg.ess_ARX_EN [f] &&
    (d.get Reg.ess_ARX_BERTH [f] == b || (d.flag Reg.ess_ARX_RED_EN [f] && d.get Reg.ess_ARX_BERTH2 [f] == b))

/-- Reading the block of input Tide `t` clears its positions and counts one with a gap (R371). -/
def Dev.essBlock (d : Dev) (t f : Nat) : Dev :=
  if !d.flag Reg.ess_ARX_EN [f] then d
  else
    let r := d.ring f
    let at_ := fun n => (r.find? (·.1 == 48 * t + n)).map (·.2)
    let gap := (List.range 48).any fun n => (at_ n).isNone
    let d := d.setRing f (r.filter fun x => x.1 / 48 != t)
    let d := if gap then d.countRaise essPage 19 Reg.ess_ARX_GAP [f] else d
    let blocks := (List.range (d.arxChannels f)).map fun c =>
      (8 * f + c, (List.range 48).map fun n => ((at_ n).map fun s => s.getD c 0).getD 0)
    { d with ess := { d.ess with blocks := d.ess.blocks ++ blocks } }

/-- The blocks of input Tide `t`, which has ended, for the Abacus (R324, R371). -/
def Dev.essBlocks (d : Dev) (t : Nat) : Dev :=
  let d := { d with ess := { d.ess with blocks := [] } }
  if d.essOn && d.flag Reg.ess_AUD_EN then (List.range 64).foldl (fun d f => d.essBlock t f) d else d

/-- The block an Abacus input of SRC_KIND 2 or 3 takes (R322, R324): zeros where nothing delivered one (R356). -/
def Dev.extBlock (d : Dev) (kind c : Nat) : List Int :=
  let l := if kind = 2 then d.apu.blocks else if kind = 3 then d.ess.blocks else []
  (assoc? c l).getD silence

/-! ### Transmission (R372) -/

/-- TX_PHASE as it acts, the packets of a Tide, and the phase packet `j` leaves at. -/
def Dev.atxPhase (d : Dev) (f j : Nat) : Nat := 125000 * j + clampN 2000 100000 (d.get Reg.ess_ATX_PHASE [f])
def Dev.atxPackets (d : Dev) (f : Nat) : Nat := if d.get Reg.ess_ATX_PTIME [f] = 1 then 8 else 1

/-- How many packets of this Tide a flow has sent. -/
def Dev.essSent (d : Dev) (f : Nat) : Nat :=
  match d.ess.sent.find? (·.1 == f) with
  | some (_, t, n) => if t = d.tide then n else 0
  | none => 0

/-- A sample as it stands in a packet. -/
def essWire (enc : Nat) (x : Int) : Bytes := if enc = 1 then beBytes 2 (ofSigned 24 x / 256) else beBytes 3 (ofSigned 24 x)

/-- The RTP packet of a flow whose first sample is sample `k` of the Tide. -/
def Dev.essPacket (d : Dev) (f k : Nat) : Bytes :=
  let enc := d.get Reg.ess_ATX_ENC [f]
  let cols := (List.range (d.atxChannels f)).map fun c => d.outBlock 3 (8 * f + c)
  let ts := 48 * d.tide + k + d.get Reg.ess_ATX_TS_OFS [f]
  [0x80, BitVec.ofNat 8 (d.get Reg.ess_ATX_PT [f])] ++ beBytes 2 (d.get Reg.ess_ATX_SEQ [f]) ++ beBytes 4 (ts % 2 ^ 32) ++
    beBytes 4 (d.rowGet (d.get Reg.ess_ATX_BERTH [f]) RowF.TX_SSRC) ++
    (List.range (ptimeSamples (d.get Reg.ess_ATX_PTIME [f]))).flatMap fun i => cols.flatMap fun c => essWire enc (c.getD (k + i) 0)

/-- An RTP packet of the ESS goes out on row `b` in clear, as a reserved copy (R308, R370, R372), if the row is LIVE (R137). -/
def Dev.essSend (d : Dev) (b : Nat) (rtp : Bytes) : Dev × Bool :=
  let d := d.useRow b .ess
  if !d.flag Reg.btc_EN || d.rowState b != stLive then (d, false)
  else match d.headersOf (d.row b) with
  | none => (d.nhInvalid, false)
  | some h => (d.tallyRow b { bytes := frameOf h rtp } true, true)

/-- ESS_AUDIO_TX: the next packet of flow `f`, once its instant has come (R372). -/
def Dev.essAudioTx (d : Dev) (f : Nat) : Dev :=
  let j := d.essSent f
  if 64 ≤ f ∨ !d.essOn ∨ !d.flag Reg.ess_AUD_EN ∨ !d.flag Reg.ess_ATX_EN [f] ∨ d.atxPackets f ≤ j ∨ d.phase < d.atxPhase f j
  then d
  else
    let rtp := d.essPacket f (j * ptimeSamples (d.get Reg.ess_ATX_PTIME [f]))
    let sent := d.ess.sent.filter (fun x => x.1 != f) ++ [(f, d.tide, j + 1)]
    let d := ({ d with ess := { d.ess with sent := sent } } : Dev).bumpWrap Reg.ess_ATX_SEQ [f]
    if !d.outputsOpen then d
    else
      let (d, ok) := d.essSend (d.get Reg.ess_ATX_BERTH [f]) rtp
      if ok then d.bump Reg.ess_ATX_PKTS [f] else d

/-- Whether a row may carry a transmit flow: class ESS, LIVE, pinned, and named by a RESERVE_FWD (R142, R372). -/
def Dev.essRowOk (d : Dev) (b : Nat) : Bool :=
  d.rowGet b RowF.CLASS == classEss && d.rowState b == stLive && d.rowGet b RowF.PINNED == 1 &&
    d.ldg.adms.any fun a => !a.ending && a.namesRow b

/-- ESS_AUDIO_FLOW_EN: a write of word +0x00 of transmit flow `f` (R372). -/
def Dev.essAudioFlowEn (d : Dev) (f : Nat) (w : Word) : Dev :=
  if 64 ≤ f then d
  else
    let mask := maskOf 31 28 ||| maskOf 26 24 ||| maskOf 22 16
    let a := Reg.ess_ATX_EN.addrAt [f]
    let d := d.setWord a ((d.word a &&& ~~~mask) ||| (w &&& mask &&& ~~~(maskOf 28 28)))
    if Word.fld w 31 31 = 0 then d.set Reg.ess_ATX_CFG_BAD 0 [f]
    else if d.essRowOk (d.get Reg.ess_ATX_BERTH [f]) then d.set Reg.ess_ATX_CFG_BAD 0 [f]
    else ((d.set Reg.ess_ATX_EN 0 [f]).set Reg.ess_ATX_CFG_BAD 1 [f]).raise essPage 20

end Sys2Proof.Machine
end

