-- ==== Sys2Proof/Machine/EssVideo.lean ====
section
/-!
DEFINITION. Essence video flows (R497–R501, R504): receive flows and their frames, transmit flows and their packets.
-/

namespace Sys2Proof.Machine

/-! ### Formats and rates (R497, R504) -/

/-- Width and height of a FORMAT code; 0x3 is none. -/
def vidSize (f : Nat) : Option (Nat × Nat) :=
  match f with
  | 0 => some (1280, 720)
  | 1 => some (1920, 1080)
  | 2 => some (3840, 2160)
  | _ => none

/-- Units of a FORMAT. -/
def vidUnits (f : Nat) : Nat := if f = 2 then 4 else 1

/-- Frames per second of a RATE code, as a ratio. -/
def vidRate (r : Nat) : Option (Nat × Nat) :=
  match r with
  | 0 => some (25, 1)
  | 1 => some (30000, 1001)
  | 2 => some (30, 1)
  | 3 => some (50, 1)
  | 4 => some (60000, 1001)
  | 5 => some (60, 1)
  | _ => none

/-- Active lines over all lines, and first lines over all lines: R_ACTIVE and the default TRO (R501). -/
def vidActive (f : Nat) : Nat × Nat :=
  match f with
  | 0 => (720, 750)
  | 1 => (1080, 1125)
  | _ => (2160, 2250)
def vidLead (f : Nat) : Nat × Nat :=
  match f with
  | 0 => (28, 750)
  | 1 => (43, 1125)
  | _ => (86, 2250)

/-- The units of the enabled flows of a direction other than `skip`. -/
def Dev.vidUnitsUsed (d : Dev) (tx : Bool) (skip : Option Nat) : Nat :=
  (((List.range 8).filter fun f => some f != skip && d.flag (if tx then Reg.ess_VTX_EN else Reg.ess_VRX_EN) [f]).map fun f =>
    vidUnits (d.get (if tx then Reg.ess_VTX_FORMAT else Reg.ess_VRX_FORMAT) [f])).sum

/-- Whether essence video runs. -/
def Dev.vidOn (d : Dev) : Bool := d.essOn && d.essVideo && d.flag Reg.ess_VID_EN

/-! ### Receiving (R498) -/

/-- A flow's state. -/
def Dev.vidRx (d : Dev) (f : Nat) : VidRx := (assoc? f d.cmp.rx).getD {}
def Dev.setVidRx (d : Dev) (f : Nat) (x : VidRx) : Dev := { d with cmp := { d.cmp with rx := assocSet f x d.cmp.rx } }

/-- The address of a flow's current buffer. -/
def Dev.vidBuffer (d : Dev) (f w h : Nat) : Nat :=
  256 * d.get Reg.ess_VRX_RING_ADDR [f] +
    (d.vidRx f).count % clampN 3 8 (d.get Reg.ess_VRX_DEPTH [f]) * (evStride w * h)

/-- The sample row data of a payload: line, offset and bytes of each; none where a length is inconsistent or a field
or place is outside the format. -/
def srdHeads (b : Bytes) : Nat → Nat → Option (List (Nat × Nat × Nat) × Nat)
  | 0, _ => none
  | n + 1, o =>
    if b.length < o + 6 then none
    else
      let x := (beAt b o 2, beAt b (o + 2) 2, beAt b (o + 4) 2 % 32768)
      if beAt b (o + 4) 2 < 32768 then some ([x], o + 6)
      else (srdHeads b n (o + 6)).map fun r => (x :: r.1, r.2)

/-- Each sample row data with its bytes, if all of them keep the format. -/
def srds (b : Bytes) (w h : Nat) : Option (List (Nat × Nat × Bytes)) :=
  match srdHeads b 3 2 with
  | none => none
  | some (hs, o) =>
    let good := fun (x : Nat × Nat × Nat) => x.1 % 5 == 0 && decide (0 < x.1) && decide (x.2.1 < h) && x.2.2 % 2 == 0 &&
      decide (x.2.2 + x.1 / 5 * 2 ≤ w)
    if hs.all good && b.length == o + (hs.map (·.1)).sum then
      some (hs.foldl (fun (acc : List (Nat × Nat × Bytes) × Nat) x =>
        (acc.1 ++ [(x.2.1, x.2.2, slice b acc.2 x.1)], acc.2 + x.1)) ([], o)).1
    else none

/-- A frame that is not published (R498). -/
def Dev.vidIncomplete (d : Dev) (f : Nat) : Dev := d.countRaise essPage 0 Reg.ess_VRX_INCOMPLETE [f]

/-- A frame that is published (R498). -/
def Dev.vidPublish (d : Dev) (f w h ts : Nat) : Dev :=
  let a := d.vidBuffer f w h
  let x := d.vidRx f
  let d := (d.setVidRx f { x with count := x.count + 1, newest := some ⟨a, d.tide % 2 ^ 32, true⟩ }).bump Reg.ess_VRX_FRAMES [f]
  let q := d.get Reg.ess_VRX_ITEM_QUEUE [f]
  if q = 0 then d else d.pushWait q (holdItem (Config.itemLane 0x0032 % 8) 2 0 a noBerth 0 ts)

/-- Whether every extended sequence number from `a` to `b` was seen. -/
def noGap (seen : List Nat) (a b : Nat) : Bool :=
  let n := (b + 2 ^ 32 - a) % 2 ^ 32
  decide (n < seen.length) && (List.range (n + 1)).all fun i => seen.contains ((a + i) % 2 ^ 32)

/-- A packet of receive flow `f` (R498). -/
def Dev.essVideoRx (d : Dev) (f : Nat) (rtp : Bytes) : Dev :=
  if !d.vidOn then d
  else
    match rtpOf rtp, vidSize (d.get Reg.ess_VRX_FORMAT [f]) with
    | some hd, some (w, h) =>
      match srds (rtp.drop hd.hdrLen) w h with
      | none => d.essRefuse Reg.ess_VRX_BAD_FORMAT f 1
      | some parts =>
        if hd.pt ≠ d.get Reg.ess_VRX_PT [f] then d.essRefuse Reg.ess_VRX_BAD_FORMAT f 1
        else
          let x := d.vidRx f
          let seq := beAt (rtp.drop hd.hdrLen) 0 2 * 65536 + hd.seq
          let old := match x.lastSeq with
            | some e => decide (seqDiff 32 seq e ≤ 0)
            | none => false
          let step := (x.frame.map fun y => seqDiff 32 hd.ts y.1).getD 0
          if old || x.seen.contains seq || decide (step < 0) then d
          else
            let cut := decide (0 < step)
            let d := if cut then d.vidIncomplete f else d
            let first := match x.lastSeq, cut with
              | some e, false => (e + 1) % 2 ^ 32
              | _, _ => seq
            let x := if cut || x.frame.isNone then { x with frame := some (hd.ts, first), seen := [] } else x
            let x := { x with seen := seq :: x.seen }
            let d := d.setVidRx f x
            let a := d.vidBuffer f w h
            let d := parts.foldl (fun (d : Dev) p => d.holdStore (a + evStride w * p.1 + p.2.1 / 2 * 5) p.2.2 essPage) d
            if hd.marker then
              let whole := match x.frame with
                | some (_, a) => noGap x.seen a seq
                | none => false
              let d := if whole then d.vidPublish f w h hd.ts else d.vidIncomplete f
              d.setVidRx f { d.vidRx f with frame := none, seen := [], lastSeq := some seq }
            else d
    | _, _ => d.essRefuse Reg.ess_VRX_BAD_FORMAT f 1

/-- The enabled video receive flows that take packets of row `b`. -/
def Dev.essVideoFlows (d : Dev) (b : Nat) : List Nat :=
  (List.range 8).filter fun f => d.flag Reg.ess_VRX_EN [f] &&
    (d.get Reg.ess_VRX_BERTH [f] == b || (d.flag Reg.ess_VRX_RED_EN [f] && d.get Reg.ess_VRX_BERTH2 [f] == b))

/-! ### Transmission (R499, R501) -/

/-- A flow's state. -/
def Dev.vidTx (d : Dev) (f : Nat) : VidTx := (assoc? f d.cmp.tx).getD {}
def Dev.setVidTx (d : Dev) (f : Nat) (x : VidTx) : Dev := { d with cmp := { d.cmp with tx := assocSet f x d.cmp.tx } }

/-- The view a transmit flow sends. -/
def Dev.vidView (d : Dev) (f : Nat) : Option View := (d.cmp.views.find? fun x => x.2.essEn && x.2.essFlow == f).map (·.2)

/-- TRO in ns: what was written, or the default of its FORMAT. -/
def Dev.vidTro (d : Dev) (f : Nat) : Nat :=
  if d.cmp.troWritten.contains f then d.get Reg.ess_VTX_TRO [f]
  else
    match vidRate (d.get Reg.ess_VTX_RATE [f]) with
    | some (num, den) => let (a, b) := vidLead (d.get Reg.ess_VTX_FORMAT [f]); 1000000000 * den * a / (num * b)
    | none => 0

/-- Packets of a line and of a frame. -/
def linePackets (w : Nat) : Nat := (w + 479) / 480

/-- ESS_VIDEO_FRAME_TX: at a frame epoch flow `f` takes the newest view picture whose Tide has ended. -/
def Dev.essVideoFrameTx (d : Dev) (f : Nat) : Dev :=
  match vidRate (d.get Reg.ess_VTX_RATE [f]), vidSize (d.get Reg.ess_VTX_FORMAT [f]), d.vidView f with
  | some (num, den), some (w, h), some v =>
    let n := d.ns * num / (den * 1000000000)
    let x := d.vidTx f
    if 8 ≤ f ∨ !d.vidOn ∨ !d.flag Reg.ess_VTX_EN [f] ∨ x.epoch = some n then d
    else
      let ended := fun (p : Nat × Nat) =>
        decide (((((p.2 + 1) * 1000000 : Nat) : Int) + d.tk.offset) * num ≤ ((n * den * 1000000000 : Nat) : Int))
      match v.ess.find? ended with
      | none => d.setVidTx f { x with epoch := some n }
      | some (k, _) =>
        let d := d.setVidTx f
          ⟨some n, some k, some (n, v.essRing + k % max 1 v.essDepth * (evStride w * h), 0)⟩
        let d := d.bump Reg.ess_VTX_FRAMES [f]
        match x.last with
        | none => d
        | some k' =>
          if k' = k then
            if x.epoch = some (n - 1) then d.countRaise essPage 2 Reg.ess_VTX_REPEAT [f] else d
          else if v.ess.any (fun p => decide (k' < p.1) && decide (p.1 < k)) then d.countRaise essPage 3 Reg.ess_VTX_SKIP [f]
          else d
  | _, _, _ => d

/-- The packet of a frame: its line and offset, and its RTP bytes from the line's bytes. -/
def Dev.vidPacket (d : Dev) (f n num den line ofs : Nat) (last : Bool) (body : Bytes) : Bytes :=
  let seq := d.get Reg.ess_VTX_SEQ [f]
  let ts := n * den * 90000 / num + d.get Reg.ess_VTX_TS_OFS [f]
  [0x80, BitVec.ofNat 8 (bitOf last * 128 + d.get Reg.ess_VTX_PT [f])] ++ beBytes 2 (seq % 65536) ++ beBytes 4 (ts % 2 ^ 32) ++
    beBytes 4 (d.rowGet (d.get Reg.ess_VTX_BERTH [f]) RowF.TX_SSRC) ++ beBytes 2 (seq / 65536) ++ beBytes 2 body.length ++
    beBytes 2 line ++ beBytes 2 ofs ++ body

/-- Whether packet `i` of a frame of epoch `n` is due: E_n + TRO + i × T_RS, within 100 ns (R501). -/
def Dev.vidDue (d : Dev) (f n i num den h w : Nat) : Bool :=
  let (a, b) := vidActive (d.get Reg.ess_VTX_FORMAT [f])
  let pkts := linePackets w * h
  decide (n * den * 1000000000 * b * pkts + d.vidTro f * num * b * pkts + i * den * 1000000000 * a ≤ (d.ns + 100) * num * b * pkts)

/-- ESS_VIDEO_PKT_TX: the next packet of the frame that flow `f` sends, once its instant has come. -/
def Dev.essVideoPktTx (d : Dev) (f : Nat) : Dev :=
  let x := d.vidTx f
  match vidRate (d.get Reg.ess_VTX_RATE [f]), vidSize (d.get Reg.ess_VTX_FORMAT [f]), x.frame with
  | some (num, den), some (w, h), some (n, addr, i) =>
    if 8 ≤ f ∨ !d.vidOn ∨ !d.flag Reg.ess_VTX_EN [f] ∨ !d.vidDue f n i num den h w then d
    else
      let line := i / linePackets w
      let ofs := i % linePackets w * 480
      let last := i + 1 == linePackets w * h
      match d.holdRead (addr + evStride w * line + ofs / 2 * 5) (min 480 (w - ofs) / 2 * 5) essPage with
      | (d, r) =>
        let d := d.setVidTx f { x with frame := if last then none else some (n, addr, i + 1) }
        match r with
        | .error _ => d
        | .ok body =>
          let rtp := d.vidPacket f n num den line ofs last body
          let d := d.bumpWrap Reg.ess_VTX_SEQ [f]
          if d.outputsOpen then (d.essSend (d.get Reg.ess_VTX_BERTH [f]) rtp).1 else d
  | _, _, _ => d

/-! ### Enabling flows (R497, R500, R501) -/

/-- Whether the views suit a transmit flow of a FORMAT (R500). -/
def Dev.vidViewsOk (d : Dev) (f format : Nat) : Bool :=
  let vs := d.cmp.views.filter fun x => x.2.essEn && x.2.essFlow == f
  decide (vs.length ≤ 1) && vs.all fun x => some (x.2.width, x.2.height) == vidSize format

/-- ESS_VIDEO_FLOW_EN: a write of word +0x00 of a receive or transmit flow (R497, R500, R501). -/
def Dev.essVideoFlowEn (d : Dev) (tx : Bool) (f : Nat) (w : Word) : Dev :=
  if 8 ≤ f ∨ !d.essVideo ∨ !d.live essPage then d
  else
    let en := if tx then Reg.ess_VTX_EN else Reg.ess_VRX_EN
    let bad := if tx then Reg.ess_VTX_CFG_BAD else Reg.ess_VRX_CFG_BAD
    let a := en.addrAt [f]
    let held := tx && d.flag en [f] && (Word.fld w 26 24 != d.get Reg.ess_VTX_RATE [f] || Word.fld w 21 20 != d.get Reg.ess_VTX_FORMAT [f])
    let mask := if tx then (if held then maskOf 31 31 ||| maskOf 6 0 else maskOf 31 31 ||| maskOf 26 24 ||| maskOf 21 20 ||| maskOf 6 0)
      else maskOf 31 31 ||| maskOf 29 29 ||| maskOf 26 24 ||| maskOf 21 16 ||| maskOf 6 0
    let was := d.flag en [f]
    let d := if held then d.logIgnored essPage a else d
    let d := d.setWord a ((d.word a &&& ~~~mask) ||| (w &&& mask))
    if !d.flag en [f] then
      let d := d.set bad 0 [f]
      if tx then d.setVidTx f {} else d.setVidRx f {}
    else if was then d
    else
      let format := d.get (if tx then Reg.ess_VTX_FORMAT else Reg.ess_VRX_FORMAT) [f]
      let good := (vidSize format).isSome && (vidRate (d.get (if tx then Reg.ess_VTX_RATE else Reg.ess_VRX_RATE) [f])).isSome &&
        decide (d.vidUnitsUsed tx (some f) + vidUnits format ≤ 8) &&
        (!tx || (d.vidViewsOk f format && d.essRowOk (d.get Reg.ess_VTX_BERTH [f])))
      if good then d.set bad 0 [f] else ((d.set en 0 [f]).set bad 1 [f]).raise essPage 4

end Sys2Proof.Machine
end

