-- ==== Sys2Proof/Machine/Timers.lean ====
section
/-!
DEFINITION. The waits that the device measures in device time, moved where device time is set: by the phase step (R198) and by
a Tide break (R206).
-/

namespace Sys2Proof.Machine

/-- An instant moved by `shift`; one before zero is zero. -/
def movedInstant (shift : Int) (t : Nat) : Nat := ((t : Int) + shift).toNat

/-- A watched input moved by `shift` ns. -/
def EdgeWatch.movedBy (w : EdgeWatch) (shift : Int) : EdgeWatch :=
  { w with expect := w.expect.map (movedInstant (shift * 65536)), raw := w.raw.map (movedInstant (shift * 65536)) }

/-- The instants a PTP port counts its intervals from, moved by `shift` ns. -/
def PtpPort.movedBy (x : PtpPort) (shift : Int) : PtpPort :=
  { x with lastSync := x.lastSync.map (movedInstant shift), lastDelay := x.lastDelay.map (movedInstant shift),
           lastAnnounce := x.lastAnnounce.map (movedInstant shift)
           lastResp := none
           gptp := none }

/-- The Tidekeeper's own instants moved by `shift` ns. -/
def Tidekeeper.movedBy (x : Tidekeeper) (shift : Int) : Tidekeeper :=
  { x with
    lastSync := x.lastSync.map fun (y : Nat × Nat) => (movedInstant shift y.1, y.2)
    pps := x.pps.movedBy shift
    ref10m := x.ref10m.movedBy shift
    ppsHigh := x.ppsHigh.map (movedInstant shift)
    ports := x.ports.map fun (y : PtpPort) => y.movedBy shift }

/-- The pauses of a logical port and the instants it repeats its PFC frames, moved by `shift` ns. -/
def Port.movedBy (x : Port) (shift : Int) : Port :=
  { x with
    pauses := x.pauses.map fun (y : Pause) => { y with until_ := movedInstant shift y.until_, since := movedInstant shift y.since }
    rxAt := movedInstant shift x.rxAt
    xoff := x.xoff.map fun (y : Nat × Nat) => (y.1, movedInstant shift y.2) }

/-- Device time is set `shift` ns on from where it stood: every wait in progress keeps its length. -/
def Dev.timersMoved (d : Dev) (shift : Int) : Dev :=
  let ports := d.qay.ports.map fun (x : Port) => x.movedBy shift
  let mons := d.apu.mons.map fun (x : ClockMon) => { x with last := x.last.map (movedInstant (shift * 65536)) }
  let held := d.lfi.held.map fun (x : LfiHeld) => { x with since := movedInstant shift x.since }
  let access := d.hold.lastAccess.map fun (x : Nat × Nat) => (x.1, movedInstant shift x.2)
  let msgs := d.gwy.lastMsg.map fun (x : Fn × Nat × Nat) => (x.1, x.2.1, movedInstant shift x.2.2)
  { d with
    tk := d.tk.movedBy shift
    qay := { d.qay with ports := ports }
    apu := { d.apu with mons := mons }
    lfi := { d.lfi with held := held }
    hold := { d.hold with lastAccess := access }
    gwy := { d.gwy with lastMsg := msgs }
    pwr := { d.pwr with bootAt := d.pwr.bootAt.map (movedInstant shift) } }

end Sys2Proof.Machine
end

