-- ==== Sys2Proof/Machine/Tidekeeper.lean ====
section
/-!
DEFINITION. The Tidekeeper (chapter 6): anchoring, Tide breaks, the advance of Tides, its filter and its states,
the reference inputs and the time pins. PTP messages are in `Machine/Ptp.lean`.
-/

namespace Sys2Proof.Machine

/-- The Tidekeeper page. -/
def tkpPage : Page := ⟨.tkp, 0⟩

/-- The states of R197. -/
def tkFreerun : Nat := 0
def tkAcquire : Nat := 1
def tkLocked : Nat := 2
def tkHoldover : Nat := 3

/-- Whether Tide numbering is anchored. -/
def Dev.anchored (d : Dev) : Bool := d.flag Reg.tkp_ANCHORED

/-- An instant in 2⁻¹⁶ ns. -/
def Dev.fine (d : Dev) (frac : Nat) : Nat := d.ns * 65536 + frac % 65536

/-! ### Anchoring and breaks (R198, R199, R206) -/

/-- STATUS of the last OP. -/
def Dev.tkStatus (d : Dev) (s : Status) : Dev := d.set Reg.tkp_CMD_STATUS s.code

/-- Device time set to `now` ns, as the phase step does (R198): the Tide in progress ends at the first whole
millisecond at least 1,598,400 cycles after it began (R199), 999,000 ns at 1.6 GHz. -/
def Dev.stepTime (d : Dev) (now : Nat) : Dev :=
  let offset : Int := (now : Int) - (d.tk.tide * 1000000 + d.tk.phase : Nat)
  let begun : Int := (d.tk.tide * 1000000 : Nat) + offset
  let last : Nat := max (begun + 999000).toNat (now + 1)
  let d := d.timersMoved ((now : Int) - d.ns)
  { d with tk := { d.tk with offset := offset, nextTide := some (ceilDiv last 1000000), anchoring := true, stepped := true } }.set
    Reg.tkp_ANCHORED 1

/-- ANCHOR (R198): fixes Tide numbering with device time as it stands. -/
def Dev.anchor_ (d : Dev) : Dev :=
  if d.anchored then d.tkStatus .refusedParam
  else ({ d with tk := { d.tk with anchoring := true } }.set Reg.tkp_ANCHORED 1).tkStatus .done

/-- TIDE_BREAK (R206). -/
def Dev.tideBreak (d : Dev) : Dev :=
  let last := d.get64 Reg.tkp_BREAK_AT_LO Reg.tkp_BREAK_AT_HI
  let ph := d.get Reg.tkp_BREAK_PHASE
  if last < d.tide + 2 ∨ 999999 < ph ∨ d.anchored = false ∨ d.tk.brk.isSome then d.tkStatus .refusedParam
  else
    let b : Break := ⟨last, d.get64 Reg.tkp_NEW_TIDE_LO Reg.tkp_NEW_TIDE_HI, ph⟩
    ({ d with tk := { d.tk with brk := some b } }.set Reg.tkp_BREAK_PENDING 1).tkStatus .done

/-- CANCEL_BREAK (R206). -/
def Dev.cancelBreak (d : Dev) : Dev :=
  match d.tk.brk with
  | none => d.tkStatus .refusedParam
  | some b =>
    if b.last ≤ d.tide then d.tkStatus .refusedParam
    else ({ d with tk := { d.tk with brk := none } }.set Reg.tkp_BREAK_PENDING 0).tkStatus .done

/-- A write of the OP word (R212). -/
def Dev.tkOp (d : Dev) (op : Nat) : Dev :=
  match op with
  | 0 => d
  | 1 => d.anchor_
  | 2 => d.tideBreak
  | 3 => d.cancelBreak
  | _ => d.tkStatus .refusedParam

/-- The delta of the break that ends with the Tide in progress, if one does (R206). -/
def Dev.breakDelta (d : Dev) : Option Int :=
  match d.tk.brk with
  | some b => if b.last = d.tide then some ((b.next : Int) - (b.last + 1 : Nat)) else none
  | none => none

/-- The Tide that follows the Tide in progress. Tides are not cut to 64 bits: only registers are (DESIGN CHOICE, log entry 124). -/
def Dev.followingTide (d : Dev) : Nat :=
  match d.tk.brk with
  | some b => if b.last = d.tide then b.next else d.tk.nextTide.getD (d.tide + 1)
  | none => d.tk.nextTide.getD (d.tide + 1)

/-- The next Tide begins (R16, R199, R206), before any page applies: its number, phase zero, device time set to
its start, and the break or the anchoring done with. -/
def Dev.nextTide (d : Dev) : Dev :=
  let broke := d.breakDelta.isSome
  let tk := { d.tk with tide := d.followingTide, phase := 0, offset := 0, nextTide := none, anchoring := false,
                        brk := if broke then none else d.tk.brk }
  let d := { d with tk := tk }
  if broke then d.set Reg.tkp_BREAK_PENDING 0 else d

/-! ### States and samples (R196–R204) -/

/-- The state of R197. -/
def Dev.tkState (d : Dev) : Nat := d.get Reg.tkp_TK_STATE

/-- The Tidekeeper enters ACQUIRE: it estimates frequency from 8 samples first (R197). -/
def Dev.tkReacquire (d : Dev) : Dev :=
  { d with tk := { d.tk with samples := 0, lockRun := 0, outliers := 0, slew := 0 } }.set Reg.tkp_TK_STATE tkAcquire

/-- The Tidekeeper enters HOLDOVER: it runs at the last tracked frequency with a phase term of zero (R205). -/
def Dev.tkHold (d : Dev) : Dev := ({ d with tk := { d.tk with slew := 0 } }.set Reg.tkp_TK_STATE tkHoldover).raise tkpPage 2

/-- SLEW_PPM in effect (R200), in 2⁻¹⁶ ppm. -/
def Dev.slewLimit (d : Dev) : Nat := 65536 * clampN 100 500 (d.get Reg.tkp_SLEW_PPM)

/-- The rate of device time against SYSCLK_IN, in 2⁻¹⁶ ppm: the tracked frequency and the phase term (R200). -/
def Dev.tkRate (d : Dev) : Int := toSigned 32 (d.get Reg.tkp_FREQ_ADJ) + d.tk.slew

/-- The phase term after an offset, device minus source (R200): toward the source, SLEW_PPM while the offset is beyond the lock
threshold, and within that a free value up to SLEW_PPM. -/
def Dev.slewFor (d : Dev) (offset : Int) : Dev :=
  if offset = 0 then { d with tk := { d.tk with slew := 0 } }
  else
    let (d, x) : Dev × Nat := if offset.natAbs ≤ d.get Reg.tkp_LOCK_THRESH_NS then d.draw else (d, d.slewLimit)
    let size : Int := (min x d.slewLimit : Nat)
    { d with tk := { d.tk with slew := if 0 < offset then -size else size } }

/-- A bit of SRC_OK: 0 PTP, 1 REF10M_IN, 2 PPS_IN. -/
def Dev.srcOk (d : Dev) (i : Nat) : Bool := bitAt (d.get Reg.tkp_SRC_OK) i

/-- SRC_OK with a bit set or cleared. -/
def Dev.setSrcOk (d : Dev) (i : Nat) (ok : Bool) : Dev :=
  d.set Reg.tkp_SRC_OK (putBits (d.get Reg.tkp_SRC_OK) i i (bitOf ok))

/-- Whether the selected source uses an input (R196): 0 PTP, 1 REF10M_IN, 2 PPS_IN. -/
def Dev.selects (d : Dev) (i : Nat) : Bool :=
  match d.get Reg.tkp_SRC_SEL with
  | 1 => i == 0
  | 2 => i == 2
  | 3 => i != 0
  | _ => false

/-- An input is lost (R202, R203): SRC_LOST, and HOLDOVER if the source in use needs it. -/
def Dev.srcLost (d : Dev) (i : Nat) : Dev :=
  let d := (d.setSrcOk i false).raise tkpPage 3
  if d.selects i ∧ (d.tkState = tkAcquire ∨ d.tkState = tkLocked) then d.tkHold else d

/-- The rate of an input jumped (R204): HOLDOVER at once, then ACQUIRE. -/
def Dev.rateJump (d : Dev) (i : Nat) : Dev :=
  if !d.selects i then d
  else if d.tkState = tkAcquire ∨ d.tkState = tkLocked then (d.tkHold.raise tkpPage 4).tkReacquire
  else d.raise tkpPage 4

/-- The tracked frequency, a free value of 2⁻¹⁶ ppm; beyond ±250 ppm the source is treated as lost (R200). -/
def Dev.trackFrequency (d : Dev) : Dev × Bool :=
  let (d, x) := d.draw
  let f := toSigned 32 x
  if f < -16384000 ∨ 16384000 < f then (d, false) else (d.set Reg.tkp_FREQ_ADJ (x % 2 ^ 32), true)

/-- SEC_HI16 in the upper 16 bits of the seconds of an instant in ns (R198). -/
def withSecHi (now hi : Nat) : Nat :=
  (putBits (now / 1000000000) 63 48 hi) * 1000000000 + now % 1000000000

/-- The phase step (R198): once, at the first frequency estimate after AON reset, while ANCHORED is 0. -/
def Dev.phaseStep (d : Dev) (offset : Int) : Dev :=
  if d.anchored || d.tk.stepped then d
  else d.stepTime (withSecHi ((d.ns : Int) - offset).toNat (d.get Reg.tkp_SEC_HI16))

/-- A sample that is not discarded: the frequency is tracked, the filtered estimate (a free value) follows, and
LOCK_COUNT successive offsets within ±LOCK_THRESH_NS lock (R197). -/
def Dev.takeSample (d : Dev) (input : Nat) (offset : Int) : Dev :=
  let n := d.tk.samples + 1
  let d := { d with tk := { d.tk with samples := n, outliers := 0 } }.set Reg.tkp_OFFSET_NS
    (ofSigned 32 (clampI (-(2 ^ 31 : Int)) (2 ^ 31 - 1) offset))
  if n < 8 then d
  else
    let (d, ok) := d.trackFrequency
    if !ok then d.srcLost input
    else
      let (d, f) := d.draw
      let d := { d with tk := { d.tk with filtered := toSigned 64 f } }
      let d := if d.anchored then d.slewFor offset else d
      if n = 8 then d.phaseStep offset
      else if d.tkState ≠ tkAcquire then d
      else
        let run := if offset.natAbs ≤ d.get Reg.tkp_LOCK_THRESH_NS then d.tk.lockRun + 1 else 0
        let d := { d with tk := { d.tk with lockRun := run } }
        if run < atLeast1 (d.get Reg.tkp_LOCK_COUNT) then d
        else (d.set Reg.tkp_TK_STATE tkLocked).raise tkpPage 1

/-- A discarded sample (R201): counted, and after four in a row the Tidekeeper returns to ACQUIRE. -/
def Dev.outlier (d : Dev) : Dev :=
  let d := d.countRaise tkpPage 6 Reg.tkp_OUTLIER_CNT
  let n := d.tk.outliers + 1
  let d := { d with tk := { d.tk with outliers := n } }
  if 4 ≤ n then d.tkReacquire else d

/-- Whether an offset differs from the filtered estimate by more than OUTLIER_NS (R201). -/
def Dev.isOutlier (d : Dev) (offset : Int) : Bool :=
  decide (8 ≤ d.tk.samples) && decide (d.get Reg.tkp_OUTLIER_NS < (offset - d.tk.filtered).natAbs)

/-- An offset measured on an input of the selected source, device minus source, in ns (R197, R201). -/
def Dev.tkSample (d : Dev) (input : Nat) (offset : Int) : Dev :=
  let d := if d.tkState == tkFreerun || d.tkState == tkHoldover then d.tkReacquire else d
  if d.isOutlier offset then d.outlier else d.takeSample input offset

/-- PPS_OUT is held low while PPS_SQUELCH is 1 and ANCHORED is 0 (R209). -/
def Dev.ppsSquelched (d : Dev) : Dev :=
  if d.tk.ppsHigh.isSome && d.flag Reg.tkp_PPS_SQUELCH && !d.anchored then
    { d with tk := { d.tk with ppsHigh := none } }.emit (.ppsOut false)
  else d

/-- A write of the word that holds SRC_SEL (R196, R197): 0x0 returns the Tidekeeper to FREERUN. -/
def Dev.srcSelWrite (d : Dev) (w : Word) : Dev :=
  let a := Reg.tkp_SRC_SEL.addr
  let mask : Word := maskOf 24 16 ||| maskOf 15 8 ||| maskOf 3 3 ||| maskOf 1 0
  let d := (d.setWord a (w &&& mask)).ppsSquelched
  if d.get Reg.tkp_SRC_SEL = 0 then
    { d with tk := { d.tk with samples := 0, lockRun := 0, outliers := 0, slew := 0 } }.set Reg.tkp_TK_STATE tkFreerun
  else d

/-! ### Reference inputs (R203, R204) -/

/-- What an edge is, given the next expected edge, the period and the half width of the window: in its window
with the number of expected edges that passed without one, or outside. -/
def edgeFits (expect period win t : Nat) : Option Nat :=
  let k := (t + period / 2 - expect) / period
  if expect ≤ t + win ∧ t + win < expect + k * period then none
  else if t + win < expect ∨ expect + k * period + win < t then none
  else some k

/-- Half the window of PPS_IN edges, and of REF10M_IN edges, in 2⁻¹⁶ ns (R203). -/
def Dev.ppsWindow (d : Dev) : Nat := d.get Reg.tkp_EDGE_WIN_NS * 65536
def Dev.refWindow (d : Dev) : Nat := d.get Reg.tkp_EDGE_WIN_NS * 65536 / 100

/-- A whole second, and 100 ns, in 2⁻¹⁶ ns. -/
def ppsPeriod : Nat := 1000000000 * 65536
def refPeriod : Nat := 100 * 65536

/-- Expected edges that did not come are counted; three in a row lose the input (R203). -/
def Dev.edgesMissed (d : Dev) (i k : Nat) : Dev :=
  if k = 0 then d
  else
    let d := d.bump Reg.tkp_EDGE_MISS [] k
    if 3 ≤ k ∧ d.srcOk i then d.srcLost i else d

/-- An accepted PPS_IN edge: the next is expected a second on. With SRC_SEL 0x2 or 0x3 it marks the whole second of PPS_TOD,
which then counts on, and it is a sample of source 0x2, or of source 0x3 while REF10M_IN is good (R196). -/
def Dev.ppsAccept (d : Dev) (t : Nat) : Dev :=
  let d := { d.setSrcOk 2 true with tk := { d.tk with pps := ⟨some (t + ppsPeriod), some t, false⟩ } }
  if d.selects 2 then
    let tod := d.get64 Reg.tkp_PPS_TOD_LO Reg.tkp_PPS_TOD_HI
    let d := d.set64 Reg.tkp_PPS_TOD_LO Reg.tkp_PPS_TOD_HI (tod + 1)
    if d.get Reg.tkp_SRC_SEL = 2 ∨ d.srcOk 1 then d.tkSample 2 (((t : Int) - tod * ppsPeriod) / 65536) else d
  else d

/-- Whether a PPS_IN edge outside its window shows a rate that differs by more than 1,000 ppm (R204): one that comes in place of
the expected edge `e`, over the interval since the edge before that; or one that follows an edge outside the window, over the
interval since that. -/
def Dev.ppsJumped (d : Dev) (e t : Nat) : Bool :=
  let off (x : Int) : Bool := decide (1000000 * 65536 < x.natAbs)
  if e < t then off ((t : Int) - e - ((t - e + ppsPeriod / 2) / ppsPeriod * ppsPeriod : Nat))
  else d.tk.pps.outside && off ((t : Int) - d.tk.pps.raw.getD 0 - ppsPeriod)

/-- A PPS_IN edge (R196, R203, R204). -/
def Dev.ppsEdge (d : Dev) (frac : Nat) : Dev :=
  let t := d.fine frac
  match d.tk.pps.expect with
  | none => d.ppsAccept t
  | some e =>
    match edgeFits e ppsPeriod d.ppsWindow t with
    | some k => (d.edgesMissed 2 k).ppsAccept t
    | none =>
      let d := d.bump Reg.tkp_EDGE_EXTRA
      if d.ppsJumped e t then
        let w : EdgeWatch := ⟨some (t + ppsPeriod), some t, false⟩
        { d with tk := { d.tk with pps := w } }.rateJump 2
      else { d with tk := { d.tk with pps := ⟨some e, some t, true⟩ } }

/-- An accepted REF10M_IN edge: the next is expected 100 ns on, and the input is good. One that ends its loss takes a source that
uses it out of HOLDOVER, if PPS_IN is good too (R203). -/
def Dev.refAccept (d : Dev) (t : Nat) : Dev :=
  let back := d.selects 1 && d.srcOk 2 && !d.srcOk 1 && d.tkState == tkHoldover
  let d := { d with tk := { d.tk with ref10m := ⟨some (t + refPeriod), some t, false⟩ } }.setSrcOk 1 true
  if back then d.tkReacquire else d

/-- A REF10M_IN edge (R203); after a loss, the next edge makes the input good again. -/
def Dev.refEdge (d : Dev) (frac : Nat) : Dev :=
  let t := d.fine frac
  match d.tk.ref10m.expect with
  | none => d.refAccept t
  | some e =>
    match edgeFits e refPeriod d.refWindow t with
    | some k => (d.edgesMissed 1 k).refAccept t
    | none => { d with tk := { d.tk with ref10m := ⟨some e, some t, true⟩ } }.bump Reg.tkp_EDGE_EXTRA

/-- Three successive expected edges of an input did not come (R203): 1 REF10M_IN, 2 PPS_IN. The next edge starts
a new prediction. Before the third has passed it changes nothing. -/
def Dev.edgeLoss (d : Dev) (i : Nat) : Dev :=
  let t := d.fine 0
  if i = 2 then
    match d.tk.pps.expect with
    | some e =>
      if e + 2 * ppsPeriod + d.ppsWindow < t then
        { d with tk := { d.tk with pps := {} } }.edgesMissed 2 3
      else d
    | none => d
  else if i = 1 then
    match d.tk.ref10m.expect with
    | some e =>
      if e + 2 * refPeriod + d.refWindow < t then { d with tk := { d.tk with ref10m := {} } }.edgesMissed 1 3 else d
    | none => d
  else d

/-- The expected edges of a watched input that have not come by now and are not counted yet, two at most: the third loses the
input (R203). -/
def EdgeWatch.missed (w : EdgeWatch) (period win t : Nat) : Nat :=
  match w.expect with
  | some e => if e + win < t then min 2 ((t - (e + win) - 1) / period + 1) else 0
  | none => 0

/-- EDGE_MISS by now. -/
def Dev.edgeMiss (d : Dev) : Nat :=
  satAdd 16 (d.get Reg.tkp_EDGE_MISS)
    (d.tk.pps.missed ppsPeriod d.ppsWindow (d.fine 0) + d.tk.ref10m.missed refPeriod d.refWindow (d.fine 0))

/-- The rate of REF10M_IN over the ended Tide, as its deviation in ppm (R204). -/
def Dev.refRate (d : Dev) (ppm : Int) : Dev := if 1000 < ppm.natAbs then d.rateJump 1 else d

/-- SYNC_LOSS Sync intervals passed with no valid Sync (R202); before that it changes nothing. -/
def Dev.syncLoss (d : Dev) : Dev :=
  match d.tk.lastSync with
  | some (t, interval) =>
    if t + atLeast1 (d.get Reg.tkp_SYNC_LOSS) * interval ≤ d.ns then
      { d with tk := { d.tk with lastSync := none } }.srcLost 0
    else d
  | none => d

/-! ### Time pins and time events (R209–R211) -/

/-- PPS_OUT rises at a Tide boundary that is a whole second of device time, unless squelched (R209). -/
def Dev.ppsOutRise (d : Dev) : Dev := if d.tide % 1000 = 0 then d.ppsRise d.ns else d

/-- The frequency that TCLK_SEL chooses, in Hz (R210). -/
def tclkHz (sel : Nat) : Nat := [1000, 8000, 48000, 96000, 12288000, 24576000, 10000000, 25000000].getD (sel % 8) 0

/-- The frequency on TCLK_OUT, 0 while it is off. -/
def Dev.tclk (d : Dev) : Nat := if d.flag Reg.tkp_TCLK_EN then tclkHz (d.get Reg.tkp_TCLK_SEL) else 0

/-- A write of the word of TCLK_EN and TCLK_SEL, done to `before` (R210). -/
def Dev.tclkChanged (d before : Dev) : Dev := if d.tclk = before.tclk then d else d.emit (.tclkOut d.tclk)

/-- A rising edge of TCLK_OUT coincides with every Tide boundary (R210). -/
def Dev.tclkRise (d : Dev) : Dev := if d.flag Reg.tkp_TCLK_EN then d.emit .tclkRise else d

/-- PPS_OUT falls after PPS_WIDTH µs (R209). -/
def Dev.ppsWidthEnd (d : Dev) : Dev :=
  match d.tk.ppsHigh with
  | some t =>
    if t + clampN 1 999999 (d.get Reg.tkp_PPS_WIDTH) * 1000 ≤ d.ns then
      { d with tk := { d.tk with ppsHigh := none } }.emit (.ppsOut false)
    else d
  | none => d

/-- An edge on TEVT_IN0 or TEVT_IN1 (R211), with the length in ns of the shorter of the levels on its two sides: either edge of a
pulse shorter than 20 ns is ignored. -/
def Dev.tevtEdge (d : Dev) (input : Nat) (falling : Bool) (width frac : Nat) : Dev :=
  let src := 2 * (input % 2) + bitOf falling
  if width < 20 ∨ bitAt (d.get Reg.tkp_TEVT_EN) src = false then d
  else if 16 ≤ d.tk.events.length then d.countRaise tkpPage 7 Reg.tkp_TEVT_OVF
  else
    let e : TimeEvent := ⟨src, d.ns / 1000000000, d.ns % 1000000000, frac % 65536⟩
    { d with tk := { d.tk with events := d.tk.events ++ [e] } }

/-- Reading TEVT_FRAC removes the head entry. -/
def Dev.tevtPop (d : Dev) : Dev := { d with tk := { d.tk with events := d.tk.events.drop 1 } }

end Sys2Proof.Machine
end

