-- ==== Sys2Proof/Machine/Ptp.lean ====
section
/-!
DEFINITION. PTP messages (R190–R195): their bytes, the ones the Tidekeeper sends, and the ones it takes.
-/

namespace Sys2Proof.Machine

/-- A PTP port with nothing going on. -/
def PtpPort.idle (l : Nat) : PtpPort := { lport := l }

/-- The PTP state of logical port `l`. -/
def Dev.ptpPort (d : Dev) (l : Nat) : PtpPort := (d.tk.ports.find? (·.lport == l)).getD (PtpPort.idle l)

/-- The device with a PTP port replaced. -/
def Dev.setPtpPort (d : Dev) (x : PtpPort) : Dev :=
  let rest := d.tk.ports.filter (fun y => y.lport != x.lport)
  { d with tk := { d.tk with ports := if x = PtpPort.idle x.lport then rest else rest ++ [x] } }

/-- The values of ROLE. -/
def roleMaster : Nat := 1
def roleSlave : Nat := 2

/-- Whether a port takes part in PTP with a role. -/
def Dev.ptpIs (d : Dev) (l role : Nat) : Bool :=
  d.flag Reg.tkp_PTP_EN [l] && d.get Reg.tkp_PTP_ROLE [l] == role

/-- The interval that a logarithm of base 2 names, in ns. -/
def logInterval (log : Nat) : Nat :=
  let i := clampI (-29) 29 (toSigned 8 log)
  if i < 0 then 1000000000 / 2 ^ i.natAbs else 1000000000 * 2 ^ i.natAbs

/-! ### Bytes -/

/-- The port identity of logical port `l` (R193). -/
def Dev.portIdentity (d : Dev) (l : Nat) : Bytes :=
  beBytes 8 (d.get64 Reg.tkp_CLOCK_ID_LO Reg.tkp_CLOCK_ID_HI) ++ beBytes 2 (l + 1)

/-- The ten bytes of a timestamp, the low 48 bits of seconds and the nanoseconds (R194). -/
def stampBytes (t : Int) : Bytes :=
  let ns := (t / 65536).toNat
  beBytes 6 (ns / 1000000000) ++ beBytes 4 (ns % 1000000000)

/-- The fraction of an instant below 1 ns, in 2⁻¹⁶ ns. -/
def subNs (t : Int) : Int := t % 65536

/-- The instant that ten bytes give, its seconds extended with the upper 16 bits of device time (R194). -/
def Dev.stampOf (d : Dev) (m : Bytes) (o : Nat) : Int :=
  let hi := d.ns / 1000000000 / 2 ^ 48
  ((hi * 2 ^ 48 + beAt m o 6) * 1000000000 + beAt m (o + 6) 4 : Nat) * 65536

/-- The correction field of a message. -/
def corrOf (m : Bytes) : Int := toSigned 64 (beAt m 8 8)

/-- Whether port `l` is an 802.1AS port (R190, R191). -/
def Dev.isGptp (d : Dev) (l : Nat) : Bool :=
  d.flag Reg.tkp_PTP_P2P [l] && d.get Reg.tkp_PTP_TRANSPORT [l] == 0 && Config.gptpPort l

/-- The header of a message (IEEE 1588-2019): majorSdoId, which is 1 on an 802.1AS port, with the type, length, flags, correction, sequence, control, interval. -/
def Dev.ptpHeader (d : Dev) (l type len flags : Nat) (corr : Int) (seq ctrl log : Nat) : Bytes :=
  beBytes 1 (16 * bitOf (d.isGptp l) + type) ++ [2] ++ beBytes 2 len ++ beBytes 1 (d.get Reg.tkp_DOMAIN) ++ [0] ++ beBytes 2 flags ++
    beBytes 8 (ofSigned 64 corr) ++ beBytes 4 0 ++ d.portIdentity l ++ beBytes 2 seq ++ beBytes 1 ctrl ++ beBytes 1 log

/-- Whether a message type is one of the peer delay mechanism, and whether it is an event message. -/
def isPeer (type : Nat) : Bool := [0x2, 0x3, 0xA].contains type
def isEvent (type : Nat) : Bool := decide (type < 4)

/-- The frame that carries a message on port `l` (R191): over IPv4 the UDP checksum is zero; over IPv6 an event
message of a one-step port has two trailing bytes (R195). -/
def Dev.ptpFrame (d : Dev) (l : Nat) (m : Bytes) : Bytes :=
  let type := byteAt m 0 % 16
  let peer := isPeer type
  let port := if isEvent type then 319 else 320
  let src := d.lmac l
  match d.get Reg.tkp_PTP_TRANSPORT [l] with
  | 1 =>
    let dst : Bytes := if peer then [0x01, 0x00, 0x5E, 0, 0, 0x6B] else [0x01, 0x00, 0x5E, 0, 0x01, 0x81]
    let ip : Bytes := if peer then [224, 0, 0, 107] else [224, 0, 1, 129]
    frameOf ⟨dst, src, none, false, Config.ptpSource l false, ip, 0, 1, port, port, false⟩ m
  | 2 =>
    let dst : Bytes := if peer then [0x33, 0x33, 0, 0, 0, 0x6B] else [0x33, 0x33, 0, 0, 0x01, 0x81]
    let ip : Bytes := if peer then [0xFF, 0x02] ++ beBytes 14 0x6B else [0xFF, 0x0E] ++ beBytes 14 0x181
    let tail : Bytes := if isEvent type && d.flag Reg.tkp_PTP_ONE_STEP [l] then [0, 0] else []
    frameOf ⟨dst, src, none, true, Config.ptpSource l true, ip, 0, 1, port, port, false⟩ (m ++ tail)
  | _ =>
    let dst : Bytes := if peer || d.isGptp l then [0x01, 0x80, 0xC2, 0, 0, 0x0E] else [0x01, 0x1B, 0x19, 0, 0, 0]
    dst ++ src ++ [0x88, 0xF7] ++ m

/-- A message handed to the port's transmit queues. -/
def Dev.ptpSend (d : Dev) (l : Nat) (m : Bytes) : Dev :=
  d.enqueueTx l (Config.ptpTxq % 8) { bytes := d.ptpFrame l m, note := .ptp }

/-- The flags of an event message: twoStepFlag on a two-step port. -/
def Dev.stepFlags (d : Dev) (l : Nat) : Nat := if d.flag Reg.tkp_PTP_ONE_STEP [l] then 0 else 0x200

/-! ### Messages sent at their intervals (R192) -/

/-- Whether a message that was last sent at `since` is due at its interval. -/
def Dev.ptpDue (d : Dev) (since : Option Nat) (log : Nat) : Bool :=
  match since with
  | none => true
  | some t => decide (t + logInterval log ≤ d.ns)

/-- A MASTER port sends Sync at its interval. -/
def Dev.syncTx (d : Dev) (l : Nat) : Dev :=
  let x := d.ptpPort l
  let log := d.get Reg.tkp_PTP_LOG_SYNC [l]
  if !d.ptpIs l roleMaster || !d.ptpDue x.lastSync log then d
  else
    let m := d.ptpHeader l 0x0 44 (d.stepFlags l) 0 x.seqSync 0 log ++ beBytes 10 0
    (d.setPtpPort { x with lastSync := some d.ns, seqSync := (x.seqSync + 1) % 65536 }).ptpSend l m

/-- A SLAVE port sends Delay_Req at its interval. -/
def Dev.delayReqTx (d : Dev) (l : Nat) : Dev :=
  let x := d.ptpPort l
  if !d.ptpIs l roleSlave || d.flag Reg.tkp_PTP_P2P [l] || !d.ptpDue x.lastDelay (d.get Reg.tkp_PTP_LOG_DELAY [l]) then d
  else
    let m := d.ptpHeader l 0x1 44 0 0 x.seqDelay 1 0x7F ++ beBytes 10 0
    (d.setPtpPort { x with lastDelay := some d.ns, seqDelay := (x.seqDelay + 1) % 65536, request := none }).ptpSend l m

/-- A peer-delay port sends Pdelay_Req at its interval. -/
def Dev.pdelayReqTx (d : Dev) (l : Nat) : Dev :=
  let x := d.ptpPort l
  if !d.flag Reg.tkp_PTP_EN [l] || !d.flag Reg.tkp_PTP_P2P [l] || d.get Reg.tkp_PTP_ROLE [l] == 0 ||
    !d.ptpDue x.lastDelay (d.get Reg.tkp_PTP_LOG_DELAY [l]) then d
  else
    let m := d.ptpHeader l 0x2 54 0 0 x.seqDelay 5 0x7F ++ beBytes 20 0
    let x := { x with lastDelay := some d.ns, seqDelay := (x.seqDelay + 1) % 65536, request := none, respWait := none }
    (d.setPtpPort x).ptpSend l m

/-- A MASTER port sends Announce from the host's dataset at its interval (R192): flagField in the first word of
ANNOUNCE, the body from the second word on. -/
def Dev.announceTx (d : Dev) (l : Nat) : Dev :=
  let x := d.ptpPort l
  let log := d.get Reg.tkp_PTP_LOG_ANNOUNCE [l]
  if !d.ptpIs l roleMaster || !d.ptpDue x.lastAnnounce log then d
  else
    let a := bytesOfWords ((List.range 16).map fun i => BitVec.ofNat 32 (d.get Reg.tkp_ANNOUNCE [i]))
    let m := d.ptpHeader l 0xB 64 (beAt a 0 2) 0 x.seqAnnounce 5 log ++ beBytes 10 0 ++ slice a 4 20
    (d.setPtpPort { x with lastAnnounce := some d.ns, seqAnnounce := (x.seqAnnounce + 1) % 65536 }).ptpSend l m

/-- The Follow_Up information TLV of IEEE 802.1AS-2020, with the rate ratio to the grandmaster less 1 in 2⁻⁴¹. -/
def followUpTlv (rate : Int) : Bytes :=
  beBytes 2 3 ++ beBytes 2 28 ++ [0x00, 0x80, 0xC2, 0x00, 0x00, 0x01] ++ beBytes 4 (ofSigned 32 rate) ++ beBytes 22 0

/-- What the SLAVE port of an 802.1AS instance forwards, if there is one (R193). -/
def Dev.forwarded (d : Dev) : Option Forwarded :=
  ((List.range 16).find? fun l => d.ptpIs l roleSlave && d.isGptp l).bind fun l => (d.ptpPort l).gptp

/-- `t` stretched by a rate less 1 in 2⁻⁴¹. -/
def stretched (t rate : Int) : Int := t + t * rate / 2 ^ 41

/-- The Follow_Up of a Sync that left port `l` at `t` (R195). On an 802.1AS port it forwards the master's origin with the
correction, to which the time since the Sync arrived is added at the master's rate (R193); an instance without a SLAVE port is
the origin itself. -/
def Dev.followUpMsg (d : Dev) (l : Nat) (f : FollowUp) (t : Int) : Bytes :=
  let log := d.get Reg.tkp_PTP_LOG_SYNC [l]
  if d.isGptp l then
    match d.forwarded with
    | some x => d.ptpHeader l 0x8 76 0 (x.corr + stretched (t - x.rx) x.rate) f.seq 2 log ++ x.origin ++ followUpTlv x.rate
    | none => d.ptpHeader l 0x8 76 0 (f.corr + subNs t) f.seq 2 log ++ stampBytes t ++ followUpTlv 0
  else d.ptpHeader l 0x8 44 0 (f.corr + subNs t) f.seq 2 log ++ stampBytes t

/-- A two-step port sends the follow-up of an event message that has left (R195). -/
def Dev.followUpTx (d : Dev) (l : Nat) : Dev :=
  let x := d.ptpPort l
  match x.followUps.find? (·.ts.isSome) with
  | none => d
  | some f =>
    let t := f.ts.getD 0
    let d := d.setPtpPort { x with followUps := x.followUps.erase f }
    if f.type = 0x8 then d.ptpSend l (d.followUpMsg l f t)
    else
      d.ptpSend l (d.ptpHeader l 0xA 54 0 (f.corr + subNs t) f.seq 5 0x7F ++ stampBytes t ++ f.ident)

/-! ### Messages that leave (R194, R195) -/

/-- Where the message of a PTP frame begins. -/
def ptpOfs (b : Bytes) : Nat :=
  match beAt b 12 2 with
  | 0x0800 => 42
  | 0x86DD => 62
  | _ => 14

/-- A frame with bytes of its message rewritten; over IPv6 the two trailing bytes keep the checksum valid. -/
def ptpRewrite (b : Bytes) (o : Nat) (new : Bytes) : Bytes :=
  let c := splice b o new
  if beAt b 12 2 ≠ 0x86DD then c
  else
    let k := b.length - 2
    let diff := sum16 (slice b 62 (k - 62)) + (65535 - fold16 (sum16 (slice c 62 (k - 62))))
    splice c k (beBytes 2 (fold16 (beAt b k 2 + diff)))

/-- A PTP event message crosses the reference plane at the fine instant `t`: the frame as sent, and what the
Tidekeeper notes of it. -/
def Dev.ptpSent (d : Dev) (l : Nat) (b : Bytes) (t : Int) : Dev × Bytes :=
  let o := ptpOfs b
  let m := b.drop o
  let type := byteAt m 0 % 16
  let seq := beAt m 30 2
  let two := bitAt (byteAt m 6) 1
  let x := d.ptpPort l
  if !isEvent type then (d, b)
  else
    let d := d.bump Reg.tkp_PTP_TX_EVENT [l]
    match type with
    | 0x0 =>
      if two then (d.setPtpPort { x with followUps := x.followUps ++ [⟨0x8, seq, some t, 0, []⟩] }, b)
      else (d, ptpRewrite b (o + 34) (stampBytes t))
    | 0x3 =>
      if two then
        let upd (f : FollowUp) : FollowUp :=
          if f.type = 0xA ∧ f.seq = seq ∧ f.ident = slice m 44 10 ∧ f.ts = none then { f with ts := some t } else f
        (d.setPtpPort { x with followUps := x.followUps.map upd }, b)
      else (d, ptpRewrite b (o + 8) (beBytes 8 (ofSigned 64 (corrOf m + t))))
    | _ => (d.setPtpPort { x with request := some (seq, t) }, b)

/-! ### Messages that arrive (R192, R194) -/

/-- A mean delay, in 2⁻¹⁶ ns, of port `l`. -/
def Dev.setMean (d : Dev) (l : Nat) (mean : Int) : Dev :=
  let ns := ofSigned 32 (clampI (-(2147483648 : Int)) 2147483647 (mean / 65536))
  let d := (d.setPtpPort { d.ptpPort l with mean := mean }).set Reg.tkp_PTP_LINK_DELAY_NS ns [l]
  if d.ptpIs l roleSlave then d.set Reg.tkp_MEAN_PATH_NS ns else d

/-- A Sync's receive minus origin time, corrections taken out: a sample of source 0x1 (R196, R197). -/
def Dev.syncSample (d : Dev) (l : Nat) (forward : Int) : Dev :=
  let x := d.ptpPort l
  let d := (d.setPtpPort { x with forward := some forward, syncWait := none }).setSrcOk 0 true
  if d.get Reg.tkp_SRC_SEL = 1 then d.tkSample 0 ((forward - x.mean) / 65536) else d

/-- Sync on a SLAVE port. -/
def Dev.syncRx (d : Dev) (l : Nat) (m : Bytes) (t : Int) : Dev :=
  if !d.ptpIs l roleSlave then d
  else
    let d := { d with tk := { d.tk with lastSync := some (d.ns, logInterval (byteAt m 33)) } }
    if bitAt (byteAt m 6) 1 then
      d.setPtpPort { d.ptpPort l with syncWait := some ⟨beAt m 30 2, slice m 20 10, t, corrOf m, 0⟩ }
    else d.syncSample l (t - d.stampOf m 34 - corrOf m)

/-- The measured neighborRateRatio of port `l` less 1, in 2⁻⁴¹ (R193). -/
def Dev.neighborRate (d : Dev) (l : Nat) : Int := toSigned 32 (d.get Reg.tkp_PTP_RATE_RATIO [l])

/-- What an 802.1AS SLAVE port forwards of a Sync whose Follow_Up is `m` (R193): the corrections with the link's delay, and the
rate to the grandmaster, which is the master's and the neighbour's. -/
def Dev.noteForward (d : Dev) (l : Nat) (m : Bytes) (w : Awaiting) : Dev :=
  if d.isGptp l then
    let rate := toSigned 32 (beAt m 54 4) + d.neighborRate l
    let x := d.ptpPort l
    d.setPtpPort { x with gptp := some ⟨slice m 34 10, w.corr + corrOf m + stretched x.mean rate, w.rx, rate⟩ }
  else d

/-- Follow_Up on a SLAVE port. -/
def Dev.followUpRx (d : Dev) (l : Nat) (m : Bytes) : Dev :=
  match (d.ptpPort l).syncWait with
  | none => d
  | some w =>
    if d.ptpIs l roleSlave ∧ w.seq = beAt m 30 2 ∧ w.ident = slice m 20 10 then
      let d := d.noteForward l m w
      d.syncSample l (w.rx - d.stampOf m 34 - w.corr - corrOf m)
    else d

/-- Delay_Req on a MASTER port is answered with Delay_Resp. -/
def Dev.delayReqRx (d : Dev) (l : Nat) (m : Bytes) (t : Int) : Dev :=
  if !d.ptpIs l roleMaster || d.flag Reg.tkp_PTP_P2P [l] then d
  else
    let h := d.ptpHeader l 0x9 54 0 (corrOf m - subNs t) (beAt m 30 2) 3 (d.get Reg.tkp_PTP_LOG_DELAY [l])
    d.ptpSend l (h ++ stampBytes t ++ slice m 20 10)

/-- Delay_Resp to this port's request. -/
def Dev.delayRespRx (d : Dev) (l : Nat) (m : Bytes) : Dev :=
  let x := d.ptpPort l
  match x.request, x.forward with
  | some (seq, t3), some forward =>
    if d.ptpIs l roleSlave ∧ seq = beAt m 30 2 ∧ slice m 44 10 = d.portIdentity l then
      (d.setPtpPort { x with request := none }).setMean l ((forward + (d.stampOf m 34 - t3) - corrOf m) / 2)
    else d
  | _, _ => d

/-- Pdelay_Req is answered with Pdelay_Resp; a one-step port's correction has the receive timestamp taken out,
and the Quay adds the transmit timestamp. -/
def Dev.pdelayReqRx (d : Dev) (l : Nat) (m : Bytes) (t : Int) : Dev :=
  if !d.flag Reg.tkp_PTP_P2P [l] then d
  else
    let seq := beAt m 30 2
    let who := slice m 20 10
    if d.flag Reg.tkp_PTP_ONE_STEP [l] then
      d.ptpSend l (d.ptpHeader l 0x3 54 0 (corrOf m - t) seq 5 0x7F ++ beBytes 10 0 ++ who)
    else
      let x := d.ptpPort l
      let f : FollowUp := ⟨0xA, seq, none, corrOf m, who⟩
      let d := d.setPtpPort { x with followUps := x.followUps ++ [f] }
      d.ptpSend l (d.ptpHeader l 0x3 54 0x200 (-(subNs t)) seq 5 0x7F ++ stampBytes t ++ who)

/-- A peer delay exchange of port `l` is complete: sent at `t1` and answered at `t4`, the turnaround took `turn`. On an 802.1AS
port the round trip counts at the measured neighborRateRatio (R193). -/
def Dev.peerDelay (d : Dev) (l : Nat) (t1 t4 turn : Int) : Dev :=
  let round := if d.isGptp l then stretched (t4 - t1) (d.neighborRate l) else t4 - t1
  (d.setPtpPort { d.ptpPort l with request := none, respWait := none }).setMean l ((round - turn) / 2)

/-- An 802.1AS port measures neighborRateRatio from successive responses (R193): what passed between them at the responder, from
its transmit timestamps `t3`, and here, from the receive timestamps `t4`. -/
def Dev.measureRate (d : Dev) (l : Nat) (t3 t4 : Int) : Dev :=
  if d.isGptp l then
    let x := d.ptpPort l
    let d := d.setPtpPort { x with lastResp := some (t3, t4) }
    match x.lastResp with
    | some (s3, s4) =>
      if s4 < t4 then
        let r := ((t3 - s3) - (t4 - s4)) * 2 ^ 41 / (t4 - s4)
        d.set Reg.tkp_PTP_RATE_RATIO (ofSigned 32 (clampI (-(2 ^ 31 : Int)) (2 ^ 31 - 1) r)) [l]
      else d
    | none => d
  else d

/-- Pdelay_Resp to this port's request. -/
def Dev.pdelayRespRx (d : Dev) (l : Nat) (m : Bytes) (t : Int) : Dev :=
  let x := d.ptpPort l
  match x.request with
  | none => d
  | some (seq, t1) =>
    if !d.flag Reg.tkp_PTP_P2P [l] || seq != beAt m 30 2 || slice m 44 10 != d.portIdentity l then d
    else if bitAt (byteAt m 6) 1 then
      let w : Awaiting := ⟨seq, slice m 20 10, t, corrOf m, d.stampOf m 34⟩
      d.setPtpPort { x with respWait := some w }
    else d.peerDelay l t1 t (corrOf m)

/-- Pdelay_Resp_Follow_Up to this port's request. -/
def Dev.pdelayFollowUpRx (d : Dev) (l : Nat) (m : Bytes) : Dev :=
  let x := d.ptpPort l
  match x.request, x.respWait with
  | some (_, t1), some w =>
    if w.seq = beAt m 30 2 ∧ w.ident = slice m 20 10 ∧ slice m 44 10 = d.portIdentity l then
      (d.measureRate l (d.stampOf m 34 + corrOf m) w.rx).peerDelay l t1 w.rx (d.stampOf m 34 - w.ts + w.corr + corrOf m)
    else d
  | _, _ => d

/-- The least length of a message of a type. -/
def ptpLength (type : Nat) : Nat := if [0x2, 0x3, 0x9, 0xA].contains type then 54 else 44

/-- A PTP message that the Breakwater hands over (R217): dropped for a wrong domain, whose majorSdoId is part of it, version or
length. -/
def Dev.ptpRx (d : Dev) (l : Nat) (m : Bytes) (t : Int) : Dev :=
  let type := byteAt m 0 % 16
  if m.length < 34 ∨ byteAt m 1 % 16 ≠ 2 ∨ byteAt m 0 / 16 ≠ bitOf (d.isGptp l) ∨ byteAt m 4 ≠ d.get Reg.tkp_DOMAIN ∨ m.length < beAt m 2 2 ∨
    beAt m 2 2 < ptpLength type then d.bump Reg.tkp_PTP_BAD_MSG [l]
  else
    let d := if isEvent type then d.bump Reg.tkp_PTP_RX_EVENT [l] else d
    match type with
    | 0x0 => d.syncRx l m t
    | 0x1 => d.delayReqRx l m t
    | 0x2 => d.pdelayReqRx l m t
    | 0x3 => d.pdelayRespRx l m t
    | 0x8 => d.followUpRx l m
    | 0x9 => d.delayRespRx l m
    | 0xA => d.pdelayFollowUpRx l m
    | _ => d

/-- A write of the first word of PTP port block `l` (R192): one that would make a second SLAVE is ignored and
logged. -/
def Dev.ptpRoleWrite (d : Dev) (l : Nat) (w : Word) : Dev :=
  let a := 0x20200 + 0x40 * l
  let other := (List.range 16).any fun i => i != l && d.get Reg.tkp_PTP_ROLE [i] == roleSlave
  if 16 ≤ l then d
  else if Word.fld w 29 28 = roleSlave ∧ other then d.logIgnored tkpPage a
  else d.setWord a (w &&& (maskOf 31 31 ||| maskOf 29 24))

end Sys2Proof.Machine
end

