-- ==== Sys2Proof/Machine/Stun.lean ====
section
/-!
DEFINITION. The Breakwater's policers (R222, R223), reasons and host items (R226–R228), the STUN responder
(R229–R234), and the feedback stage (R235–R239).
-/

namespace Sys2Proof.Machine

/-! ### Policers -/

/-- A policer as it is before a write to it. -/
def Policer.new : Policer := ⟨0, 0, 0⟩

/-- Policer `n`. -/
def Dev.policer (d : Dev) (n : Nat) : Policer := (assoc? n d.bwr.policers).getD Policer.new

/-- The device with a policer replaced. -/
def Dev.setPolicer (d : Dev) (n : Nat) (p : Policer) : Dev :=
  { d with bwr := { d.bwr with policers := assocPut Policer.new n p d.bwr.policers } }

/-- A write to BWR_POL_BURST: RATE and BURST of the selected policer at once, its count full (R223). -/
def Dev.polBurst (d : Dev) (burst : Nat) : Dev :=
  let n := d.get Reg.bwr_POL_SEL
  let d := d.set Reg.bwr_POL_BURST burst
  if n = 0xFFFF then d
  else d.setPolicer n ⟨d.get Reg.bwr_POL_RATE, burst % 65536, 256 * (burst % 65536)⟩

/-- The refill of every policer at a Tide boundary (R222). -/
def Dev.policerRefill (d : Dev) : Dev :=
  let ps := d.bwr.policers.map fun x => (x.1, { x.2 with tokens := min (256 * x.2.burst) (x.2.tokens + x.2.rate) })
  { d with bwr := { d.bwr with policers := ps } }

/-- A packet of row `b` meets its policer: it takes a token and passes, or not (R222). -/
def Dev.police (d : Dev) (b : Nat) : Dev × Bool :=
  let n := d.rowGet b RowF.POLICER
  if n = 0xFFFF then (d, true)
  else
    let p := d.policer n
    if 256 ≤ p.tokens then (d.setPolicer n { p with tokens := p.tokens - 256 }, true) else (d, false)

/-! ### Reasons and host items -/

/-- The reason codes of R227. -/
inductive Reason where
  | accepted | trunc | vlanStack | l2Other | l3Ext | frag | notUdp | notLocal | noBerth | noSsrc | dtls
  | ptpGeneral | stunOther | stunCopy | rtcpCopy | hstDefault | badL3 | badL4 | badPayload | stateDrop | classDrop
  | policeDrop | stunAuth | stunRate | rxqFull | pktbufFull | ptpOff | pipeFault
  deriving DecidableEq, Repr

/-- The code of a reason (R227). -/
def Reason.code : Reason → Nat
  | .accepted => 0x00 | .trunc => 0x01 | .vlanStack => 0x02 | .l2Other => 0x03 | .l3Ext => 0x04 | .frag => 0x05
  | .notUdp => 0x06 | .notLocal => 0x07 | .noBerth => 0x08 | .noSsrc => 0x09 | .dtls => 0x0A | .ptpGeneral => 0x0B
  | .stunOther => 0x0C | .stunCopy => 0x0D | .rtcpCopy => 0x0E | .hstDefault => 0x0F | .badL3 => 0x10 | .badL4 => 0x11
  | .badPayload => 0x12 | .stateDrop => 0x13 | .classDrop => 0x14 | .policeDrop => 0x15 | .stunAuth => 0x16
  | .stunRate => 0x17 | .rxqFull => 0x18 | .pktbufFull => 0x19 | .ptpOff => 0x1A | .pipeFault => 0x1B

/-- PKIND of R228. -/
def pkRtp : Nat := 1
def pkRtcp : Nat := 2
def pkStun : Nat := 3

/-- An item the Breakwater produces for a frame (R228). -/
def RxFrame.item (f : RxFrame) (lane : Nat) (r : Reason) (kind b : Nat) (data : Bytes) : Item :=
  packetItem (lane % 8) 0 b
    (r.code * 2 ^ 24 + f.lport % 16 * 2 ^ 20 + bitOf f.trunc * 2 ^ 19 + bitOf f.fcsOrig * 2 ^ 18 + kind * 2 ^ 16 + f.l4 % 65536)
    (f.rxNs % 1000000000) data f.entry

/-- The lane of the Breakwater's items. -/
def bwrLane : Nat := Config.itemLane 0x0021

/-- The event of the Breakwater page that counting a reason raises (R244). -/
def Reason.event : Reason → Option Nat
  | .stunRate => some 2 | .policeDrop => some 3 | .pktbufFull => some 5 | .rxqFull => some 6 | .noBerth => some 7
  | _ => none

/-- A frame is counted under a reason (R227), with its event. -/
def Dev.reason (d : Dev) (r : Reason) : Dev :=
  let d := d.bump Reg.bwr_REASON_COUNT [r.code]
  match r.event with
  | some e => d.raise bwrPage e
  | none => d

/-- An item goes into a queue that is tail-dropped when full, host-bound or not (R226, R239). -/
def Dev.tailPush (d : Dev) (q : Nat) (i : Item) : Dev :=
  match d.push q i .ingress with
  | (d, .full) => d.queueDropped q 1
  | (d, _) => d

/-- A frame goes to the host exception queue of its port for a reason, unless HOST_MASK drops it (R225, R226). -/
def Dev.toHost (d : Dev) (f : RxFrame) (r : Reason) (kind b : Nat) : Dev :=
  let d := d.reason r
  if bitAt (d.get Reg.bwr_HOST_MASK) r.code then d.tailPush (d.get Reg.bwr_HOSTQ [f.lport]) (f.item bwrLane r kind b f.bytes)
  else d

/-! ### STUN (R230–R232) -/

/-- An attribute of a STUN message: type, offset of its value, length. -/
structure StunAttr where
  type : Nat
  ofs : Nat
  len : Nat
  deriving DecidableEq, Repr

/-- The attributes from offset `o` to the end of a message; none where one runs past it. -/
def stunAttrs (m : Bytes) : Nat → Nat → Option (List StunAttr)
  | 0, _ => some []
  | k + 1, o =>
    if o = m.length then some []
    else if m.length < o + 4 then none
    else
      let n := beAt m (o + 2) 2
      let next := o + 4 + (n + 3) / 4 * 4
      if m.length < next then none
      else (stunAttrs m k next).map (⟨beAt m o 2, o + 4, n⟩ :: ·)

/-- The attributes of a message that is a Binding request the responder takes (R230 step 1). -/
def stunRequest (m : Bytes) : Option (List StunAttr) :=
  if beAt m 0 2 ≠ 0x0001 ∨ beAt m 4 4 ≠ 0x2112A442 ∨ beAt m 2 2 % 4 ≠ 0 ∨ beAt m 2 2 + 20 ≠ m.length then none
  else
    match stunAttrs m m.length 20 with
    | none => none
    | some l =>
      if l.all fun a => decide (0x8000 ≤ a.type) || [0x0006, 0x0008, 0x001C, 0x0024, 0x0025].contains a.type then some l
      else none

/-- A message up to an attribute, its length field counting that attribute to its end. -/
def stunUpTo (m : Bytes) (ofs len : Nat) : Bytes := splice (m.take (ofs - 4)) 2 (beBytes 2 (ofs + len - 20))

/-- Whether a FINGERPRINT is right. -/
def fingerprintOk (m : Bytes) (a : StunAttr) : Bool :=
  a.len == 4 && beAt m a.ofs 4 == Nat.xor (crc32 (stunUpTo m a.ofs 4)) 0x5354554E

/-- Whether an integrity attribute passes under a password (R230 step 5). -/
def integrityOk (m pwd : Bytes) (a : StunAttr) : Bool :=
  let v := slice m a.ofs a.len
  if a.type = 0x0008 then a.len == 20 && v == padTo 20 (hmacSha1 pwd (stunUpTo m a.ofs 20))
  else
    decide (16 ≤ a.len) && decide (a.len ≤ 32) && a.len % 4 == 0 &&
      v == (padTo 32 (hmacSha256 pwd (stunUpTo m a.ofs a.len))).take a.len

/-- An attribute: type, length, value (its length a multiple of 4). -/
def stunAttr (t : Nat) (v : Bytes) : Bytes := beBytes 2 t ++ beBytes 2 v.length ++ v

/-- A message of a type, transaction ID and attributes, its length field set to `len`. -/
def stunHead (txid : Bytes) (len : Nat) : Bytes := [0x01, 0x01] ++ beBytes 2 len ++ beBytes 4 0x2112A442 ++ txid

/-- The Binding success response (R231). -/
def stunResponse (m pwd : Bytes) (v6 : Bool) (addr : Bytes) (port : Nat) (sha256 : Bool) : Bytes :=
  let txid := slice m 8 12
  let mask := beBytes 4 0x2112A442 ++ txid
  let a := if v6 then addr else addr.take 4
  let xa := (a.zip mask).map fun x => x.1 ^^^ x.2
  let mapped := stunAttr 0x0020 ([0, if v6 then 2 else 1] ++ beBytes 2 (Nat.xor port 0x2112) ++ xa)
  let n := mapped.length
  let (integ, k) :=
    if sha256 then (stunAttr 0x001C (padTo 32 (hmacSha256 pwd (stunHead txid (n + 36) ++ mapped))), 36)
    else (stunAttr 0x0008 (padTo 20 (hmacSha1 pwd (stunHead txid (n + 24) ++ mapped))), 24)
  let body := stunHead txid (n + k + 8) ++ mapped ++ integ
  body ++ stunAttr 0x8028 (beBytes 4 (Nat.xor (crc32 body) 0x5354554E))

/-- STUN_PER_TIDE in effect. -/
def Dev.stunBudget (d : Dev) : Nat := min 0x8000 (d.get Reg.bwr_STUN_PER_TIDE)

/-- A STUN message `m` of a frame at anchor `b` (R230–R232). -/
def Dev.stun (d : Dev) (f : RxFrame) (b : Nat) (m : Bytes) : Dev :=
  let d := d.useRow b .stun
  let r := d.row b
  let st := r.get RowF.STATE
  match (if d.flag Reg.bwr_STUN_EN then stunRequest m else none) with
  | none => d.toHost f .stunOther pkStun b
  | some attrs =>
    if st ≠ stOpening ∧ st ≠ stLive then d.reason .stateDrop
    else if d.stunBudget ≤ d.bwr.stunUsed then d.reason .stunRate
    else
      let fp := attrs.find? (·.type == 0x8028)
      let fpOk := match fp with
        | some a => fingerprintOk m a
        | none => !d.flag Reg.bwr_FP_REQUIRED
      let integ := attrs.filter fun a => a.type == 0x0008 || a.type == 0x001C
      if !fpOk || integ.isEmpty then d.reason .stunAuth
      else if !d.bondOn then (d.reason .accepted).bump Reg.bnd_BND_OFF_DROP
      else
        match d.icePassword b with
        | none => (d.unwrapFailed b).reason .stunAuth
        | some pwd =>
          if !integ.all (integrityOk m pwd) then d.reason .stunAuth
          else
            let d := d.reason .accepted
            let d := { d with bwr := { d.bwr with stunUsed := d.bwr.stunUsed + 1 } }
            let resp := stunResponse m pwd (r.get RowF.IPV6 == 1) (r.bytes 0x18 16) (r.get RowF.REMOTE_PORT)
              (integ.any (·.type == 0x001C))
            let d : Dev := match d.headersOf r with
              | none => d.nhInvalid
              | some h => (d.tallyRow b { bytes := frameOf h resp } false).bump Reg.bwr_STUN_RESP
            let d : Dev := if st = stLive then d.rowSet b RowF.CONSENT_TIDE d.tide else d
            if st = stOpening ∨ d.flag Reg.bwr_STUN_COPY_EN = true then d.toHost f .stunCopy pkStun b else d

/-! ### The consent sweep (R233) -/

/-- CONSENT_SWEEP in effect. -/
def Dev.consentSweepTides (d : Dev) : Nat := clampN 0x100 0x4000 (d.get Reg.bwr_CONSENT_SWEEP)

/-- Whether the anchor of a group has lost consent. -/
def Dev.consentLost (d : Dev) (b : Nat) : Bool :=
  let r := d.row b
  r.get RowF.STATE == stLive && bitAt (d.get Reg.bwr_CONSENT_CLASS_MASK) (r.get RowF.CLASS) &&
    decide (d.get Reg.bwr_CONSENT_TIMEOUT < (d.tide % 2 ^ 32 + 2 ^ 32 - r.get RowF.CONSENT_TIDE) % 2 ^ 32)

/-- CONSENT_SWEEP visits row `b`, once in every CONSENT_SWEEP Tides, through the BTC's streaming port (R233). -/
def Dev.consentSweep (d : Dev) (b : Nat) : Dev :=
  let turn := d.tide / d.consentSweepTides
  let k := (d.row b).transport
  if !d.flag Reg.bwr_SWEEP_EN || !d.live bwrPage || !d.flag Reg.btc_EN || d.follows || assoc? b d.bwr.swept == some turn then d
  else
    let d := { d with bwr := { d.bwr with swept := assocSet b turn d.bwr.swept } }
    let d : Dev := match d.fetch b [0, 3] with
      | (d, []) => d
      | (d, _) => d.rowUe b
    if d.anchor k = some b ∧ d.consentLost b = true then
      ((d.group k).foldl (fun d x => d.quarantineLive x causeConsent) d).raise bwrPage 1
    else d

/-! ### RTCP (R235–R239) -/

/-- The packets of a compound, and whether all of them lie in it. -/
def rtcpPackets : Nat → Bytes → List Bytes × Bool
  | 0, b => ([], b.isEmpty)
  | k + 1, b =>
    if b.isEmpty then ([], true)
    else
      let n := 4 * beAt b 2 2 + 4
      if b.length < 4 ∨ b.length < n then ([], false)
      else let (r, ok) := rtcpPackets k (b.drop n); (b.take n :: r, ok)

/-- The row of an anchor's group whose TX_SSRC is an SSRC. -/
def Dev.txRow (d : Dev) (k : TransportKey) (ssrc : Nat) : Option Nat :=
  (d.group k).find? fun b => d.rowGet b RowF.TX_SSRC == ssrc

/-- EST_BPS by the loss-based rule (R238), its loss being `lost` of `n`. -/
def Dev.nextEst (d : Dev) (est lost n : Nat) : Nat :=
  let e :=
    if d.get Reg.bwr_EST_HIGH_PCT * n < lost * 100 then est * (2 * n - lost) / (2 * n)
    else if lost * 100 < d.get Reg.bwr_EST_LOW_PCT * n then est * (100 + d.get Reg.bwr_EST_UP_PCT) / 100
    else est
  min (d.get Reg.bwr_EST_MAX) (max (d.get Reg.bwr_EST_MIN) e)

/-- The rule runs for row `b`: after transport-wide feedback, or after an RR block (R238). -/
def Dev.estUpdate (d : Dev) (b : Nat) (rr : Bool) : Dev :=
  let r := d.row b
  let lost := r.get RowF.EST_LOST
  let n := r.get RowF.EST_RECV + lost
  if rr then
    if n ≠ 0 then d else d.rowSet b RowF.EST_BPS (d.nextEst (r.get RowF.EST_BPS) (r.get RowF.RR_FRACTION) 256)
  else if n < d.get Reg.bwr_EST_WINDOW ∨ n = 0 then d
  else d.setRow b (((r.set RowF.EST_BPS (d.nextEst (r.get RowF.EST_BPS) lost n)).set RowF.EST_RECV 0).set RowF.EST_LOST 0)

/-- One report block of 24 bytes (R235, R236), its report received at `rxNs`. -/
def Dev.reportIn (d : Dev) (k : TransportKey) (rxNs : Nat) (blk : Bytes) : Dev :=
  match d.txRow k (beAt blk 0 4) with
  | none => d
  | some b =>
    let r := ((d.row b).set RowF.RR_FRACTION (byteAt blk 4)).set RowF.RR_JITTER (min (beAt blk 12 4) (2 ^ 24 - 1))
    let lsr := beAt blk 16 4
    let rtt : Int := (ntpMid rxNs : Int) - lsr - beAt blk 20 4
    let r := if lsr = 0 ∨ rtt < 0 then r else r.set RowF.RTT_US (min 65535 (rtt.toNat * 1000000 / 65536))
    (d.setRow b r).estUpdate b true

/-- The report blocks of an SR or RR from an offset on. -/
def Dev.reportsIn (d : Dev) (k : TransportKey) (rxNs : Nat) (p : Bytes) (ofs : Nat) : Dev :=
  (List.range (byteAt p 0 % 32)).foldl (fun d i =>
    if p.length < ofs + 24 * i + 24 then d else d.reportIn k rxNs (slice p (ofs + 24 * i) 24)) d

/-- The status symbols of one chunk of transport-wide feedback. -/
def twChunk (c : Nat) : List Nat :=
  if !bitAt c 15 then List.replicate (c % 8192) (c / 8192 % 4)
  else if !bitAt c 14 then (List.range 14).map fun i => c / 2 ^ (13 - i) % 2
  else (List.range 7).map fun i => c / 4 ^ (6 - i) % 4

/-- The first `n` symbols of the chunks of a packet. -/
def twSymbols (p : Bytes) : Nat → Nat → Nat → List Nat
  | 0, _, _ => []
  | k + 1, o, n =>
    if n = 0 ∨ p.length < o + 2 then []
    else
      let s := (twChunk (beAt p o 2)).take n
      s ++ twSymbols p k (o + 2) (n - s.length)

/-- Transport-wide feedback about row `b` (R235, R238). -/
def Dev.twFeedback (d : Dev) (b : Nat) (p : Bytes) : Dev :=
  let s := twSymbols p p.length 20 (beAt p 14 2)
  let lost := (s.filter (· == 0)).length
  (d.mapRow b fun r =>
    (r.set RowF.EST_LOST (satAdd 12 (r.get RowF.EST_LOST) lost)).set RowF.EST_RECV
      (satAdd 12 (r.get RowF.EST_RECV) (s.length - lost))).estUpdate b false

/-- A feedback item about row `b` (R239): its data is the RTCP packet, so no payload lies at an offset in it; tail-dropped at
a full queue, none for a row of class LSN. -/
def Dev.feedbackItem (d : Dev) (f : RxFrame) (b : Nat) (p : Bytes) : Dev :=
  if !d.flag Reg.bwr_FB_EN || d.rowGet b RowF.CLASS == classLsn then d
  else
    d.tailPush (d.get Reg.bwr_FB_QUEUE) (({ f with l4 := 0 } : RxFrame).item bwrLane .accepted pkRtcp b p)

/-- A copy of a BYE or an APP packet for the host (R227, R235). -/
def Dev.rtcpToHost (d : Dev) (f : RxFrame) (b : Nat) (p : Bytes) : Dev :=
  d.toHost { f with l4 := 0, bytes := p } .rtcpCopy pkRtcp b

/-- The length of an RTCP packet without the padding that its P bit announces, whose last byte counts it (RFC 3550). -/
def rtcpBody (p : Bytes) : Nat := if bitAt (byteAt p 0) 5 then p.length - byteAt p (p.length - 1) else p.length

/-- One packet of a verified compound on row `b` whose group has the key `k` (R235); items reference it whole. -/
def Dev.rtcpPacket (d : Dev) (f : RxFrame) (b : Nat) (k : TransportKey) (p : Bytes) : Dev :=
  let fmt := byteAt p 0 % 32
  let n := rtcpBody p
  let body := p.take n
  let about := ((d.txRow k (beAt p 8 4)).orElse fun _ => d.anchor k).getD b
  match byteAt p 1 with
  | 200 =>
    let d := d.mapRow b fun r => (r.set RowF.LSR (beAt p 10 4)).set RowF.LSR_ARRIVAL (ntpMid f.rxNs)
    d.reportsIn k f.rxNs body 28
  | 201 => d.reportsIn k f.rxNs body 8
  | 202 => d
  | 203 => d.rtcpToHost f b p
  | 204 => d.rtcpToHost f b p
  | 205 =>
    if fmt = 1 then (d.rowBump about RowF.NACK_RX ((n - 12) / 4)).feedbackItem f about p
    else if fmt = 15 then (d.twFeedback about body).feedbackItem f about p
    else d.bump Reg.bwr_RTCP_IGNORED
  | 206 =>
    if fmt = 1 then d.feedbackItem f about p
    else if fmt = 4 then
      (List.range ((n - 12) / 8)).foldl (fun d i =>
        let x := ((d.txRow k (beAt p (12 + 8 * i) 4)).orElse fun _ => d.anchor k).getD b
        d.feedbackItem f x p) d
    else d.bump Reg.bwr_RTCP_IGNORED
  | _ => d.bump Reg.bwr_RTCP_IGNORED

/-- A compound packet of row `b` that the Bond verified (R235). -/
def Dev.rtcpCompound (d : Dev) (f : RxFrame) (b : Nat) (m : Bytes) : Dev :=
  let c := d.rowGet b RowF.CLASS
  if !d.flag Reg.bwr_RTCP_PARSE_EN || !([classFwd, classXcd, classLsn, classTrk].contains c) then d
  else
    let k := (d.row b).transport
    let (ps, ok) := rtcpPackets m.length m
    let d := if ok then d.rowSet b RowF.RTCP_TIDE d.tide else d
    let d := ps.foldl (fun d p => d.rtcpPacket f b k p) d
    if ok then d else d.reason .badPayload

end Sys2Proof.Machine
end

