-- ==== Sys2Proof/Machine/Ingress.lean ====
section
/-!
DEFINITION. The Breakwater: what becomes of a frame that a Quay passes on (R214–R228).
-/

namespace Sys2Proof.Machine

/-- What the checks of R216 and R219 make of a frame: it goes to the host, or is dropped; it is a PTP message; or its
datagram `m` goes to a row whose group's anchor is `anchor`. -/
inductive Verdict where
  | host (r : Reason) (kind berth : Nat)
  | drop (r : Reason)
  | ptp (m : Bytes)
  | stun (anchor : Nat) (m : Bytes)
  | rtp (b : Nat) (m : Bytes)
  | rtcp (b : Nat) (m : Bytes)
  | datagram (b : Nat) (m : Bytes)
  deriving DecidableEq, Repr

/-! ### Parsing and classification (R216–R220) -/

/-- The entries of a Quay's local address table that match an address (R243). -/
def Dev.localMatches (d : Dev) (q : Nat) (ip : Ip) : List Nat :=
  (List.range 256).filter fun a => d.flag Reg.bwr_LADDR_VALID [q, a] &&
    d.flag Reg.bwr_LADDR_IPV6 [q, a] == ip.v6 && d.localAddr q a == padTo 16 ip.dst

/-- The row's RX_SSRC that an SSRC names in a transport group; zero names none (R138, R220). -/
def Dev.ssrcRow (d : Dev) (k : TransportKey) (ssrc : Nat) : Option Nat :=
  if ssrc = 0 then none else (d.group k).find? fun b => d.rowGet b RowF.RX_SSRC == ssrc

/-- The first byte of a UDP payload selects its handling (R219, R220). -/
def Dev.demux (d : Dev) (k : TransportKey) (anchor : Nat) (m : Bytes) : Verdict :=
  let c := d.rowGet anchor RowF.CLASS
  let x := byteAt m 0
  if c = classEss ∨ c = classHst then .datagram anchor m
  else if m.isEmpty then .drop .badPayload
  else if x ≤ 3 then .stun anchor m
  else if 20 ≤ x ∧ x ≤ 63 then .host .dtls 0 anchor
  else if x < 128 ∨ 191 < x then .drop .badPayload
  else if 192 ≤ byteAt m 1 ∧ byteAt m 1 ≤ 223 then
    if m.length < 8 then .drop .badPayload else .rtcp ((d.ssrcRow k (beAt m 4 4)).getD anchor) m
  else
    match rtpOf m with
    | none => .drop .badPayload
    | some h =>
      match d.ssrcRow k h.ssrc with
      | none => .host .noSsrc pkRtp noBerth
      | some b => .rtp b m

/-- The transport key of a datagram for each local address that matches it (R218). -/
def frameKeyOf (l : Nat) (e : Ether) (ip : Ip) (u : Udp) (a : Nat) : TransportKey :=
  ⟨l / 4, l, bitOf e.vlan.isSome, (e.vlan.map (· % 4096)).getD 0, ip.src, u.sport, a, u.dport⟩

/-- Steps 11 to 13 of R216, and R219; while the BTC's EN is 0 no lookup is served, and no row matches (R155; DESIGN CHOICE,
log entry 140). -/
def Dev.classify (d : Dev) (l : Nat) (b : Bytes) (e : Ether) (ip : Ip) (u : Udp) : Verdict :=
  let t := d.get Reg.tkp_PTP_TRANSPORT [l]
  if (u.dport = 319 ∨ u.dport = 320) ∧ (t = 1 ∨ t = 2) then
    if d.flag Reg.tkp_PTP_EN [l] && t == (if ip.v6 then 2 else 1) then .ptp (slice b u.ofs u.len) else .drop .ptpOff
  else
    let as := d.localMatches (l / 4) ip
    if as.isEmpty then .host .notLocal 0 noBerth
    else
      match if !d.flag Reg.btc_EN then none else as.findSome? fun a => (d.anchor (frameKeyOf l e ip u a)).map fun b => (a, b) with
      | none => .host .noBerth 0 noBerth
      | some (a, anchor) => d.demux (frameKeyOf l e ip u a) anchor (slice b u.ofs u.len)

/-- The checks of R216, in their order, and the offset of the UDP payload where the frame has one. -/
def Dev.verdict (d : Dev) (f : RxFrame) : Verdict × Nat :=
  let b := f.bytes
  let l := f.lport
  let e := etherOf b
  if f.trunc then (.host .trunc 0 noBerth, 0)
  else if e.dst ≠ d.lmac l ∧ byteAt e.dst 0 % 2 = 0 then (.host .notLocal 0 noBerth, 0)
  else if e.stacked then (.host .vlanStack 0 noBerth, 0)
  else if e.etype = 0x88F7 then
    let t := d.get Reg.tkp_PTP_TRANSPORT [l]
    (if d.flag Reg.tkp_PTP_EN [l] && t != 1 && t != 2 then .ptp (b.drop e.ofs) else .drop .ptpOff, 0)
  else if e.etype ≠ 0x0800 ∧ e.etype ≠ 0x86DD then (.host .l2Other 0 noBerth, 0)
  else
    match ipOf b b.length e.ofs e.etype with
    | none => (.drop .badL3, 0)
    | some ip =>
      if ip.frag then (.host .frag 0 noBerth, 0)
      else if ip.ext then (.host .l3Ext 0 noBerth, 0)
      else if ip.proto ≠ 17 then (.host .notUdp 0 noBerth, 0)
      else
        match udpOf b ip with
        | none => (.drop .badL4, 0)
        | some u => (d.classify l b e ip u, u.ofs)

/-! ### Hand-off (R221–R228) -/

/-- A packet that the state or the class of its row refuses (R137, R221). -/
def Dev.refusal (d : Dev) (b : Nat) (rtcp : Bool) : Option Reason :=
  let c := d.rowGet b RowF.CLASS
  if d.rowState b ≠ stLive then some .stateDrop
  else if !rtcp && (c == classXcd || c == classLsn) then some .classDrop
  else if rtcp && c == classEss then some .classDrop
  else none

/-- Whether the open share of a row's enabled RX_QUEUE is full (R124, R226). -/
def Dev.rxqFull (d : Dev) (q : Nat) : Bool := q != 0 && d.flag Reg.wfg_Q_EN [q] && !d.openRoom q 1

/-- A frame dropped whole because its RX_QUEUE is full. -/
def Dev.dropRxq (d : Dev) (q : Nat) : Dev := (d.reason .rxqFull).queueDropped q 1

/-- An item of a frame for a row's RX_QUEUE; decode operations that take from it look at it. -/
def Dev.toRxQueue (d : Dev) (f : RxFrame) (q kind b : Nat) (data : Bytes) : Dev :=
  ((d.push q (f.item bwrLane .accepted kind b data) .ingress).1).asmQueue q

/-- A datagram for a row of class HST (R224). -/
def Dev.hstDatagram (d : Dev) (f : RxFrame) (b kind : Nat) : Dev :=
  let q := d.rowGet b RowF.RX_QUEUE
  if q = 0 then d.toHost f .hstDefault kind b
  else if d.rxqFull q then d.dropRxq q
  else (d.reason .accepted).toRxQueue f q kind b f.bytes

/-- A packet for a row of class ESS goes to the flows that name the row (R38, R224). -/
def Dev.toEss (d : Dev) (b : Nat) (m : Bytes) : Dev :=
  let d := d.reason .accepted
  let d := if d.essOn && d.flag Reg.ess_AUD_EN then (d.essAudioFlows b).foldl (fun d f => d.essAudioRx f m) d else d
  (d.essVideoFlows b).foldl (fun d f => d.essVideoRx f m) d

/-- The transport-wide number of a received packet, under the ID that sent packets carry it under: a row's RX_TWSEQ takes one
that is ahead of it, and the first one (R139). -/
def Dev.noteTwseq (d : Dev) (b : Nat) (m : Bytes) : Dev :=
  match (rtpOf m).bind (·.ext? (d.get Reg.fry_TWSEQ_ID)) with
  | none => d
  | some e =>
    let n := beAt m e.ofs 2
    let r := d.row b
    if e.len < 2 ∨ (r.get RowF.RX_PKTS ≠ 0 ∧ seqDiff 16 n (r.get RowF.RX_TWSEQ) ≤ 0) then d else d.rowSet b RowF.RX_TWSEQ n

/-- An RTP packet that the Bond accepted: the row's counters, RX_LOST, the Ferry, and RX_QUEUE (R139, R224). What the device
infers lost where a packet does not follow the last is a free value. -/
def Dev.rtpAccepted (d : Dev) (f : RxFrame) (b high : Nat) (m : Bytes) : Dev :=
  let h := rtpOf m
  let d := (d.noteTwseq b m).mapRow b fun r => (r.bump RowF.RX_PKTS).bump RowF.RX_OCTETS (m.length - (h.map (·.hdrLen)).getD 12)
  let d := if (d.row b).high = high + 1 then d
    else let (d, n) : Dev × Nat := d.draw; d.rowSet b RowF.RX_LOST n
  let q := d.rowGet b RowF.RX_QUEUE
  let d := if q = 0 then d else d.toRxQueue f q pkRtp b (f.bytes.take f.l4 ++ m)
  d.forward b m f.rxNs

/-- An RTP or RTCP packet meets the policer of its row (R222): one that passes goes on. -/
def Dev.policed (d : Dev) (b : Nat) (go : Dev → Dev) : Dev :=
  match d.police b with
  | (d, false) => (d.reason .policeDrop).rowBump b RowF.POLICE_DROP
  | (d, true) => go d

/-- An RTP packet for row `b` (R221–R226). -/
def Dev.rtpIn (d : Dev) (f : RxFrame) (b : Nat) (m : Bytes) : Dev :=
  let c := d.rowGet b RowF.CLASS
  let d := d.useRow b (if c = classHst then .hst else if c = classEss then .ess else .media)
  match d.refusal b false with
  | some r => d.reason r
  | none =>
    d.policed b fun d =>
      if c = classHst then d.hstDatagram f b pkRtp
      else if c = classEss then d.toEss b m
      else
        let q := d.rowGet b RowF.RX_QUEUE
        if d.rxqFull q then d.dropRxq q
        else
          let high := (d.row b).high
          match (d.reason .accepted).bondReceive b m with
          | (d, some p) => d.rtpAccepted f b high p
          | (d, none) => d

/-- A compound RTCP packet for row `b`. -/
def Dev.rtcpIn (d : Dev) (f : RxFrame) (b : Nat) (m : Bytes) : Dev :=
  let d := d.useRow b (if d.rowGet b RowF.CLASS = classHst then .hst else .rtcp)
  match d.refusal b true with
  | some r => d.reason r
  | none =>
    d.policed b fun d =>
      if d.rowGet b RowF.CLASS = classHst then d.hstDatagram f b pkRtcp
      else
        match (d.reason .accepted).bondReceiveRtcp b m with
        | (d, some p) => d.rtcpCompound f b p
        | (d, none) => d

/-- A datagram whose anchor is of class ESS or HST (R219, R224). -/
def Dev.datagramIn (d : Dev) (f : RxFrame) (b : Nat) (m : Bytes) : Dev :=
  let d := d.useRow b (if d.rowGet b RowF.CLASS = classHst then .hst else .ess)
  match d.refusal b false with
  | some r => d.reason r
  | none => if d.rowGet b RowF.CLASS = classHst then d.hstDatagram f b 0 else d.toEss b m

/-- A PTP message (R217). -/
def Dev.ptpIn (d : Dev) (f : RxFrame) (m : Bytes) : Dev :=
  if [0xB, 0xC, 0xD].contains (byteAt m 0 % 16) then d.toHost f .ptpGeneral 0 noBerth
  else (d.reason .accepted).ptpRx f.lport m ((f.rxNs * 65536 + f.frac : Nat) : Int)

/-- Media, RTCP or STUN while the outputs are closed (R538). -/
def Dev.standbyDrop (d : Dev) : Dev := d.bump Reg.mrg_STANDBY_RX_DROP

/-- What an errored frame leaves: the token its packet took from a policer (R30). -/
def Dev.erroredIn (d : Dev) (v : Verdict) : Dev :=
  match v with
  | .rtp b _ => if d.outputsOpen && (d.refusal b false).isNone then (d.police b).1 else d
  | .rtcp b _ => if d.outputsOpen && (d.refusal b true).isNone then (d.police b).1 else d
  | _ => d

/-- A frame enters the Breakwater, and the packet buffer if that can hold a frame of MAX_FRAME (R225, R226). -/
def Dev.breakwater (d : Dev) (f : RxFrame) : Dev :=
  if !d.live bwrPage then d
  else if !d.inService ⟨ukBwr, f.lport / 8⟩ then (if f.errored then d else d.reason .pipeFault)
  else if !d.bufRoom (d.maxFrame f.lport) then (if f.errored then d else d.reason .pktbufFull)
  else
    let (v, l4) : Verdict × Nat := d.verdict f
    if f.errored then d.erroredIn v
    else
      let f := { f with l4 := l4, entry := some (d.bwr.frames, f.bytes.length) }
      let d : Dev := { d with bwr := { d.bwr with frames := d.bwr.frames + 1 } }
      let isOpen := d.outputsOpen
      match v with
      | .host r kind b => d.toHost f r kind b
      | .drop r => d.reason r
      | .ptp m => d.ptpIn f m
      | .stun b m => if isOpen then d.stun f b m else d.standbyDrop
      | .rtp b m => if isOpen then d.rtpIn f b m else d.standbyDrop
      | .rtcp b m => if isOpen then d.rtcpIn f b m else d.standbyDrop
      | .datagram b m => if isOpen then d.datagramIn f b m else d.standbyDrop

end Sys2Proof.Machine
end

