-- ==== Sys2Proof/Machine/Fresh.lean ====
section
/-!
DEFINITION. The device with nothing in it: every register at the value its table gives for reset (R11), every table and
FIFO empty (R615).
-/

namespace Sys2Proof.Machine

/-- A Tidekeeper as its reset leaves it: device time starts at zero (R16). -/
def Tidekeeper.fresh : Tidekeeper := { tide := 0, phase := 0 }

/-- A Ferry that holds nothing. -/
def Ferry.fresh : Ferry :=
  { routes := [], streams := [], recs := [], sources := [], fans := [], segs := [], launches := [], nextHops := [],
    staged := [], used := [], waiting := [], srSent := [] }

/-- An Abacus that holds nothing. -/
def Abacus.fresh : Abacus :=
  { basins := [], inputs := [], mixes := [], entries := [], paths := [], held := [], staged := [], dressSilent := [],
    dressLost := [] }

/-- Hold after power-up: nothing is written, no block is bad. -/
def Hold.fresh : Hold :=
  { cells := [], poison := [], poisonLogged := [], bad := [], map := [], away := {}, injection := none, unzeroed := [], runs := [], lost := [],
    lastAccess := [] }

/-- A Slipway with every unit in service. -/
def Slipway.fresh : Slipway :=
  { units := [], states := [], audits := [], lastAudit := [], reached := [], cycleStart := [], soft := [],
    retirements := [], first := [], lateCounted := [], skippedAt := [], fuseCmd := none }

/-- A Gangway with every vector armed and masked, its tables zero. -/
def Gangway.fresh : Gangway :=
  { disarmed := [], unmasked := [], pendingBits := [], rearmWait := [], lastMsg := [], msix := [], log := [] }

/-- A Mooring that has heard nothing. -/
def Mooring.fresh : Mooring := { heardNow := [], heardPrev := [], notes := [] }

/-- The device of a variant with nothing in it. -/
def Dev.fresh (v : Variant) : Dev :=
  { variant := v
    regs := []
    staged := []
    applied := []
    loHeld := []
    hiCaptured := []
    tk := Tidekeeper.fresh
    ldg := { adms := [] }
    wfg := { slots := [], flows := [], queues := [], stalled := [], order := 0, flowSel := 0, ran := [] }
    btc := { rows := [], staged := [], drainSince := [], renewed := [], dirty := [] }
    qay := { ports := [], stamps := [] }
    bwr := { policers := [], kfr := [], kfrSent := 0, stunUsed := 0, swept := [], frames := 0 }
    bnd := { slots := [] }
    fry := Ferry.fresh
    tly := { ports := [], subs := [], svcs := [], robin := [], staged := [] }
    abx := Abacus.fresh
    apu := { mons := [], members := [], masks := [], status := [], good := [], blocks := [] }
    ess := { rings := [], blocks := [], sent := [] }
    rkn := { images := [], loading := [], cores := [], rams := [], stores := [] }
    dec := { ctxs := [], asms := [], scls := [] }
    enc := { svys := [], tails := [] }
    cmp := { views := [], rx := [], tx := [], troWritten := [] }
    mrg := Mooring.fresh
    hold := Hold.fresh
    slw := Slipway.fresh
    tgg := {}
    lfi := {}
    gwy := Gangway.fresh
    pwr := {}
    free := 0
    out := [] }

end Sys2Proof.Machine
end

