-- ==== Sys2Proof/Machine/FerryCmd.lean ====
section
/-!
DEFINITION. Ferry commands (R280–R282, R292, R294, R313) and the next-hop table (R314).
-/

namespace Sys2Proof.Machine

/-- The address of CMD0 of Ferry command port p. -/
def fryPortAddr (p : Nat) : Nat := 0xE0100 + 0x40 * p

/-- The tenant of a row as Ferry commands compare it. -/
def Dev.tenantOf (d : Dev) (b : Nat) : Nat := d.rowGet b RowF.TENANT

/-- Whether a RESERVE_FWD or a segment names a fan list. -/
def Dev.fanReserved (d : Dev) (f : Nat) : Bool :=
  d.fry.segs.any (·.fan == f) || d.ldg.adms.any fun a => match a.kind with
    | .reserve r => r.fan && r.target == f
    | _ => false

/-- The commands that may be staged (R313). -/
def fryStageable (op : Nat) : Bool := [0x03, 0x04, 0x05, 0x06, 0x07, 0x08].contains op

/-- TARGET of a command. -/
def fryTarget (w : List Word) : Nat := wfld w 1 24 0

/-- What a staged command is pending for (R149): a stream of a group, a route, a record. -/
def fryKey (w : List Word) : Nat :=
  match btcOp w with
  | 0x03 => 16 * fryTarget w + wfld w 4 3 0
  | 0x04 | 0x05 => 2 ^ 30 + fryTarget w
  | _ => 2 ^ 31 + fryTarget w

/-- A Berth index that names a row of the table, or none. -/
def Dev.rowOrNone (d : Dev) (b : Nat) : Bool := b == noBerth || decide (b < d.rowCount)

/-- The bits of the argument words W4–W7 that R313 and R280 give an opcode. -/
def fryArgs : Nat → List Word
  | 0x01 => [0x003F7F7F, 0, 0, 0]
  | 0x03 => [0x8000000F, 0x03FFFFFF, 0x0000FFFF, 0]
  | 0x04 => [0xBFFF0F70, 0x8000FFFF, 0xFFFFFFFF, 0]
  | 0x06 => [0x00003FFF, 0x03FFFFFF, 0x7F00000F, 0]
  | 0x07 => [0, 0x03FFFFFF, 0x7F00000F, 0]
  | 0x09 => [0xC000000F, 0, 0, 0]
  | _ => [0, 0, 0, 0]

/-- Whether a command sets a reserved bit of its words (R12, R313). -/
def fryReserved (w : List Word) : Bool :=
  wfld w 0 23 17 != 0 || wfld w 0 15 0 != 0 || wfld w 1 31 25 != 0 ||
  (List.range 4).any fun i => (wordAt w (4 + i) &&& ~~~((fryArgs (btcOp w)).getD i 0)) != 0

/-- How many of what READ names there are: rows, groups or fan lists. -/
def Dev.fryCount (d : Dev) : Nat → Nat
  | 2 => 16384
  | 3 => 65536
  | _ => d.rowCount

/-- What refuses a Ferry command (R282, R294, R313); tenants are compared before parameters are checked. -/
def Dev.fryRefusal (d : Dev) (w : List Word) : Option Status :=
  let op := btcOp w
  let x := fryTarget w
  if d.follows then some .refusedNoUnit
  else if fryReserved w then some .refusedParam
  else if btcStaged w && !fryStageable op then some .refusedParam
  else
    match op with
    | 0x01 =>
      let pi := wfld w 4 6 0
      if 65536 ≤ x ∨ pi = 0 ∨ 120 < pi ∨ pi ≤ wfld w 4 14 8 ∨ d.fanReserved x = true then some .refusedParam else none
    | 0x02 => if 65536 ≤ x ∨ (d.fan? x).isNone ∨ d.fanReserved x = true then some .refusedParam else none
    | 0x03 =>
      let src := wfld w 5 25 0
      if src ≠ noBerth ∧ ((d.receivers x).any fun b => d.tenantOf b != d.tenantOf src) = true then some .refusedTenant
      else if 16384 ≤ x ∨ !d.rowOrNone src then some .refusedParam
      else none
    | 0x04 =>
      if d.rowCount ≤ x then some .refusedParam
      else
        let bad := decide (5 < wfld w 4 6 4)
        if wfld w 5 31 31 = 1 then
          match d.fan? (wfld w 5 15 0) with
          | none => some .refusedParam
          | some f => if f.tenant ≠ d.tenantOf x then some .refusedTenant else if bad then some .refusedParam else none
        else if bad then some .refusedParam
        else none
    | 0x05 => if d.rowCount ≤ x then some .refusedParam else none
    | 0x06 =>
      let g := wfld w 4 13 0
      if d.rowCount ≤ x then some .refusedParam
      else if (List.range 16).any fun s =>
          (d.stream g s).valid && (d.stream g s).src != noBerth && d.tenantOf (d.stream g s).src != d.tenantOf x then
        some .refusedTenant
      else if (d.rec? x).isSome || d.rowState x == stFree ||
          ! [classFwd, classXcd, classTrk].contains (d.rowGet x RowF.CLASS) ||
          decide (4096 ≤ (d.receivers g).length) || decide (100 < wfld w 6 30 24) || !d.rowOrNone (wfld w 5 25 0) then
        some .refusedParam
      else none
    | 0x07 =>
      if (d.rec? x).isNone || decide (100 < wfld w 6 30 24) || !d.rowOrNone (wfld w 5 25 0) then some .refusedParam
      else none
    | 0x08 => if (d.rec? x).isNone then some .refusedParam else none
    | 0x09 => if (d.fryCount (wfld w 4 31 30)) ≤ x then some .refusedParam else none
    | _ => some .refusedParam

/-- A route entry written on-chip and to Hold (R280). -/
def Dev.setRoute (d : Dev) (b : Nat) (e : Route) : Dev :=
  let d := { d with fry := { d.fry with routes := assocPut Route.none b e d.fry.routes } }
  d.holdStore (d.get Reg.fry_ROUTE_BASE * 65536 + 16 * b) (bytesOfWords [e.w0, e.w1, e.w2, 0]) fryPage

/-- The values READ returns in RESULT0–3, but for a route: those of the argument words that set them (R313). -/
def Dev.fryValues (d : Dev) (w : List Word) : List Word :=
  let x := fryTarget w
  match wfld w 4 31 30 with
  | 1 =>
    match d.rec? x with
    | none => [0, 0, 0, 0]
    | some r =>
      [BitVec.ofNat 32 (bitOf r.curValid * 2 ^ 31 + bitOf r.pending * 2 ^ 30 + r.cur % 16 * 2 ^ 24 + r.group % 2 ^ 14),
        BitVec.ofNat 32 r.est, BitVec.ofNat 32 (r.share * 2 ^ 24 + r.wait % 256 * 2 ^ 8 + r.stream),
        BitVec.ofNat 32 (r.curMask % 65536 * 65536 + r.lastPid % 65536)]
  | 2 =>
    let s := d.stream x (wfld w 4 3 0)
    [BitVec.ofNat 32 (bitOf s.valid * 2 ^ 31 + wfld w 4 3 0), BitVec.ofNat 32 s.src, BitVec.ofNat 32 s.rate, 0]
  | _ =>
    match d.fan? x with
    | none => [0, 0, 0, 0]
    | some f => [BitVec.ofNat 32 (f.pi + f.launchOfs * 2 ^ 8 + f.tenant * 2 ^ 16), 0, 0, 0]

/-- The values READ returns; none where a route cannot be read from Hold, a fault that R313 refuses with REFUSED_PARAM. -/
def Dev.fryRead (d : Dev) (w : List Word) : Dev × Option (List Word) :=
  if wfld w 4 31 30 = 0 then
    match d.route (fryTarget w) with
    | (d, some e) => (d, some [e.w0, e.w1, e.w2, 0])
    | (d, none) => (d, none)
  else (d, some (d.fryValues w))

/-- READ: its results in RESULT0–3. -/
def Dev.fryReadGo (d : Dev) (p : Nat) (w : List Word) : Dev × Status :=
  match d.fryRead w with
  | (d, some v) => (d.setWords (fryPortAddr p + 0x30) v, .done)
  | (d, none) => (d, .refusedParam)

/-- What an accepted Ferry command does (R313). -/
def Dev.fryDo (d : Dev) (w : List Word) : Dev :=
  let x := fryTarget w
  match btcOp w with
  | 0x01 =>
    let fifo := ((d.fan? x).map (·.fifo)).getD []
    let f : FanList := ⟨x, wfld w 4 6 0, wfld w 4 14 8, wfld w 4 21 16, fifo, none⟩
    { d with fry := { d.fry with fans := d.fry.fans.filter (fun y => y.num != x) ++ [f] } }
  | 0x02 => { d with fry := { d.fry with fans := d.fry.fans.filter (fun y => y.num != x) } }
  | 0x03 =>
    let s : GroupStream := ⟨wfld w 4 31 31 == 1, wfld w 5 25 0, wfld w 6 15 0⟩
    { d with fry := { d.fry with streams := assocSet (16 * x + wfld w 4 3 0) s d.fry.streams } }
  | 0x04 => d.setRoute x ⟨wordAt w 4, wordAt w 5, wordAt w 6⟩
  | 0x05 => d.setRoute x Route.none
  | 0x06 =>
    let s := wfld w 6 3 0
    d.setRec x { berth := x, group := wfld w 4 13 0, est := wfld w 5 25 0, share := wfld w 6 30 24, stream := s,
                 target := s, pending := true }
  | 0x07 =>
    match d.rec? x with
    | none => d
    | some r =>
      let r' : RxRec := { r with est := wfld w 5 25 0, share := wfld w 6 30 24, stream := wfld w 6 3 0 }
      d.setRec x (r'.aim (d.targetOf r' false))
  | 0x08 => { d with fry := { d.fry with recs := assocDel x d.fry.recs } }
  | _ => d

/-- The effect of an accepted Ferry command (R313), noted for the delta (R541). -/
def Dev.fryEffect (d : Dev) (w : List Word) : Dev := (d.fryDo w).note (.ferry w)

/-- The result registers of a Ferry port. -/
def Dev.fryResult (d : Dev) (p apply : Nat) (st : Status) : Dev :=
  d.setWord (fryPortAddr p + 0x24) (BitVec.ofNat 32 (2 ^ 30 + apply * 2 ^ 27 + st.code))

/-- A Ferry command executes (R313). -/
def Dev.fryExec (d : Dev) (p : Nat) : Dev :=
  let w := d.wordsAt (fryPortAddr p) 8
  let older := d.fry.staged.map fun (s : StagedWords) => if s.port = p then s.old else s
  let d := { d with fry := { d.fry with staged := older } }
  match d.fryRefusal w with
  | some st => d.fryResult p 0 st
  | none =>
    if btcStaged w then
      let rest := older.filter fun (s : StagedWords) => s.key != fryKey w
      if 4096 ≤ rest.length then d.fryResult p 0 .refusedBudget
      else
        let t := btcTide w
        let s : StagedWords := ⟨fryKey w, p, w, t, d.begun t, true⟩
        ({ d with fry := { d.fry with staged := rest ++ [s] } }).fryResult p 1 .done
    else
      let (d, st) : Dev × Status := if btcOp w = 0x09 then d.fryReadGo p w else (d.fryEffect w, .done)
      d.fryResult p 0 st

/-- GO of a Ferry port: at most 1,000 commands per Tide; one beyond that is held with BUSY set (R313). -/
def Dev.fryGo (d : Dev) (p : Nat) : Dev :=
  let n := (assoc? p d.fry.used).getD 0
  if d.flag Reg.fry_CMD_BUSY [p] then d.log fryPage codeGoBusy
  else if 1000 ≤ n then
    ({ d with fry := { d.fry with waiting := d.fry.waiting ++ [p] } }).setWord (fryPortAddr p + 0x24) (BitVec.ofNat 32 (2 ^ 31))
  else ({ d with fry := { d.fry with used := assocSet p (n + 1) d.fry.used } }).fryExec p

/-- The staged command of the Ferry at its apply Tide: checked again, applied or dropped (R151, R313). -/
def Dev.fryApply (d : Dev) (s : StagedWords) : Dev :=
  let bad := (d.fryRefusal s.words).isSome
  let d := if bad then d.raiseLog fryPage 6 else d.fryEffect s.words
  if s.last then d.set Reg.fry_CMD_APPLY (if bad then 4 else if s.late then 3 else 2) [s.port] else d

/-- The staged Ferry commands due in the Tide that begins, in order (R313). -/
def Dev.fryStagedApply (d : Dev) : Dev :=
  let due := d.fry.staged.filter fun (s : StagedWords) => decide (s.applyTide ≤ d.tide)
  let d := { d with fry := { d.fry with staged := d.fry.staged.filter fun (s : StagedWords) => decide (d.tide < s.applyTide) } }
  due.foldl Dev.fryApply d

/-- A new Tide for the command ports: the commands held execute, each port's count begins again (R313). -/
def Dev.fryNewTide (d : Dev) : Dev :=
  let held := d.fry.waiting
  let d := { d with fry := { d.fry with waiting := [], used := held.map fun p => (p, 1) } }
  held.foldl Dev.fryExec d

/-- A write of the NH_VALID word stores the next-hop entry addressed (R314). -/
def Dev.nhWrite (d : Dev) (w : Word) : Dev :=
  let d := (d.set Reg.fry_NH_VALID (Word.fld w 31 31)).set Reg.fry_NH_MAC_HI (Word.fld w 15 0)
  let k := 4096 * d.get Reg.fry_NH_QUAY + d.get Reg.fry_NH_INDEX
  let mac := Word.fld w 15 0 * 2 ^ 32 + d.get Reg.fry_NH_MAC_LO
  let t := if Word.fld w 31 31 = 1 then assocSet k mac d.fry.nextHops else assocDel k d.fry.nextHops
  { d with fry := { d.fry with nextHops := t } }

end Sys2Proof.Machine
end

