-- ==== Sys2Proof/Machine/Twin.lean ====
section
/-!
DEFINITION. The transport state that the Mooring copies (R539): what a standby does with the records of a delta or a bulk
copy (R542, R551), and the records an active makes of its notes and of its tables (R541, R551).
-/

namespace Sys2Proof.Machine

/-! ### Applying records (R542) -/

/-- N of a row is never lowered (R542). -/
def Row.keepNext (old new : Row) : Row :=
  if new.next < old.next then (new.set RowF.TX_ROC (old.get RowF.TX_ROC)).set RowF.TX_SEQ (old.get RowF.TX_SEQ) else new

/-- A row with the parts of a LINES record written, by its LINE_MASK (R541). -/
def Row.withParts (old : Row) (mask : Nat) (words annex : List Word) : Row :=
  let part (ws : List Word) (bit a n : Nat) : List Word := if bitAt mask bit then splice ws a (slice words a n) else ws
  let ws := part (part (part (part (part old.words 0 0 16) 1 16 8) 2 24 8) 3 32 16) 4 48 16
  { words := ws, annex := if bitAt mask 5 then annex else old.annex }

/-- A pinned row's reservation ends when the row closes (R142). -/
def Dev.closeReserve (d : Dev) (b : Nat) : Dev :=
  let adms := d.ldg.adms.map fun (a : Admission) => if a.namesRow b then { a with ending := true, rowClosed := true } else a
  { d with ldg := { d.ldg with adms := adms } }

/-- Row `b` becomes what a record makes of it: a row that leaves LIVE frees its fan slot (R298, R541), one that begins to
drain is timed, one that closes ends its reservation. -/
def Dev.copyRow (d : Dev) (b : Nat) (new : Row) (whole : Bool) : Dev :=
  let old := d.row b
  let r := old.keepNext new
  let st := r.get RowF.STATE
  let was := old.get RowF.STATE
  let d1 := if was = stLive ∧ st ≠ stLive ∧ old.get RowF.CLASS = classLsn then d.fanLeave b else d
  let d2 := if whole then d1.writeWhole b r else d1.setRow b r
  let rest := assocDel b d2.btc.drainSince
  let since := if st = stDraining then (if was = stDraining then d2.btc.drainSince else assocSet b d.tide rest) else rest
  let d3 := { d2 with btc := { d2.btc with drainSince := since } }
  if st = stClosed ∧ was ≠ stClosed then d3.closeReserve b else d3

/-- One copy of a FAN record to a row that is LIVE. -/
def Dev.copyFan (d : Dev) (ts octets : Nat) (b : Nat) : Dev :=
  if d.rowState b ≠ stLive then d
  else
    (d.mapRow b fun r =>
      let n := r.next + 1
      (((((r.set RowF.TX_ROC (n / 65536)).set RowF.TX_SEQ n).bump RowF.TX_TWSEQ).bump RowF.TX_PKTS).bump RowF.TX_OCTETS
        octets).set RowF.LAST_TS (ts + r.get RowF.TS_OFS)).noteNext b (d.nextIndex b + 1)

/-- Row `b` has slot `k` of a segment. -/
def Dev.copySlot (d : Dev) (fan lport k b : Nat) : Dev :=
  match d.seg? fan lport with
  | none => d
  | some s =>
    if s.slots.contains (k, b) then d
    else
      let slots := s.slots.filter (fun x => x.1 != k && x.2 != b) ++ [(k, b)]
      d.setSeg { s with slots := slots }

/-- The row a Ferry command names, if it names one (R313). -/
def fryRow (w : List Word) : Option Nat := if 4 ≤ btcOp w ∧ btcOp w ≤ 8 then some (fryTarget w) else none

/-- The row a record names, if it names one. -/
def MrgRecord.berth : MrgRecord → Option Nat
  | .send b _ _ _ | .lines b _ _ _ | .state b _ _ | .slot b _ _ | .sweep b _ _ | .row b => some b
  | .ferry w => fryRow w
  | .receiver r => some r.berth
  | .route b _ => some b
  | .fanSlot _ _ _ b => some b
  | .fan _ _ _ _ _ _ _ | .brk _ _ _ | .stream _ _ | .fanList _ _ _ _ => none

/-- A record applied by a standby (R542). -/
def Dev.applyRecord (d : Dev) (only : Nat → Bool) (x : MrgRecord) : Dev :=
  match x with
  | .fan lport fan k0 k1 ts octets _ =>
    match d.seg? fan lport with
    | none => d
    | some s =>
      ((s.slots.filter fun y => decide (k0 ≤ y.1) && decide (y.1 < k1) && only y.2).map Prod.snd).foldl
        (fun d b => d.copyFan ts octets b) d
  | .send b n tw i =>
    let r := (((d.row b).set RowF.TX_ROC (n / 65536)).set RowF.TX_SEQ n).set RowF.TX_TWSEQ tw
    d.copyRow b (r.set RowF.SRTCP_TX_INDEX i) false
  | .lines b mask ws annex => d.copyRow b ((d.row b).withParts mask ws annex) (mask == 63)
  | .state b st qc => d.copyRow b (((d.row b).set RowF.STATE st).set RowF.QCAUSE qc) false
  | .slot b true k => d.copySlot (d.rowGet b RowF.FAN_LIST) (d.rowGet b RowF.LPORT) k b
  | .slot b false k =>
    if d.fry.segs.any fun s => s.slots.contains (k, b) then d.fanLeave b else d
  | .ferry w => d.fryDo w
  | .brk last next phase =>
    ((d.set64 Reg.tkp_BREAK_AT_LO Reg.tkp_BREAK_AT_HI last).set64 Reg.tkp_NEW_TIDE_LO Reg.tkp_NEW_TIDE_HI next).set
      Reg.tkp_BREAK_PHASE phase
  | .sweep b l1 l3 => d.copyRow b ((d.row b).withParts 22 (splice (splice (d.row b).words 16 l1) 48 l3) []) false
  | .route b e => d.setRoute b e
  | .stream k s => { d with fry := { d.fry with streams := assocSet k s d.fry.streams } }
  | .receiver r => d.setRec r.berth r
  | .fanList num pi ofs t =>
    let f : FanList := ⟨num, pi, ofs, t, ((d.fan? num).map (·.fifo)).getD [], none⟩
    { d with fry := { d.fry with fans := d.fry.fans.filter (fun y => y.num != num) ++ [f] } }
  | .fanSlot f l k b => d.copySlot f l k b
  | .row _ => d

/-- Records applied in order; those of rows that `only` leaves out are passed over (R551). -/
def Dev.applyRecords (d : Dev) (only : Nat → Bool) (rs : List MrgRecord) : Dev :=
  rs.foldl (fun d x => if (x.berth.map only).getD true then d.applyRecord only x else d) d

/-! ### The size of records (R541, R551) -/

/-- The bytes of a LINES record with a mask. -/
def linesBytes (mask : Nat) : Nat :=
  8 + 64 * bitOf (bitAt mask 0) + 32 * bitOf (bitAt mask 1) + 32 * bitOf (bitAt mask 2) + 64 * bitOf (bitAt mask 3) +
    64 * bitOf (bitAt mask 4) + 128 * bitOf (bitAt mask 5)

/-- The bytes of a record. The spec gives no size to the records of the Ferry state; each counts as a FERRY record. -/
def MrgRecord.size : MrgRecord → Nat
  | .fan _ _ _ _ _ _ _ => 24
  | .send _ _ _ _ => 16
  | .lines _ mask _ _ => linesBytes mask
  | .state _ _ _ => 8
  | .slot _ _ _ => 8
  | .ferry _ => 36
  | .brk _ _ _ => 24
  | .sweep _ _ _ => 136
  | .route _ _ | .stream _ _ | .receiver _ | .fanList _ _ _ _ | .fanSlot _ _ _ _ => 36
  | .row _ => 4

/-- The bytes of some records. -/
def recordBytes (rs : List MrgRecord) : Nat := (rs.map MrgRecord.size).sum

/-- Records taken while they fit in `room` bytes. -/
def fitting (room : Nat) : List MrgRecord → List MrgRecord
  | [] => []
  | r :: t => if r.size ≤ room then r :: fitting (room - r.size) t else []

/-- The bytes of records that one frame holds (R544). -/
def frameRoom : Nat := 9580

/-- Records cut into frames; a record never spans two (R532). -/
def framesOf : List MrgRecord → List MrgRecord → Nat → List (List MrgRecord)
  | [], [], _ => []
  | [], cur, _ => [cur]
  | r :: t, cur, room =>
    if r.size ≤ room then framesOf t (cur ++ [r]) (room - r.size) else cur :: framesOf t [r] (frameRoom - r.size)

/-! ### The delta of a Tide (R541) -/

/-- A copy noted: fan list, port, launch, timestamp and octets; its slot. -/
structure FanRun where
  key : List Nat
  first : Nat
  next : Nat
  deriving DecidableEq, Repr

/-- A copy joins the slot range that it continues, or begins one. -/
def addCopy (rs : List FanRun) (key : List Nat) (k : Nat) : List FanRun :=
  match rs.find? fun r => r.key == key && (r.next == k || k + 1 == r.first) with
  | some r =>
    let r' : FanRun := if r.next = k then ⟨key, r.first, k + 1⟩ else ⟨key, k, r.next⟩
    rs.map fun x => if x = r then r' else x
  | none => rs ++ [⟨key, k, k + 1⟩]

/-- The FAN records of a Tide's notes: each contiguous slot range whose copies left the Bond. -/
def fanRecords (ns : List MrgNote) : List MrgRecord :=
  let runs := ns.foldl (fun rs n => match n with
    | .copy fan l k _ ts oct launch => addCopy rs [l, fan, ts, oct, launch] k
    | _ => rs) []
  runs.map fun r => .fan (r.key.getD 0 0) (r.key.getD 1 0) r.first r.next (r.key.getD 2 0) (r.key.getD 3 0) (r.key.getD 4 0)

/-- The copies of fan lists that left for row `b`. -/
def fanCopies (ns : List MrgNote) (b : Nat) : Nat :=
  (ns.filter fun n => match n with
    | .copy _ _ _ x _ _ _ => x == b
    | _ => false).length

/-- The SEND record of a row whose send state was (n, tw, i) when the Tide began: none where nothing changed, or where an
LSN row followed its FAN records. -/
def Dev.sendRecord (d : Dev) (ns : List MrgNote) (b n tw i : Nat) : List MrgRecord :=
  let r := d.row b
  let k := fanCopies ns b
  let followed := decide (r.sendState = (n + k, (tw + k) % 65536, i))
  if r.sendState = (n, tw, i) ∨ (r.get RowF.CLASS = classLsn ∧ followed = true) then []
  else [.send b r.next (r.get RowF.TX_TWSEQ) (r.get RowF.SRTCP_TX_INDEX)]

/-- The record of a note, with the values at the end of the Tide. -/
def Dev.noteRecord (d : Dev) (ns : List MrgNote) (n : MrgNote) : List MrgRecord :=
  match n with
  | .copy _ _ _ _ _ _ _ => []
  | .send b n tw i => d.sendRecord ns b n tw i
  | .lines b mask => [.lines b mask (d.row b).words (d.row b).annex]
  | .state b => [.state b (d.rowState b) (d.rowGet b RowF.QCAUSE)]
  | .slot b join k => [.slot b join k]
  | .ferry w => [.ferry w]
  | .brk last next phase => [.brk last next phase]

/-- The whole of a row as a LINES record of all parts. -/
def Dev.wholeRow (d : Dev) (b : Nat) : MrgRecord := .lines b 63 (d.row b).words (d.row b).annex

/-- The mandatory records of the Tide that ends: all FAN records, then every other in the order of its change, then the
rows that a standby asked for (R541, R552). -/
def Dev.deltaRecords (d : Dev) : List MrgRecord :=
  let ns := d.mrg.notes
  fanRecords ns ++ ns.flatMap (d.noteRecord ns) ++ d.mrg.requested.map d.wholeRow

/-- The rows that are not FREE, by rising index. -/
def Dev.usedRows (d : Dev) : List Nat := (d.btc.rows.filter fun x => x.2.get RowF.STATE != stFree).map Prod.fst

/-- The rows of a sweep: in index order from where the last one ended, wrapping at the end of the table (R544). -/
def Dev.sweepRows (d : Dev) (room : Nat) : List Nat :=
  let (before, after) := d.usedRows.partition fun b => decide (b < d.mrg.sweep)
  (after ++ before).take (min (d.get Reg.mrg_SWEEP_ROWS) (room / 136))

/-- The SWEEP record of a row. -/
def Dev.sweepRecord (d : Dev) (b : Nat) : MrgRecord := .sweep b (slice (d.row b).words 16 16) (slice (d.row b).words 48 16)

/-! ### A bulk copy (R551) -/

/-- The Ferry state, as records. -/
def Dev.ferryRecords (d : Dev) : List MrgRecord :=
  d.fry.routes.map (fun x => .route x.1 x.2) ++ d.fry.streams.map (fun x => .stream x.1 x.2) ++
    d.fry.recs.map (fun x => .receiver x.2) ++ d.fry.fans.map (fun f => .fanList f.num f.pi f.launchOfs f.tenant) ++
    d.fry.segs.flatMap fun s => s.slots.map fun x => .fanSlot s.fan s.lport x.1 x.2

end Sys2Proof.Machine
end

