-- ==== Sys2Proof/Machine/Mooring.lean ====
section
/-!
DEFINITION. The Mooring (chapter 17): claims, heartbeats and what the frames of a partner do, the commands of MRG_OP, the
takeover, and the steps of a Tide boundary.
-/

namespace Sys2Proof.Machine

/-- The values of SYNC (R553). -/
def syncNone : Nat := 0
def syncBulk : Nat := 1
def syncSynced : Nat := 2
def syncDesync : Nat := 3

/-- Whether the Mooring is in service: its page has power, and EN. -/
def Dev.mrgOn (d : Dev) : Bool := d.live mrgPage && d.flag Reg.mrg_EN

/-! ### Claims (R536, R537) -/

/-- CLAIM_OWN of an EPOCH, which saturates (R536). -/
def Dev.claimOf (d : Dev) (epoch : Nat) : Nat := min 0xFFFFFF epoch * 256 + d.get Reg.mrg_RANK

/-- The device takes an EPOCH. -/
def Dev.setEpoch (d : Dev) (epoch : Nat) : Dev := d.set Reg.mrg_CLAIM_OWN (d.claimOf epoch)

/-- CLAIM_PARTNER: the highest claim heard in this Tide and in the one before (R553). -/
def Dev.showClaims (d : Dev) : Dev :=
  d.set Reg.mrg_CLAIM_PARTNER ((d.mrg.heardNow ++ d.mrg.heardPrev).foldl max 0)

/-- A partner's claim is heard. -/
def Dev.hear (d : Dev) (claim : Nat) : Dev :=
  let l := if d.mrg.heardNow.contains claim then d.mrg.heardNow else claim :: d.mrg.heardNow
  ({ d with mrg := { d.mrg with heardNow := l, partnerEpoch := claim / 256 } }).showClaims

/-- A standby becomes DESYNC: it applies no more deltas and keeps the state it holds (R545, R554). -/
def Dev.desync (d : Dev) : Dev :=
  let d := { d with mrg := { d.mrg with deltas := [], incomplete := false, copyStage := 0 } }
  if d.role ≠ roleStandby ∨ d.get Reg.mrg_SYNC = syncDesync then d
  else (d.set Reg.mrg_SYNC syncDesync).raise mrgPage 5

/-- A valid heartbeat whose Tide differs from the own one by more than 1 (R534). -/
def Dev.skewed (d : Dev) (bad : Bool) : Dev := if bad then (d.bump Reg.mrg_TIDE_SKEW).desync else d

/-- The partner's OK bit (R532, R552). -/
def Dev.partnerOk (d : Dev) (ok : Bool) : Dev :=
  let d := d.set Reg.mrg_PARTNER_OK (bitOf ok)
  if !ok && d.role == roleActive then d.raise mrgPage 9 else d

/-! ### Heartbeats (R532–R534) -/

/-- One bit into a CRC-8 of polynomial 0x07. -/
def crc8Bit (c : Nat) (b : Bool) : Nat :=
  let x := (2 * c) % 256
  if (decide (128 ≤ c)) != b then Nat.xor x 7 else x

/-- The CRC-8 of `n` bits of a number, the most significant first (R533). -/
def crc8 (w n : Nat) : Nat := ((List.range n).reverse.map (bitAt w)).foldl crc8Bit 0

/-- The 54 bits on the wire of 44 bits of content, the first sent being bit 53 (R533). -/
def hbFrame (content : Nat) : Nat := 2 ^ 53 + content % 2 ^ 44 * 2 ^ 9 + crc8 content 44 * 2

/-- HB_WIRE_RX: a frame on TWIN_HB_IN (R533, R534). -/
def Dev.hbWireRx (d : Dev) (w : Nat) : Dev :=
  let content := bits w 52 9
  if !d.mrgOn || bits w 53 53 != 1 || bits w 0 0 != 0 || bits w 8 1 != crc8 content 44 then d
  else
    let d := d.hear (bits w 52 21)
    let synced := bits w 10 10 == 1
    let sync := if synced then syncSynced else if d.mrg.partnerSync = syncSynced then syncNone else d.mrg.partnerSync
    let d := { d with mrg := { d.mrg with gotWire := true, partnerSync := sync } }
    let off := (bits w 20 13 + 256 - d.tide % 256) % 256
    (d.partnerOk (bits w 9 9 == 1)).skewed (decide (1 < off) && decide (off < 255))

/-- A frame of the Mooring arrives (R532): one that fails its checks is counted and does nothing. -/
def Dev.mrgRx (d : Dev) (h : MrgHead) (f : Dev → Dev) : Dev :=
  if !d.mrgOn then d
  else if !h.intact || h.magic != 0x4D52 || h.version != 1 then d.bump Reg.mrg_FCS_ERR
  else f (d.hear h.claim)

/-- Whether two Tide numbers differ by more than 1. -/
def tidesApart (a b : Nat) : Bool := decide (a + 1 < b) || decide (b + 1 < a)

/-- HEARTBEAT. A partner that became DESYNC gets a new bulk copy from the next boundary (R545). -/
def Dev.heartbeat (d : Dev) (h : MrgHead) (b : MrgBeat) : Dev :=
  d.mrgRx h fun d =>
    let again := d.role == roleActive && b.role == roleStandby && b.sync == syncDesync && d.mrg.bulkTide != d.tide
    let d := { d with mrg := { d.mrg with gotMrg := true, partnerSync := b.sync, bulkDue := d.mrg.bulkDue || again } }
    (d.partnerOk b.ok).skewed (tidesApart (b.tideHi * 2 ^ 32 + h.tideLo) d.tide)

/-! ### Deltas and bulk copies at the standby (R543, R545, R551) -/

/-- Whether deltas are taken: a standby in BULK or SYNCED. -/
def Dev.takesDeltas (d : Dev) : Bool :=
  d.role == roleStandby && (d.get Reg.mrg_SYNC == syncBulk || d.get Reg.mrg_SYNC == syncSynced)

/-- What is held of the delta of a Tide, changed. -/
def Dev.holdDelta (d : Dev) (tideLo : Nat) (f : MrgDelta → MrgDelta) : Dev :=
  let x := f ((d.mrg.deltas.find? (·.tideLo == tideLo)).getD ⟨tideLo, [], none⟩)
  { d with mrg := { d.mrg with deltas := d.mrg.deltas.filter (·.tideLo != tideLo) ++ [x] } }

/-- DELTA: a frame of records, held (R543). -/
def Dev.deltaRx (d : Dev) (h : MrgHead) (rs : List MrgRecord) : Dev :=
  d.mrgRx h fun d =>
    if d.takesDeltas then d.holdDelta h.tideLo fun x => { x with frames := assocSet h.fseq rs x.frames } else d

/-- DELTA_END. -/
def Dev.deltaEnd (d : Dev) (h : MrgHead) : Dev :=
  d.mrgRx h fun d => if d.takesDeltas then d.holdDelta h.tideLo fun x => { x with last := some h.count } else d

/-- Whether every frame of a delta and its end have arrived. -/
def MrgDelta.complete (x : MrgDelta) : Bool :=
  match x.last with
  | some n => (List.range n).all fun i => x.frames.any (·.1 == i)
  | none => false

/-- The rows a delta may change: all of a SYNCED standby's, those received in bulk before (R551). -/
def Dev.mayCopy (d : Dev) (b : Nat) : Bool := d.get Reg.mrg_SYNC == syncSynced || d.mrg.got.contains b

/-- A delta applied. -/
def Dev.applyDelta (d : Dev) (x : MrgDelta) : Dev := d.applyRecords d.mayCopy (x.frames.flatMap Prod.snd)

/-- A row of a bulk copy received. -/
def Dev.gotRow (d : Dev) (x : MrgRecord) : Dev :=
  match x with
  | .lines b _ _ _ =>
    let d := if d.mrg.got.contains b then d else { d with mrg := { d.mrg with got := b :: d.mrg.got } }
    d.bump Reg.mrg_BULK_ROWS
  | _ => d

/-- The first frame of a bulk copy: SYNC reads BULK, deltas count from its Tide (R545, R551). -/
def Dev.beginBulk (d : Dev) : Dev :=
  let d := { d with mrg := { d.mrg with
    got := [], bulkGot := 0, copyStage := 1, deltas := [], incomplete := false, joining := false } }
  (d.set Reg.mrg_BULK_ROWS 0).set Reg.mrg_SYNC syncBulk

/-- BULK: a frame of rows or of the Ferry state arrives at a standby. -/
def Dev.bulkRx (d : Dev) (h : MrgHead) (rs : List MrgRecord) : Dev :=
  d.mrgRx h fun d =>
    if d.role ≠ roleStandby then d
    else
      let d := if h.fseq = 0 then d.beginBulk else d
      if d.get Reg.mrg_SYNC ≠ syncBulk then d
      else
        let d := { d with mrg := { d.mrg with bulkGot := d.mrg.bulkGot + 1 } }
        rs.foldl (fun d x => (d.applyRecord (fun _ => true) x).gotRow x) d

/-- The standby reaches SYNCED: its claim is one EPOCH below the active's (R536). -/
def Dev.synced (d : Dev) (h : MrgHead) : Dev :=
  ((d.set Reg.mrg_SYNC syncSynced).setEpoch (h.claim / 256 - 1)).raise mrgPage 6

/-- BULK_END (R551). A copy that lost a frame leaves the standby DESYNC. -/
def Dev.bulkEnd (d : Dev) (h : MrgHead) : Dev :=
  d.mrgRx h fun d =>
    if d.role ≠ roleStandby ∨ d.get Reg.mrg_SYNC ≠ syncBulk then d
    else if d.mrg.bulkGot ≠ h.count then d.desync
    else d.synced h

/-! ### Requests at the active (R551, R552) -/

/-- ROW_REQ: the rows named go into the next delta. -/
def Dev.rowReq (d : Dev) (h : MrgHead) (rs : List MrgRecord) : Dev :=
  d.mrgRx h fun d =>
    if d.role ≠ roleActive then d
    else
      let bs := (rs.filterMap MrgRecord.berth).filter fun b => decide (b < d.rowCount)
      { d with mrg := { d.mrg with requested := (d.mrg.requested ++ bs).eraseDups } }

/-- JOIN_REQ: answered by a bulk copy if all 64 check values equal the own ones. -/
def Dev.joinReq (d : Dev) (h : MrgHead) (kcvs : List Nat) : Dev :=
  d.mrgRx h fun d =>
    if d.role ≠ roleActive ∨ d.mrg.bulk.isSome ∨ d.mrg.bulkTide = d.tide then d
    else if kcvs = (List.range 64).map (fun t => d.get Reg.bnd_WRAP_KCV [t]) then
      { d with mrg := { d.mrg with bulkDue := true } }
    else d.raise mrgPage 7

/-! ### Takeover (R546, R549, R550) -/

/-- A row after the safety skip (R546). -/
def Row.skipped (r : Row) (k : Nat) : Row :=
  if r.get RowF.PROFILE = 0 then r
  else
    let n := r.next + k
    (((r.set RowF.TX_ROC (n / 65536)).set RowF.TX_SEQ n).bump RowF.TX_TWSEQ k).bump RowF.SRTCP_TX_INDEX k

/-- What a takeover does to row `b` (R546, R549). -/
def Dev.takeRow (d : Dev) (k b : Nat) : Dev :=
  (d.mapRow b fun r =>
    let r := r.skipped k
    if r.get RowF.STATE = stLive then (r.set RowF.CONSENT_TIDE d.tide).set RowF.RTCP_TIDE d.tide else r).noteNext b
      (d.nextIndex b + (if d.rowGet b RowF.PROFILE = 0 then 0 else k))

/-- Every receiver record re-bases at its stream's next key picture, and a key picture is asked for once for every stream
whose SRC_BERTH is a row (R549). -/
def Dev.takeFerry (d : Dev) : Dev :=
  let recs := d.fry.recs.map fun (x : Nat × RxRec) => (x.1, { x.2 with curValid := false })
  let d := { d with fry := { d.fry with recs := recs } }
  ((d.fry.streams.map fun x => x.2.src).filter (· != noBerth)).foldl (fun d b => d.kfrInternal false b) d

/-- Credits at a warm start: min(BURST, IDLE_CREDIT) (R550). -/
def startCredit (rate burst idle : Nat) : Int := if rate = 0 then 0 else 256 * min burst idle

/-- The Tally at a warm start (R550). -/
def Dev.warmTally (d : Dev) : Dev :=
  let idle := d.get Reg.tly_IDLE_CREDIT
  let node (x : TallyNode) : TallyNode := { x with credit := startCredit x.rate x.burst idle, fifo := [] }
  let ports := (List.range 16).filterMap fun l =>
    let c := startCredit (d.get Reg.tly_PORT_RATE [l]) (d.get Reg.tly_PORT_BURST [l]) idle
    if c = 0 then none else some (l, c)
  let tly : Tally := {
    ports := ports
    subs := d.tly.subs.map fun x => (x.1, node x.2)
    svcs := d.tly.svcs.map fun x => (x.1, node x.2)
    robin := []
    staged := d.tly.staged }
  { d with tly := tly }

/-- Spill queues at a warm start: empty. -/
def Dev.warmQueues (d : Dev) : Dev :=
  let qs := d.wfg.queues.map fun (q : Queue) => { q with lanes := List.replicate 8 [], reading := none, dropping := [] }
  { d with wfg := { d.wfg with queues := qs, stalled := [] } }

/-- Codecs at a warm start: decode contexts as after CTX_RESET, tails as after LTR_SET. -/
def Dev.warmVideo (d : Dev) : Dev :=
  let ctxs := d.dec.ctxs.map fun (x : Nat × DecCtx) => (x.1, { x.2 with reset := true })
  let tails := d.enc.tails.map fun (x : Nat × TailCtx) => (x.1, ({ params := x.2.params } : TailCtx))
  { d with dec := { d.dec with ctxs := ctxs, asms := [] }, enc := { d.enc with tails := tails } }

/-- Audio at a warm start: talker slots empty; outputs silent until their first delivered block, which ramps in. -/
def Dev.warmAudio (d : Dev) : Dev :=
  let basins := d.abx.basins.map fun (x : Nat × Basin) => (x.1, { x.2 with slots := [], swaps := [] })
  let members := d.apu.members.map fun (m : Member) => { m with tx := [], txMute := false, txAt := some (d.tide + 3) }
  { d with abx := { d.abx with basins := basins }, apu := { d.apu with members := members } }

/-- The deltas that a standby holds, applied in order at takeover (R543). -/
def Dev.applyHeld (d : Dev) : Dev := d.mrg.deltas.foldl Dev.applyDelta d

/-- What a takeover does, by steps, with a skip of `k` (R549, R550). -/
def Dev.takeOver (d : Dev) (k : Nat) : Dev :=
  let d := d.applyHeld
  let d := ((d.setEpoch (d.mrg.partnerEpoch + 1)).set Reg.mrg_ROLE roleActive).set Reg.mrg_SYNC syncNone
  let d := (d.btc.rows.map Prod.fst).foldl (fun d b => d.takeRow k b) d
  let d := d.takeFerry.warmQueues.warmTally.warmVideo.warmAudio
  let mrg : Mooring := { d.mrg with
    notes := [], deltas := [], incomplete := false, copyStage := 0, joining := false, partnerSync := 0
    silentMrg := 3, silentWire := 3 }
  (({ d with mrg := mrg }).bump Reg.mrg_TAKEOVERS).raise mrgPage 0

/-- Whether the conditions of R535 hold at the end of the Tide in progress: it and the one before it were silent on both
paths. -/
def Dev.takeoverDue (d : Dev) : Bool :=
  d.mrgOn && d.role == roleStandby && d.get Reg.mrg_SYNC == syncSynced && !d.mrg.gotMrg && !d.mrg.gotWire &&
    decide (1 ≤ d.mrg.silentMrg) && decide (1 ≤ d.mrg.silentWire)

/-- TAKEOVER, at the boundary that starts the next Tide and before its first step (R549). -/
def Dev.takeover (d : Dev) : Dev :=
  if d.takeoverDue then
    let now := d.tk.tide
    let ahead : Dev := { d with tk := { d.tk with tide := d.followingTide } }
    let d := ahead.takeOver d.skip
    { d with tk := { d.tk with tide := now } }
  else d

/-! ### The commands of MRG_OP (R536, R548, R551, R553) -/

/-- The result of an OP. -/
def Dev.mrgStatus (d : Dev) (st : Status) : Dev := d.set Reg.mrg_STATUS st.code

/-- START_ACTIVE. -/
def Dev.startActive (d : Dev) : Dev :=
  if d.get Reg.mrg_RANK = 0 ∨ d.role = roleFenced then d.mrgStatus .refusedParam
  else (((d.setEpoch 1).set Reg.mrg_ROLE roleActive).set Reg.mrg_SYNC syncNone).mrgStatus .done

/-- JOIN_REQ sent. -/
def Dev.sendJoin (d : Dev) : Dev :=
  d.mrgSend (.joinReq ((List.range 64).map fun t => d.get Reg.bnd_WRAP_KCV [t])) d.tide 0 1

/-- JOIN. -/
def Dev.join (d : Dev) : Dev :=
  if d.get Reg.mrg_RANK = 0 then d.mrgStatus .refusedParam
  else
    let d := ((d.setEpoch 0).set Reg.mrg_ROLE roleStandby).set Reg.mrg_SYNC syncNone
    let mrg : Mooring := { d.mrg with
      joining := true, deltas := [], incomplete := false, copyStage := 0, notes := [], bulk := none, bulkDue := false }
    ({ d with mrg := mrg }).sendJoin.mrgStatus .done

/-- FORCE_TAKEOVER (R548). -/
def Dev.forceTakeover (d : Dev) : Dev :=
  let k := d.get Reg.mrg_FORCE_SKIP
  if d.role ≠ roleStandby ∨ ! [4096, 8192, 16384].contains k ∨ k ≤ (d.get Reg.mrg_SYNC_AGE + 4) * d.skip / 8 then
    d.mrgStatus .refusedParam
  else (d.takeOver k).mrgStatus .done

/-- The role becomes SOLO. -/
def Dev.goSolo (d : Dev) : Dev :=
  let mrg : Mooring := { d.mrg with
    joining := false, deltas := [], incomplete := false, copyStage := 0, notes := [], bulk := none, bulkDue := false
    requested := [], partnerSync := 0 }
  (({ d with mrg := mrg }).set Reg.mrg_ROLE roleSolo).set Reg.mrg_SYNC syncNone

/-- A write of the OP word (R553). -/
def Dev.mrgOp (d : Dev) (op : Nat) : Dev :=
  if !d.live mrgPage then d
  else if op = 0 then d
  else if !d.flag Reg.mrg_EN then d.mrgStatus .refusedNoUnit
  else
    match op with
    | 1 => d.startActive
    | 2 => d.join
    | 3 => d.forceTakeover
    | 4 => d.goSolo.mrgStatus .done
    | _ => d.mrgStatus .refusedParam

/-- A write of MRG_CTRL (R553): SKIP_LOG2 only while SOLO; a cleared EN makes the role SOLO. -/
def Dev.mrgCtrlWrite (d : Dev) (w : Word) : Dev :=
  let held := d.role ≠ roleSolo ∧ Word.fld w 19 16 ≠ d.get Reg.mrg_SKIP_LOG2
  let d1 := if held then d.logIgnored mrgPage 0x180040 else d
  let d2 := if d.role = roleSolo then d1.set Reg.mrg_SKIP_LOG2 (Word.fld w 19 16) else d1
  let d3 := (d2.set Reg.mrg_EN (Word.fld w 31 31)).set Reg.mrg_RANK (Word.fld w 15 8)
  if Word.fld w 31 31 = 1 then d3
  else
    let d4 := d3.goSolo
    let mrg : Mooring := { d4.mrg with
      heardNow := [], heardPrev := [], gotMrg := false, gotWire := false, silentMrg := 0, silentWire := 0 }
    ({ d4 with mrg := mrg }).showClaims

/-- MRG_LINK_CHANGE (R553, R554). -/
def Dev.mrgLinkChange (d : Dev) (up : Bool) : Dev :=
  if !d.live mrgPage ∨ d.flag Reg.mrg_LINK_UP = up ∨ (up = true ∧ d.clkOk 1 = false) then d
  else (d.set Reg.mrg_LINK_UP (bitOf up)).raise mrgPage 10

/-! ### The Tide boundary: what the ended Tide brought (R534, R535, R537, R543) -/

/-- One path was silent, or not, in the ended Tide. -/
def Dev.countSilence (d : Dev) : Dev :=
  let m := !d.mrg.gotMrg
  let w := !d.mrg.gotWire
  let d := if m then d.bump Reg.mrg_HB_MISS_MRG else d
  let d := if w then d.bump Reg.mrg_HB_MISS_WIRE else d
  let d := (d.set Reg.mrg_HB_MRG_OK (bitOf (!m))).set Reg.mrg_HB_WIRE_OK (bitOf (!w))
  let mrg : Mooring := { d.mrg with
    silentMrg := if m then d.mrg.silentMrg + 1 else 0
    silentWire := if w then d.mrg.silentWire + 1 else 0
    gotMrg := false, gotWire := false, asked := [] }
  { d with mrg := mrg }

/-- What silence does (R535): `before` is how many Tides the wire had been silent before this one. -/
def Dev.judgeSilence (d : Dev) (before : Nat) : Dev :=
  let m := d.mrg.silentMrg
  let w := d.mrg.silentWire
  let both := min m w
  if d.role = roleStandby ∧ 0 < m ∧ w = 0 then
    let d := if m = 1 ∨ 0 < before then d.raiseLog mrgPage 3 else d
    d.desync
  else if d.role = roleStandby ∧ both = 2 ∧ d.get Reg.mrg_SYNC ≠ syncSynced then d.raise mrgPage 4
  else if d.role = roleActive ∧ both = 2 then d.raise mrgPage 2
  else d

/-- An active that heard a higher partner claim in the ended Tide is FENCED; the claims heard grow a Tide older (R537). -/
def Dev.judgeClaims (d : Dev) : Dev :=
  let higher := d.mrg.heardNow.any fun c => decide (d.get Reg.mrg_CLAIM_OWN < c)
  let d := ({ d with mrg := { d.mrg with heardPrev := d.mrg.heardNow, heardNow := [] } }).showClaims
  if d.role = roleActive ∧ higher = true then
    let mrg : Mooring := { d.mrg with notes := [], bulk := none, bulkDue := false, requested := [] }
    ((({ d with mrg := mrg }).set Reg.mrg_ROLE roleFenced).bump Reg.mrg_DEMOTIONS).raise mrgPage 1
  else d

/-- The standby and the delta of the Tide before the one that ended (R543). -/
def Dev.deltaStep (d : Dev) : Dev :=
  let heard := d.mrg.silentMrg == 0 || d.mrg.silentWire == 0
  if !d.takesDeltas then d
  else if d.mrg.incomplete then (if heard then (d.bump Reg.mrg_DELTA_INCOMPLETE).desync else d)
  else if d.mrg.copyStage = 1 then { d with mrg := { d.mrg with copyStage := 2 } }
  else if d.mrg.copyStage = 0 then d
  else
    let t := d.mrg.prevTide % 2 ^ 32
    match d.mrg.deltas.find? (·.tideLo == t) with
    | some x =>
      if x.complete then
        let d := d.applyDelta x
        let d := d.set Reg.mrg_SYNC_AGE 0
        { d with mrg := { d.mrg with deltas := d.mrg.deltas.filter (·.tideLo != t) } }
      else { d with mrg := { d.mrg with incomplete := true } }
    | none => { d with mrg := { d.mrg with incomplete := true } }

/-- The Mooring at the end of Tide `ended`, before step 1 of R50: silence, claims, the standby's delta; beside the device
the delta of the ended Tide that an active is to send, its size, and whether it is over DELTA_CAP. -/
def Dev.mrgClose (d : Dev) (ended : Nat) : Dev × List MrgRecord × Bool :=
  if !d.mrgOn then ({ d with mrg := { d.mrg with prevTide := ended, notes := [] } }, [], false)
  else
    let before := d.mrg.silentWire
    let d := if d.role = roleStandby then d.set Reg.mrg_SYNC_AGE (satAdd 32 (d.get Reg.mrg_SYNC_AGE) 1) else d
    let d := (d.countSilence.judgeSilence before).judgeClaims.deltaStep
    if d.role ≠ roleActive then ({ d with mrg := { d.mrg with prevTide := ended, notes := [] } }, [], false)
    else
      let cap := 24800000
      let must := d.deltaRecords
      let excess := decide (cap < recordBytes must)
      let rows := if excess then [] else d.sweepRows (cap - recordBytes must)
      let rs := if excess then fitting cap must else must ++ rows.map d.sweepRecord
      let next := (rows.getLast?.map (· + 1)).getD d.mrg.sweep
      let mrg : Mooring := { d.mrg with prevTide := ended, notes := [], requested := [], sweep := next }
      ({ d with mrg := mrg }, rs, excess)

/-! ### The Tide boundary: what is sent (R533, R541, R551) -/

/-- OK of a heartbeat: every engine kind publishes its full count (R532). -/
def Dev.allCounts (d : Dev) : Bool := (List.range 12).all fun k => (d.serving k).length == d.serviceCount k

/-- The heartbeats of the Tide that begins (R533). -/
def Dev.sendBeats (d : Dev) : Dev :=
  let sync := d.get Reg.mrg_SYNC
  let ok := d.allCounts
  let beat : MrgBeat := ⟨d.role, sync, d.get Reg.mrg_SKIP_LOG2, ok, d.tide / 2 ^ 32⟩
  let content := (((d.get Reg.mrg_CLAIM_OWN * 256 + d.tide % 256) * 4 + d.role) * 2 + bitOf (sync == syncSynced)) * 2 + bitOf ok
  (d.mrgSend (.heartbeat beat) d.tide).emit (.hbWire (hbFrame content))

/-- The frames of some records, numbered from `k`. -/
def Dev.sendFrames (d : Dev) (tide : Nat) (body : List MrgRecord → MrgBody) : Nat → List (List MrgRecord) → Dev
  | _, [] => d
  | k, rs :: t => (d.mrgSend (body rs) tide k rs.length).sendFrames tide body (k + 1) t

/-- The delta of Tide `t`: DELTA frames, then DELTA_END; one over DELTA_CAP has no end (R541, R544). -/
def Dev.sendDelta (d : Dev) (t : Nat) (rs : List MrgRecord) (excess : Bool) : Dev :=
  let fs := framesOf rs [] frameRoom
  let d := d.sendFrames t .delta 0 fs
  let n := recordBytes rs
  let d := if d.get Reg.mrg_DELTA_MAX < n then d.set Reg.mrg_DELTA_MAX n else d
  if excess then d.raise mrgPage 8 else d.mrgSend .deltaEnd t 0 fs.length

/-- The records of a bulk copy that fit in `room` bytes, and where the copy goes on (R551). -/
def Dev.bulkPart (d : Dev) (b : MrgBulk) (room : Nat) : List MrgRecord × MrgBulk × Bool :=
  match b.ferry with
  | none =>
    let rows := d.usedRows.filter fun x => decide (b.next ≤ x)
    let now := rows.take (room / 392)
    if now.length < rows.length then (now.map d.wholeRow, { b with next := (now.getLast?.map (· + 1)).getD b.next }, false)
    else
      let rs := d.ferryRecords
      let got := fitting (room - 392 * now.length) rs
      (now.map d.wholeRow ++ got, { b with ferry := some (rs.drop got.length) }, got.length == rs.length)
  | some rs =>
    let got := fitting room rs
    (got, { b with ferry := some (rs.drop got.length) }, got.length == rs.length)

/-- A bulk copy goes on in the room that the delta leaves; its first frame is sent whatever it holds (R551). -/
def Dev.sendBulk (d : Dev) (used : Nat) : Dev :=
  let d := if d.mrg.bulkDue then
      { d with mrg := { d.mrg with bulk := some {}, bulkDue := false, bulkTide := d.tide } }
    else d
  match d.mrg.bulk with
  | none => d
  | some b =>
    let (rs, b', done) := d.bulkPart b (24871150 - used)
    let fs := if rs.isEmpty ∧ b.fseq = 0 then [[]] else framesOf rs [] frameRoom
    let d := d.sendFrames d.tide .bulk b.fseq fs
    let n := b.fseq + fs.length
    if done then ({ d with mrg := { d.mrg with bulk := none } }).mrgSend .bulkEnd d.tide 0 n
    else { d with mrg := { d.mrg with bulk := some { b' with fseq := n } } }

/-- Step 5 of R50 for the Mooring: heartbeats first, JOIN_REQ while it is not answered, the delta of the ended Tide, the bulk
copy. -/
def Dev.mrgSendStep (d : Dev) (ended : Nat) (rs : List MrgRecord) (excess : Bool) : Dev :=
  if !d.mrgOn then d
  else
    let d := d.sendBeats
    let d := if d.role = roleStandby ∧ d.mrg.joining = true then d.sendJoin else d
    if d.role ≠ roleActive then d else (d.sendDelta ended rs excess).sendBulk (recordBytes rs)

end Sys2Proof.Machine
end

