-- ==== Sys2Proof/Machine/Gangway.lean ====
section
/-!
DEFINITION. The Gangway (chapter 19): vectors, BAR2, virtual functions, host rings and log rings (R586–R602).
-/

namespace Sys2Proof.Machine

/-- The Gangway page. -/
def gwyPage : Page := ⟨.gwy, 0⟩

/-! ### Vectors (R593, R594) -/

/-- The pages that are no engine's. -/
def plainPages : List Page :=
  [⟨.dev, 0⟩, ⟨.gwy, 0⟩, ⟨.tkp, 0⟩, ⟨.ldg, 0⟩, ⟨.wfg, 0⟩, ⟨.btc, 0⟩, ⟨.qay, 0⟩, ⟨.qay, 1⟩, ⟨.qay, 2⟩, ⟨.qay, 3⟩,
    ⟨.bwr, 0⟩, ⟨.bnd, 0⟩, ⟨.fry, 0⟩, ⟨.tly, 0⟩, ⟨.abx, 0⟩, ⟨.apu, 0⟩, ⟨.ess, 0⟩, ⟨.decCtl, 0⟩, ⟨.encCtl, 0⟩,
    ⟨.cmpCtl, 0⟩, ⟨.hld, 0⟩, ⟨.mrg, 0⟩, ⟨.slw, 0⟩, ⟨.tgg, 0⟩, ⟨.lfi, 0⟩, ⟨.pwr, 0⟩] ++
  (List.range 9).flatMap fun n => [⟨.pier, n⟩, ⟨.rkn, n⟩]

/-- The pages of engines. -/
def enginePageList : List Page :=
  ((List.range 34).map fun i => ⟨.vde, i⟩) ++ ((List.range 17).map fun i => ⟨.svy, i⟩) ++
    ((List.range 50).map fun i => ⟨.ltr, i⟩) ++ (List.range 9).map fun i => ⟨.lcp, i⟩

/-- Whether a page signals (R592). -/
def Dev.pageSignals (d : Dev) (p : Page) : Bool := d.present p && d.hdr p 0x018 31 0 &&& d.hdr p 0x014 31 0 != 0

/-- Whether any page in a slot of PF BAR0 signals. -/
def Dev.slotSignals (d : Dev) (i : Nat) : Bool := (plainPages ++ enginePageList).any fun p => pageSlot p == i && d.pageSignals p

/-- Whether a host ring's source is true (R596). -/
def Dev.ringTrue (d : Dev) (r : Nat) : Bool := d.get Reg.gwy_RING_HEAD [r] != d.get Reg.gwy_RING_RD [r]

/-- Whether a log ring's source is true (R600). -/
def Dev.logTrue (d : Dev) (n : Nat) : Bool :=
  (d.get Reg.gwy_LOGR_WR_SEQ [n] + 2 ^ 32 - 1) % 2 ^ 32 != d.get Reg.gwy_LOGR_RD_SEQ [n]

/-- The owner of a host ring. -/
def Dev.ringOwner (d : Dev) (r : Nat) : Fn :=
  let o := d.get Reg.gwy_RING_OWNER [r]
  if o = 0 then .pf else .vf o

/-- Whether a vector is asserted (R594). -/
def Dev.asserted (d : Dev) (f : Fn) (v : Nat) : Bool :=
  let rings := (List.range 64).any fun r =>
    d.flag Reg.gwy_RING_EN [r] && d.ringOwner r == f && d.get Reg.gwy_RING_VECTOR [r] == v && d.ringTrue r
  match f with
  | .pf => rings || ((List.range 320).any fun i => d.get Reg.gwy_VEC_MAP [i] == v && d.slotSignals i) ||
      (d.get Reg.gwy_LOGR_VECTOR [0] == v && d.logTrue 0)
  | .vf n =>
    if v = 0 then d.get Reg.vf_EVT_PEND [n - 1] &&& d.get Reg.vf_EVT_EN [n - 1] != 0
    else
      let t := d.vfTenant n
      rings || (t != 0 && d.get Reg.gwy_LOGR_VECTOR [t] == v && d.logTrue t)

/-- The vectors of a function. -/
def vectorsOf : Fn → Nat
  | .pf => 2048
  | .vf _ => 32

/-- A vector is armed: if it is asserted, its message follows, no sooner than VEC_HOLDOFF µs after the last one. -/
def Dev.rearm (d : Dev) (f : Fn) (v : Nat) : Dev :=
  if !d.gwy.disarmed.contains (f, v) then d
  else
    let armed : Dev := { d with gwy := { d.gwy with disarmed := d.gwy.disarmed.filter fun x => x != (f, v) } }
    if !d.asserted f v then armed
    else
      let due := match d.gwy.lastMsg.find? fun x => x.1 == f && x.2.1 == v with
        | some x => decide (x.2.2 + 1000 * min 1000 (d.get Reg.gwy_VEC_HOLDOFF) ≤ d.ns)
        | none => true
      if due then armed.signal f v
      else if d.gwy.rearmWait.contains (f, v) then d
      else { d with gwy := { d.gwy with rearmWait := (f, v) :: d.gwy.rearmWait } }

/-- VEC_REARM of a PF vector. -/
def Dev.vecRearm (d : Dev) (v : Nat) : Dev := if v < 2048 then d.rearm .pf v else d

/-- VF_REARM of a vector of VF n (R602). -/
def Dev.vfRearm (d : Dev) (n v : Nat) : Dev := if 1 ≤ n ∧ n ≤ 64 ∧ v < 32 ∧ d.vfTenant n ≠ 0 then d.rearm (.vf n) v else d

/-- VEC_HOLDOFF_END: a rearmed vector that is still asserted sends its message. -/
def Dev.vecHoldoffEnd (d : Dev) (f : Fn) (v : Nat) : Dev :=
  if !d.gwy.rearmWait.contains (f, v) then d
  else
    let due := match d.gwy.lastMsg.find? fun x => x.1 == f && x.2.1 == v with
      | some x => decide (x.2.2 + 1000 * min 1000 (d.get Reg.gwy_VEC_HOLDOFF) ≤ d.ns)
      | none => true
    if !due then d
    else
      let g := d.gwy
      let armed : Dev := { d with gwy := { g with
        disarmed := g.disarmed.filter fun x => x != (f, v)
        rearmWait := g.rearmWait.filter fun x => x != (f, v) } }
      if d.asserted f v then armed.signal f v else armed

/-- MSIX_UNMASK: the mask of a vector clears, and a message that pends is sent if the vector is still asserted. -/
def Dev.msixUnmask (d : Dev) (f : Fn) (v : Nat) : Dev :=
  if vectorsOf f ≤ v ∨ d.gwy.unmasked.contains (f, v) then d
  else
    let g := d.gwy
    let open_ : Dev := { d with gwy := { g with
      unmasked := (f, v) :: g.unmasked
      pendingBits := g.pendingBits.filter fun x => x != (f, v) } }
    if g.pendingBits.contains (f, v) ∧ d.asserted f v then open_.signal f v else open_

/-- A vector is masked. -/
def Dev.msixMask (d : Dev) (f : Fn) (v : Nat) : Dev :=
  { d with gwy := { d.gwy with unmasked := d.gwy.unmasked.filter fun x => x != (f, v) } }

/-- A word of an MSI-X table entry is written: word 3 holds the mask. -/
def Dev.msixWrite (d : Dev) (f : Fn) (v i : Nat) (w : Word) : Dev :=
  if i = 3 then (if w.getLsbD 0 then d.msixMask f v else d.msixUnmask f v)
  else { d with gwy := { d.gwy with msix := assocPut 0 (msixEntry f v + 4 * i) w d.gwy.msix } }

/-! ### Event registers (R591, R592) -/

/-- A write to EVT_PEND clears the bits written as 1. -/
def Dev.evtPendClear (d : Dev) (p : Page) (mask : Nat) : Dev :=
  if !d.live p then d
  else if p.kind = .vf then
    (if d.vfTenant p.idx = 0 then d.bump Reg.gwy_VF_IGNORED
      else d.set Reg.vf_EVT_PEND (d.get Reg.vf_EVT_PEND [p.idx - 1] &&& (2 ^ 32 - 1 - mask % 2 ^ 32)) [p.idx - 1])
  else d.setHdr p 0x018 31 0 (d.hdr p 0x018 31 0 &&& (2 ^ 32 - 1 - mask % 2 ^ 32))

/-- A write to EVT_FORCE latches the bits written as 1. -/
def Dev.evtForce (d : Dev) (p : Page) (mask : Nat) : Dev :=
  if !d.live p then d
  else if p.kind = .vf ∧ d.vfTenant p.idx = 0 then d.bump Reg.gwy_VF_IGNORED
  else d.latch p (mask % 2 ^ 32)

/-! ### BAR2 (R586, R623) -/

/-- The first GiB that BAR2 shows. -/
def Dev.bar2Base (d : Dev) : Nat := min (d.get Reg.gwy_BAR2_BASE) (if d.variant = .spt8816 then 40 else 96)

/-- An access through BAR2 that Hold does not serve. -/
def Dev.bar2Failed (d : Dev) : Dev := (d.bump Reg.gwy_BAR2_ERR).raise gwyPage 0

/-- BAR2_ACCESS: a read of `n` bytes, or a write (a write to the row or annex region is REGION_WRITE of the BTC page, R157). In
Ebb mode Hold answers as for an unmapped address (R623). -/
def Dev.bar2Access (d : Dev) (x n : Nat) (data : Option Bytes) : Dev :=
  let a := d.bar2Base * 2 ^ 30 + x
  if 2 ^ 34 < x + n then d
  else
    match data with
    | some b =>
      let ebb := d.get Reg.dev_DEV_STATE == 3
      if !ebb && d.btcRegions.any (·.touches a b.length) then d.raiseLog btcPage 4 3 a 0 (leBytes 8 a)
      else if !ebb && d.unitOwned a b.length then d.logIgnored gwyPage a
      else match d.holdWrite a b gwyPage with
        | (d, none) => d
        | (d, some _) => d.bar2Failed
    | none =>
      match d.holdRead a n gwyPage with
        | (d, .ok b) => d.emit (.completion b false)
        | (e, .error _) => (e.spotRows d).bar2Failed.emit (.completion (List.replicate n 0xFF) true)

/-! ### Virtual functions (R587, R590) -/

/-- A write to VF_TENANT of VF n: ignored while that VF has a host ring enabled. -/
def Dev.vfTenantWrite (d : Dev) (n : Nat) (w : Word) : Dev :=
  if n = 0 ∨ 64 < n then d
  else if (List.range 64).any fun r => d.flag Reg.gwy_RING_EN [r] && d.ringOwner r == .vf n then
    d.logIgnored gwyPage (Reg.gwy_VF_TENANT.addrAt [n - 1])
  else d.set Reg.gwy_VF_TENANT (Word.fld w 5 0) [n - 1]

/-- What an FLR does for one function: its rings, its unbooked operations not yet started, its vectors. -/
def Dev.flr (d : Dev) (f : Fn) (o : Option Nat) : Dev :=
  let d := (List.range 64).foldl (fun d r => if d.ringOwner r = f then d.set Reg.gwy_RING_EN 0 [r] else d) d
  let mine := (d.wfg.slots.filter fun s => !s.admitted && s.vf == o).map (·.num)
  let d := mine.foldl Dev.cancelUnstarted d
  { d with gwy := { d.gwy with unmasked := d.gwy.unmasked.filter fun x => x.1 != f } }

/-- VF_FLR. -/
def Dev.vfFlr (d : Dev) (n : Nat) : Dev :=
  if n = 0 ∨ 64 < n then d
  else ((d.flr (.vf n) (some n)).set Reg.vf_EVT_EN 0 [n - 1]).set Reg.vf_EVT_PEND 0 [n - 1]

/-- PF_FLR: the same for every VF and for the PF. -/
def Dev.pfFlr (d : Dev) : Dev := ((List.range 64).foldl (fun d i => d.vfFlr (i + 1)) d).flr .pf none

/-! ### The link (R601) -/

/-- PCIE_LINK_CHANGE. -/
def Dev.pcieLinkChange (d : Dev) (speed width : Nat) : Dev :=
  if d.get Reg.gwy_LINK_SPEED = speed ∧ d.get Reg.gwy_LINK_WIDTH = width then d
  else ((d.set Reg.gwy_LINK_SPEED speed).set Reg.gwy_LINK_WIDTH width).raise gwyPage 4

/-! ### Host rings (R596) -/

/-- Slots and bytes of a slot of a ring. -/
def Dev.ringSlots (d : Dev) (r : Nat) : Nat := 2 ^ clampN 6 16 (d.get Reg.gwy_RING_LOG2_SLOTS [r])
def Dev.ringSlotBytes (d : Dev) (r : Nat) : Nat := 2048 * 2 ^ d.get Reg.gwy_RING_SLOT_BYTES [r]

/-- The tenant of a function. -/
def Dev.fnTenant (d : Dev) : Fn → Nat
  | .pf => 0
  | .vf n => d.vfTenant n

/-- The vectors of a function that rings may name: of a VF all but vector 0, which its event page alone feeds (R594). -/
def ringVector (f : Fn) (v : Nat) : Bool := decide (v < vectorsOf f) && (f == .pf || v != 0)

/-- The vector of a host ring whose source is true becomes asserted (R594, R596). -/
def Dev.ringEdge (d : Dev) (r : Nat) : Dev :=
  let v := d.get Reg.gwy_RING_VECTOR [r]
  if d.flag Reg.gwy_RING_EN [r] && d.ringTrue r && ringVector (d.ringOwner r) v then d.signal (d.ringOwner r) v else d

/-- HOST_RING_ENABLE, and any write to the word of a host ring that holds EN: with EN at 1 only EN may change; an enable
checks the queue. -/
def Dev.hostRingWrite (d : Dev) (r : Nat) (w : Word) : Dev :=
  if 64 ≤ r then d
  else if d.flag Reg.gwy_RING_EN [r] then
    let old := d.word (Reg.gwy_RING_EN.addrAt [r])
    let d := d.set Reg.gwy_RING_EN (Word.fld w 31 31) [r]
    if (old ^^^ w) &&& 0x007F3FFF = 0 then d else d.logIgnored gwyPage (Reg.gwy_RING_EN.addrAt [r])
  else
    let d := ((d.set Reg.gwy_RING_OWNER (Word.fld w 22 16) [r]).set Reg.gwy_RING_SLOT_BYTES (Word.fld w 13 12) [r]).set
      Reg.gwy_RING_QUEUE (Word.fld w 11 0) [r]
    if Word.fld w 31 31 = 0 then d
    else
      let q := Word.fld w 11 0
      let ok := decide (d.get Reg.gwy_RING_OWNER [r] ≤ 64) && d.flag Reg.wfg_Q_HOST_BOUND [q] &&
        d.get Reg.wfg_Q_TENANT [q] == d.fnTenant (d.ringOwner r)
      if ok then ((d.set Reg.gwy_RING_EN 1 [r]).set Reg.gwy_RING_CFG_BAD 0 [r]).ringEdge r
      else (d.set Reg.gwy_RING_CFG_BAD 1 [r]).raise gwyPage 3

/-- Any other field of a host ring: writable while EN is 0, but for RD. -/
def Dev.hostRingField (d : Dev) (r i : Nat) (w : Word) : Dev :=
  let a := Reg.gwy_RING_EN.addrAt [r] + 4 * i
  if i = 5 then (d.set Reg.gwy_RING_RD w.toNat [r]).ringEdge r
  else if i = 4 then d
  else if d.flag Reg.gwy_RING_EN [r] then d.logIgnored gwyPage a
  else
    match i with
    | 1 => d.set Reg.gwy_RING_HOST_ADDR_LO w.toNat [r]
    | 2 => d.set Reg.gwy_RING_HOST_ADDR_HI w.toNat [r]
    | 3 => (d.set Reg.gwy_RING_LOG2_SLOTS (Word.fld w 20 16) [r]).set Reg.gwy_RING_VECTOR (Word.fld w 10 0) [r]
    | _ => d

/-- The data of an item for a host ring: what lies in the packet buffer, or what Hold holds; a Hold error leaves the
bytes open. -/
def Dev.ringData (d : Dev) (i : Item) (n : Nat) : Dev × Bytes :=
  if wfld i.words 2 8 8 = 1 then (d, i.data.take n)
  else if i.type = 1 ∨ n = 0 then (d, [])
  else
    match d.holdRead i.addr n gwyPage with
    | (d, .ok b) => (d, b)
    | (d, .error _) => d.drawBytes n

/-- HOST_RING_DELIVER: the next item of a ring's queue goes into the next slot, with the bytes copied in words 1 and 2;
a completion item, whose words 1 and 2 hold no address (R109, R120), goes as it is. -/
def Dev.hostRingDeliver (d : Dev) (r : Nat) : Dev :=
  let head := d.get Reg.gwy_RING_HEAD [r]
  if 64 ≤ r ∨ !d.flag Reg.gwy_RING_EN [r] ∨
      d.ringSlots r ≤ (head + 2 ^ 32 - d.get Reg.gwy_RING_RD [r]) % 2 ^ 32 then d
  else
    match d.take (d.get Reg.gwy_RING_QUEUE [r]) with
    | (d, none) => d
    | (d, some i) =>
      let size := if i.type = 1 then 0 else i.length
      let room := d.ringSlotBytes r - 32
      let (d, data) : Dev × Bytes := d.ringData i (min size room)
      let cut := if room < size then 2 ^ 31 else 0
      let words := if i.type = 1 then i.words else (i.words.set 1 (BitVec.ofNat 32 data.length)).set 2 (BitVec.ofNat 32 cut)
      let slot := d.get Reg.gwy_RING_HOST_ADDR_LO [r] + 2 ^ 32 * d.get Reg.gwy_RING_HOST_ADDR_HI [r] +
        head % d.ringSlots r * d.ringSlotBytes r
      let d := if data.isEmpty then d else d.emit (.hostWrite (slot + 32) data)
      let d := (d.emit (.hostWrite slot (bytesOfWords words))).set Reg.gwy_RING_HEAD (head + 1) [r]
      d.ringEdge r

/-! ### Log rings (R597, R598) -/

/-- The bytes of a log entry with its number in a ring. -/
def LogEntry.bytes (e : LogEntry) (seq : Nat) : Bytes :=
  leBytes 8 e.tide ++ leBytes 4 (e.phase % 2 ^ 21) ++
    leBytes 4 (typeCode e.page.kind * 65536 + pageInstance e.page * 256 + e.code) ++
    leBytes 4 (e.refKind * 2 ^ 30 + e.ref % 2 ^ 25) ++ leBytes 4 seq ++ leBytes 4 (e.tenant % 64) ++ leBytes 4 0 ++ padTo 32 e.detail

/-- The vectors of a log ring whose source is true become asserted: the PF's for ring 0, those of the tenant's VFs for its own
(R594, R600). -/
def Dev.logEdge (d : Dev) (n : Nat) : Dev :=
  let v := d.get Reg.gwy_LOGR_VECTOR [n]
  if !d.logTrue n then d
  else if n = 0 then d.signal .pf v
  else ((List.range 64).filter fun i => d.vfTenant (i + 1) = n && ringVector (.vf (i + 1)) v).foldl (fun d i => d.signal (.vf (i + 1)) v) d

/-- An entry is written to log ring n: in Hold, and in host memory with MIRROR_EN. -/
def Dev.logRing (d : Dev) (e : LogEntry) (n : Nat) : Dev :=
  let seq := d.get Reg.gwy_LOGR_WR_SEQ [n]
  let size := 2 ^ clampN 6 20 (d.get Reg.gwy_LOGR_LOG2_ENTRIES [n])
  let unread := toSigned 32 (seq + 2 * 2 ^ 32 - size - d.get Reg.gwy_LOGR_RD_SEQ [n])
  let b := e.bytes seq
  let d := if 0 < unread then d.bump Reg.gwy_LOGR_LOG_LOST [n] else d
  let d := d.holdStore (256 * d.get Reg.gwy_LOGR_LOG_BASE [n] + 64 * (seq % size)) b gwyPage
  let mirror := d.get Reg.gwy_LOGR_MIRROR_ADDR_LO [n] + 2 ^ 32 * d.get Reg.gwy_LOGR_MIRROR_ADDR_HI [n]
  let d := if d.flag Reg.gwy_LOGR_MIRROR_EN [n] then d.emit (.hostWrite (mirror + 64 * (seq % size)) b) else d
  let d := d.set Reg.gwy_LOGR_WR_SEQ (seq + 1) [n]
  (if n = 0 then d else d.raiseTenant n 8).logEdge n

/-- LOG_ENTRY: the next entry of the FIFO goes to the provider's ring and to that of the tenant it concerns. -/
def Dev.logEntry (d : Dev) : Dev :=
  match d.gwy.log with
  | [] => d
  | e :: rest =>
    let d := ({ d with gwy := { d.gwy with log := rest } }).logRing e 0
    if e.tenant = 0 then d else d.logRing e (e.tenant % 64)

/-- A field of a log ring: writable while MIRROR_EN is 0, but for RD_SEQ and MIRROR_EN itself. -/
def Dev.logRingField (d : Dev) (n i : Nat) (w : Word) : Dev :=
  let a := Reg.gwy_LOGR_MIRROR_EN.addrAt [n] + 4 * i
  let on := d.flag Reg.gwy_LOGR_MIRROR_EN [n]
  if i = 5 then (d.set Reg.gwy_LOGR_RD_SEQ w.toNat [n]).logEdge n
  else if i = 4 ∨ i = 6 then d
  else if i = 0 then
    if on then
      let old := d.word a
      let d := d.set Reg.gwy_LOGR_MIRROR_EN (Word.fld w 31 31) [n]
      if (old ^^^ w) &&& 0x001F07FF = 0 then d else d.logIgnored gwyPage a
    else (((d.set Reg.gwy_LOGR_MIRROR_EN (Word.fld w 31 31) [n]).set Reg.gwy_LOGR_LOG2_ENTRIES (Word.fld w 20 16) [n]).set
      Reg.gwy_LOGR_VECTOR (Word.fld w 10 0) [n]).logEdge n
  else if on then d.logIgnored gwyPage a
  else d.setWord a w

end Sys2Proof.Machine
end

