-- ==== Sys2Proof/Machine/Types/Fuse.lean ====
section
/-!
DEFINITION. The fuse array (R567), which every reset keeps.
-/

namespace Sys2Proof.Machine

/-- The fuses: the variant and the die identifier, the 24 words of trims, the repair and the retirement records in use,
and the provider words written. -/
structure Fuse where
  variant : Variant
  dieId : Nat
  trims : List Word
  repairs : List Word
  retires : List Word
  user : List (Nat × Word)
  deriving DecidableEq, Repr

end Sys2Proof.Machine
end

