-- ==== Sys2Proof/Machine/Slipway.lean ====
section
/-!
DEFINITION. The Slipway (chapter 18): the roll-call, audits, retirements, and the fuse commands (R117–R119, R555–R568).
-/

namespace Sys2Proof.Machine

/-! ### The roll-call (R117–R119) -/

/-- States of R591. -/
def ustOff : Nat := 0
def ustReady : Nat := 1
def ustRun : Nat := 2
def ustQuiesced : Nat := 3
def ustFault : Nat := 4
def ustRetired : Nat := 5
def ustAudit : Nat := 6

/-- The place of a state in the order of R117. -/
def stateRank (s : Nat) : Nat :=
  match s with
  | 2 => 0 | 1 => 1 | 6 => 2 | 3 => 3 | 4 => 4 | 5 => 5
  | _ => 6

/-- The state that wins: the one lower in the order. -/
def winner (a b : Nat) : Nat := if stateRank a ≤ stateRank b then b else a

/-- Whether a unit has an operation in progress, or pre-empted ones. -/
def Dev.busyUnit (d : Dev) (u : UnitId) : Bool :=
  if u.kind = ukCore then !(d.core u.idx).ops.isEmpty else (d.runningOn u).isSome

/-- The state management set for a page through BLK_CTRL. -/
def Dev.pageManaged (d : Dev) (p : Page) : Nat :=
  if !d.live p then ustOff else if d.hdr p 0x008 1 1 = 1 then ustQuiesced
  else if d.hdr p 0x008 0 0 = 1 then ustRun else ustReady

/-- The state that the unit of a page without engines reports: a Quay in MODE 0x0 is off (R158). -/
def Dev.pageOwn (d : Dev) (p : Page) : Nat :=
  if p.kind = .qay ∧ d.get Reg.qay_MODE [p.idx] = 0 then ustOff else d.pageManaged p

/-- The state management set for a unit, through BLK_CTRL and the Slipway. -/
def Dev.managed (d : Dev) (u : UnitId) : Nat :=
  let x := d.unit u
  if !d.live u.page then ustOff
  else if x.retired ∨ x.mgmtRetired then ustRetired
  else if x.audit then ustAudit
  else d.pageManaged u.page

/-- The state a unit reports in its own status word, where no report of its own came in. -/
def Dev.ownState (d : Dev) (u : UnitId) : Nat :=
  let x := d.unit u
  let m := d.managed u
  if m = ustOff then ustOff
  else if x.fault then (if x.softReset then ustReady else ustFault)
  else if x.retired then ustRetired
  else if (m = ustQuiesced ∨ m = ustRetired) ∧ d.busyUnit u then ustRun
  else m

/-- Kinds that are audited during operation (R555). -/
def fieldKind (k : Nat) : Bool := [0, 1, 2, 3, 4, 5, 7, 8, 9, 0xA, 0xC, 0xD].contains k

/-- A unit retired by management passes its calendar on, and is RETIRED once nothing runs on it (R118). -/
def Dev.retireStep (d : Dev) (u : UnitId) : Dev :=
  let x := d.unit u
  if !x.mgmtRetired ∨ x.retired then d
  else
    let d := match d.holds u with
      | some h =>
        let d := if h = u then d else d.setUnit u { d.unit u with carries := none }
        (d.moveCalendar h).takeCalendar h
      | none => d
    if d.busyUnit u then d else d.setUnit u { d.unit u with retired := true }

/-- The roll-call finds a disagreement (R118, R129): WFG_ROLLCALL names the unit, and the log both states. -/
def Dev.disagree (d : Dev) (u : UnitId) (managed own : Nat) : Dev :=
  let d := ((d.bump Reg.wfg_DISAGREE_COUNT).set Reg.wfg_ROLLCALL_KIND u.kind).set Reg.wfg_ROLLCALL_INDEX u.idx
  d.raiseLog wfgPage 0 (detail := leBytes 1 u.kind ++ leBytes 2 u.idx ++ leBytes 1 managed ++ leBytes 1 own)

/-- One unit at the roll-call: the states are compared, a difference is logged, and R118 and R119 act. -/
def Dev.rollUnit (d : Dev) (reports : List UnitReport) (u : UnitId) : Dev :=
  let rep := (reports.find? fun r => r.kind == u.kind && r.idx == u.idx).map (·.state)
  let m := d.managed u
  let o := rep.getD (d.ownState u)
  let d := if m = o then d else d.disagree u m o
  let d := d.setUnit u { d.unit u with reports := if o ≠ ustFault ∧ stateRank m < stateRank o then some o else none }
  let d := d.retireStep u
  let x := d.unit u
  if o = ustFault ∧ !x.fault then (d.faultUnit u).takeCalendar ((d.holds u).getD u)
  else if x.fault ∧ x.softReset ∧ o = ustReady then
    d.setUnit u { x with fault := false, softReset := false, returned := true, untested := fieldKind u.kind, reports := none }
  else d

/-- The engine pages of a present engine kind. -/
def enginePages (d : Dev) : List (Page × UnitId) :=
  [ukVde, ukSvy, ukLtr, ukLcp].flatMap fun k =>
    (List.range (d.serviceCount k) ++ d.bornSpares k).map fun i => ((UnitId.mk k i).page, ⟨k, i⟩)

/-- The states that STATE is to report from now on (R117, R591). -/
def Dev.pageStates (d : Dev) (reports : List UnitReport) : List (Page × Nat) :=
  let state := fun (u : UnitId) =>
    winner (d.managed u) (((reports.find? fun r => r.kind == u.kind && r.idx == u.idx).map (·.state)).getD (d.ownState u))
  ((plainPages.map fun p => (p, winner (d.pageManaged p) (d.pageOwn p))) ++ ((enginePages d).map fun x => (x.1, state x.2))).filter
    fun x => d.live x.1

/-- The roll-call of a Tide boundary. -/
def Dev.rollCall (d : Dev) (reports : List UnitReport) : Dev :=
  let waiting := (d.slw.units.filter fun x => x.2.next.isSome).map Prod.fst
  let d := waiting.foldl Dev.takeCalendar d
  let named := reports.map fun r => (⟨r.kind, r.idx⟩ : UnitId)
  let running := d.instances.filterMap fun x => x.2.engine
  let units := (d.slw.units.map Prod.fst ++ named ++ running).eraseDups.filter d.unitExists
  let d := units.foldl (fun d u => d.rollUnit reports u) d
  { d with slw := { d.slw with states := d.pageStates reports } }

/-- SOFT_RESET of a page: the fault latches of its units clear, and what runs on them is gone (R119, R591). -/
def Dev.softReset (d : Dev) (p : Page) : Dev :=
  let running := ((d.instances.filterMap fun x => x.2.engine).filter fun u => u.page == p).eraseDups
  let d := running.foldl Dev.unitFails d
  (d.slw.units.filter fun x => x.1.page == p && x.2.fault).foldl (fun d x => d.setUnit x.1 { d.unit x.1 with softReset := true }) d

/-! ### Audits (R558–R564) -/

/-- Slices of an audit of kind k (R555). -/
def slicesOf (k : Nat) : Nat :=
  match k with
  | 0x0 => 6 | 0x1 => 4 | 0x2 => 6 | 0x3 => 3 | 0x4 => 1 | 0x5 => 2 | 0x7 => 2 | 0x8 => 3 | 0x9 => 2 | 0xA => 2 | 0xC => 1 | 0xD => 2
  | _ => 0

/-- Stuck-at coverage of kind k in 0.01 % (R555). -/
def coverageOf (k : Nat) : Nat :=
  [9860, 9890, 9840, 9910, 9930, 9900, 9750, 9970, 9870, 9880, 9850, 9790, 9940, 9900, 9800, 9650].getD k 0

/-- Whether audits of a kind are enabled. -/
def Dev.auditsOn (d : Dev) (k : Nat) : Bool :=
  fieldKind k && d.live slwPage && d.flag Reg.slw_BOOT_DONE && d.flag Reg.slw_AUDIT_EN &&
    bitAt (d.get Reg.slw_AUDIT_KIND_MASK) k && d.serviceCount k != 0

/-- AUDIT_PERIOD as it acts. -/
def Dev.auditPeriod (d : Dev) : Nat := clampN 100 60000 (d.get Reg.slw_AUDIT_PERIOD)

/-- The data RAM banks of core `a` are copied into core `b` (R560). -/
def Dev.copyBanks (d : Dev) (a b : Nat) : Dev := d.setCore { d.core b with ram := (d.core a).ram }

/-- The device with an audit replaced. -/
def Dev.setAudit (d : Dev) (a : Audit) : Dev :=
  { d with slw := { d.slw with audits := d.slw.audits.map fun x => if x.unit = a.unit then a else x } }

/-- An audit has passed: releases go to the unit again, and the AUD operation ends (R559). -/
def Dev.handBack (d : Dev) (a : Audit) : Dev :=
  let d := match a.spare with
    | some s =>
      let d := if a.unit.kind = ukCore then d.copyBanks s a.unit.idx else d
      (d.setUnit a.unit { d.unit a.unit with audit := false, next := some a.unit.idx }).takeCalendar a.unit
    | none => d.setUnit a.unit { d.unit a.unit with audit := false, untested := false }
  let d := ((d.endAud a .done).bump Reg.slw_AUDITS_DONE).set Reg.slw_KIND_LAST_INDEX a.unit.idx [a.unit.kind]
  let d := d.set Reg.slw_KIND_LAST_RESULT 0 [a.unit.kind]
  { d with slw := { d.slw with
    lastAudit := (a.unit, d.tide) :: d.slw.lastAudit.filter fun x => x.1 != a.unit
    lateCounted := d.slw.lateCounted.filter (· != a.unit) } }

/-- An audit at a Tide boundary: the unit enters AUDIT once it has finished what it started, and the audit ends after
its last slice; a core takes its banks back once its spare runs nothing. -/
def Dev.auditStep (d : Dev) (a : Audit) : Dev :=
  let a := { a with sliced := false }
  if !a.entered then
    if d.busyUnit a.unit then d.setAudit a
    else (d.setUnit a.unit { d.unit a.unit with audit := true }).setAudit { a with entered := true }
  else if slicesOf a.unit.kind ≤ a.slice ∧ !(a.unit.kind == ukCore && a.spare.any fun s => d.busyUnit ⟨ukCore, s⟩) then
    d.handBack a
  else d.setAudit a

/-- The spares of a kind (of a pier) that carry nothing and run nothing, those that wait for their audit included. -/
def Dev.idleSpares (d : Dev) (u : UnitId) : List Nat :=
  let waiting := (d.slw.units.filter fun x => kindKey x.1 == kindKey u && x.2.untested).map (·.1.idx)
  (d.freeSpares u ++ waiting.filter fun i => d.unitFit ⟨u.kind, i⟩).filter fun i => !d.busyUnit ⟨u.kind, i⟩

/-- The units of a kind (of a pier) in the order of their audits: those AUDIT_NOW named, those that returned, then
ascending from the last one begun. -/
def Dev.auditOrder (d : Dev) (u : UnitId) : List Nat :=
  let all := (List.range (d.serviceCount u.kind) ++ d.bornSpares u.kind).filter fun i => kindKey ⟨u.kind, i⟩ == kindKey u
  let now := (d.slw.first.filter fun v => kindKey v == kindKey u).map (·.idx)
  let back := (d.slw.units.filter fun x => kindKey x.1 == kindKey u && x.2.untested).map (·.1.idx)
  match assoc? (kindKey u) d.slw.reached with
  | none => now ++ back ++ all
  | some r => now ++ back ++ all.filter (fun i => decide (r < i)) ++ all.filter fun i => decide (i ≤ r)

/-- Whether a unit's audit may begin: it executes its own calendar, or is an idle spare, and no audit of it runs. -/
def Dev.auditable (d : Dev) (u : UnitId) (idle : List Nat) : Bool :=
  d.unitFit u && !(d.unit u).mgmtRetired && !(d.slw.audits.any (·.unit == u)) && (idle.contains u.idx || d.home u == some u)

/-- An audit begins: the AUD operation takes its slot, and the spare the calendar. -/
def Dev.beginAudit (d : Dev) (u : UnitId) (spare : Option Nat) : Dev :=
  let (d, n) : Dev × Nat := d.draw
  match d.submitSlot 3 n with
  | none => d
  | some num =>
    let now : Inst := { count := 1, seq := 0, release := d.tide, deadline := d.tide, state := .running, engine := none }
    let desc : List Word := [BitVec.ofNat 32 0xBC000000, 0xFFFFFFFF] ++ List.replicate 14 0
    let slot : Slot := { num := num, order := d.wfg.order, owner := .tenant 0, desc := desc, tenant := 0,
                         submitTide := d.tide, inst := some now, nInst := 1 }
    let a : Audit := ⟨u, spare, 0, false, false, false, d.wfg.order⟩
    let d := { d with wfg := { d.wfg with slots := d.wfg.slots ++ [slot], order := d.wfg.order + 1 } }
    let key := kindKey u
    let wrap := match assoc? key d.slw.reached with
      | some r => decide (u.idx ≤ r) && !d.slw.first.contains u
      | none => true
    let d := if wrap then
        let d := match assoc? key d.slw.cycleStart with
          | some t => d.set Reg.slw_KIND_LAST_CYCLE (d.tide - t) [u.kind]
          | none => d
        { d with slw := { d.slw with cycleStart := assocSet key d.tide d.slw.cycleStart } }
      else d
    let reached := if d.slw.first.contains u then d.slw.reached else assocSet key u.idx d.slw.reached
    let d := { d with slw := { d.slw with audits := d.slw.audits ++ [a], first := d.slw.first.filter (· != u), reached := reached } }
    match spare with
    | none => d
    | some s =>
      let d := if u.kind = ukCore then d.copyBanks u.idx s else d
      let v : UnitId := ⟨u.kind, s⟩
      (d.setUnit v { d.unit v with carries := some u.idx, forAudit := true }).setUnit u { d.unit u with carrier := some s }

/-- Audits of a kind (of a pier) begin while a spare is idle; a core only while nothing runs on it (R560). -/
def Dev.newAudits (d : Dev) (u : UnitId) : Nat → Dev
  | 0 => d
  | k + 1 =>
    let idle := d.idleSpares u
    if idle.isEmpty then d
    else
      match (d.auditOrder u).find? fun i => d.auditable ⟨u.kind, i⟩ idle with
      | none => d
      | some i =>
        let v : UnitId := ⟨u.kind, i⟩
        if idle.contains i then (d.beginAudit v none).newAudits u k
        else if u.kind = ukCore ∧ d.busyUnit v then d
        else
          match d.pick (d.freeSpares v |>.filter fun s => !d.busyUnit ⟨u.kind, s⟩) with
          | (d, some s) => (d.beginAudit v (some s)).newAudits u k
          | (d, none) => d

/-- AUDIT_SKIPPED of a kind (of a pier) whose spares all carry for faults, once per AUDIT_PERIOD (R565). -/
def Dev.auditSkip (d : Dev) (u : UnitId) : Dev :=
  let key := kindKey u
  if !(d.freeSpares u).isEmpty ∨ (d.slw.audits.any fun a => kindKey a.unit == key) then d
  else if (assoc? key d.slw.skippedAt).any fun t => decide (d.tide < t + d.auditPeriod) then d
  else { d with slw := { d.slw with skippedAt := assocSet key d.tide d.slw.skippedAt } }.bump Reg.slw_AUDIT_SKIPPED

/-- One unit of each kind, and of each pier's cores, that may be audited. -/
def Dev.auditKinds (d : Dev) : List UnitId :=
  (([0, 1, 2, 3, 4, 7, 8, 9, 0xA, 0xC, 0xD].map fun k => (⟨k, 0⟩ : UnitId)) ++
    ((List.range 8).map fun n => (⟨ukCore, 128 * n⟩ : UnitId)).filter d.unitExists).filter fun u => d.auditsOn u.kind

/-- Step 6 of R50. While PD24 is off no audit runs, and the time does not count (R607). -/
def Dev.auditBoundary (d : Dev) : Dev :=
  if !d.live slwPage then
    { d with slw := { d.slw with lastAudit := d.slw.lastAudit.map fun (x : UnitId × Nat) => (x.1, x.2 + 1) } }
  else
    let d := d.slw.audits.foldl Dev.auditStep d
    d.auditKinds.foldl (fun d u => (d.auditSkip u).newAudits u ((d.idleSpares u).length)) d

/-- An audit fails for good: the unit reports FAULT and the spare keeps the calendar; a unit that was to return as a
spare is RETIRED (R562, R564). -/
def Dev.auditFails (d : Dev) (a : Audit) (signature : Nat) : Dev :=
  let u := a.unit
  let d := d.endAud a .failedUnitFault
  let x := d.unit u
  let d := if x.untested then d else d.faultEvent u
  let d := d.setUnit u (if x.untested then { x with audit := false, untested := false, retired := true }
    else { x with audit := false, fault := true, softReset := false })
  let d := match a.spare with
    | some s =>
      let d := d.setUnit ⟨u.kind, s⟩ { d.unit ⟨u.kind, s⟩ with forAudit := false }
      if (d.freeSpares u).isEmpty then d.raise slwPage 3 else d
    | none => d
  let d := (d.bump Reg.slw_AUDIT_FAIL).raiseLog slwPage 0
    (detail := leBytes 1 u.kind ++ leBytes 2 u.idx ++ leBytes 1 a.slice ++ leBytes 8 signature)
  (d.set Reg.slw_KIND_LAST_INDEX u.idx [u.kind]).set Reg.slw_KIND_LAST_RESULT 1 [u.kind]

/-- AUDIT_SLICE: the slice of this Tide has run on a unit under audit (R559, R562). -/
def Dev.auditSlice (d : Dev) (kind index : Nat) (ok : Bool) (signature : Nat) : Dev :=
  let u : UnitId := ⟨kind, index⟩
  match d.slw.audits.find? (·.unit == u) with
  | none => d
  | some a =>
    if !d.live slwPage || !a.entered || a.sliced || decide (slicesOf kind ≤ a.slice) then d
    else if ok then
      let d := if a.retry then
        (d.bump Reg.slw_AUDIT_FLAKY).raiseLog slwPage 7
          (detail := leBytes 1 kind ++ leBytes 2 index ++ leBytes 1 a.slice ++ leBytes 8 signature)
        else d
      d.setAudit { a with slice := a.slice + 1, retry := false, sliced := true }
    else if a.retry then d.auditFails a signature
    else d.setAudit { a with retry := true, sliced := true }

/-- AUDIT_LATE (R564): counted once for a unit whose last audit is AUDIT_PERIOD Tides past. -/
def Dev.auditLate (d : Dev) (kind index : Nat) : Dev :=
  let u : UnitId := ⟨kind, index⟩
  match (d.slw.lastAudit.find? (·.1 == u)).map (·.2) with
  | none => d
  | some t =>
    if !d.live slwPage ∨ d.tide ≤ t + d.auditPeriod ∨ d.slw.lateCounted.contains u then d
    else ({ d with slw := { d.slw with lateCounted := u :: d.slw.lateCounted } }.bump Reg.slw_AUDIT_LATE).raise slwPage 2

/-- A Tide break moves what the Slipway keeps by Tide number; slices count Tides as they occur (R563). -/
def Dev.slwBreak (d : Dev) (f : Nat → Nat) : Dev :=
  let x := d.slw
  { d with slw := { x with
    lastAudit := x.lastAudit.map fun (y : UnitId × Nat) => (y.1, f y.2)
    cycleStart := x.cycleStart.map fun (y : Nat × Nat) => (y.1, f y.2)
    skippedAt := x.skippedAt.map fun (y : Nat × Nat) => (y.1, f y.2) } }

/-! ### Fuse records (R567) -/

/-- The number of ones of a word. -/
def ones (w : Word) : Nat := ((List.range 32).filter fun i => w.getLsbD i).length

/-- A word with bit 30 set to the even parity of the whole. -/
def withParity (w : Word) : Word :=
  let v := Word.withFld w 30 30 0
  Word.withFld v 30 30 (ones v % 2)

/-- A record of the fuses. -/
def fuseRecord (type kind index element : Nat) : Word :=
  withParity (BitVec.ofNat 32 (2 ^ 31 + type % 16 * 2 ^ 26 + kind % 16 * 2 ^ 22 + index % 2048 * 2 ^ 11 + element % 2048))

/-- Whether a record is valid and its parity holds. -/
def recordOk (w : Word) : Bool := Word.fld w 31 31 == 1 && ones w % 2 == 0

/-- The unit a record names. -/
def recordUnit (w : Word) : UnitId := ⟨Word.fld w 25 22, Word.fld w 21 11⟩

/-! ### Commands (R566, R568, R577) -/

/-- The result of a command. -/
def Dev.slwResult (d : Dev) (st : Status) : Dev :=
  ((d.set Reg.slw_CMD_BUSY 0).set Reg.slw_CMD_VALID 1).set Reg.slw_CMD_STATUS st.code

/-- RETIRE (R566): the unit is retired by management; an audit of it ends, and its spare keeps the calendar (R563). -/
def Dev.retire (d : Dev) (u : UnitId) : Dev :=
  if !d.unitExists u then d.slwResult .refusedNoUnit
  else
    let rec_ := fuseRecord 4 u.kind u.idx 0
    let d := match d.slw.audits.find? (·.unit == u) with
      | some a =>
        let d := (d.endAud a .cancelled).set Reg.slw_KIND_LAST_RESULT 2 [u.kind]
        let d := d.setUnit u { d.unit u with audit := false }
        match a.spare with
        | some s => d.setUnit ⟨u.kind, s⟩ { d.unit ⟨u.kind, s⟩ with forAudit := false }
        | none => d
      | none => d
    let d := d.setUnit u { d.unit u with mgmtRetired := true }
    let l := if d.slw.retirements.contains rec_ then d.slw.retirements else d.slw.retirements ++ [rec_]
    ({ d with slw := { d.slw with retirements := l } }).slwResult .done

/-- AUDIT_NOW: the unit goes to the head of its kind's order. -/
def Dev.auditNow (d : Dev) (u : UnitId) : Dev :=
  if !d.unitExists u then d.slwResult .refusedNoUnit
  else if !fieldKind u.kind then d.slwResult .refusedParam
  else ({ d with slw := { d.slw with first := u :: d.slw.first.filter (· != u) } }).slwResult .done

/-- A fuse command starts: it is refused without FSOURCE or room, and runs until FUSE_DONE (R568). -/
def Dev.fuseStart (d : Dev) (op : Nat) (bad : Bool) (ws : List Word) : Dev :=
  if !d.flag Reg.slw_FSOURCE_OK || bad then d.slwResult .refusedParam
  else ((({ d with slw := { d.slw with fuseCmd := some ⟨op, d.get Reg.slw_CMD_WORD, ws⟩ } }).set Reg.slw_FUSE_BUSY 1).set Reg.slw_CMD_BUSY 1).set
    Reg.slw_CMD_VALID 0

/-- GO of the Slipway's command registers. -/
def Dev.slwGo (f : Fuse) (d : Dev) : Dev :=
  let u : UnitId := ⟨d.get Reg.slw_CMD_KIND, d.get Reg.slw_CMD_INDEX⟩
  let word := d.get Reg.slw_CMD_WORD
  if !d.live slwPage then d
  else if d.flag Reg.slw_CMD_BUSY then d.log slwPage codeGoBusy
  else
    match d.get Reg.slw_CMD_OP with
    | 1 => d.retire u
    | 2 => d.auditNow u
    | 3 => d.fuseStart 3 (decide (128 < f.repairs.length + d.slw.soft.length)) d.slw.soft
    | 4 => d.fuseStart 4 (decide (32 < f.retires.length + d.slw.retirements.length)) d.slw.retirements
    | 5 => d.fuseStart 5 (assoc? word f.user).isSome [d.word (Reg.slw_CMD_DATA.addrAt [])]
    | 6 => (d.set Reg.slw_CMD_DATA ((assoc? word f.user).getD 0).toNat).slwResult .done
    | _ => d.slwResult .refusedParam

/-- A command as its registers and GO give it; `fsource` is the level at FSOURCE. -/
def Dev.slwCmd (f : Fuse) (d : Dev) (op kind index word data : Nat) (fsource : Bool) : Dev :=
  if !d.live slwPage then d
  else
    let d := d.set Reg.slw_FSOURCE_OK (bitOf fsource)
    let d := ((d.set Reg.slw_CMD_OP op).set Reg.slw_CMD_KIND kind).set Reg.slw_CMD_INDEX index
    ((d.set Reg.slw_CMD_WORD word).set Reg.slw_CMD_DATA data).slwGo f

/-- What a record or a provider word that reads back wrong holds: a free value, but for a record's parity, which fails. -/
def Dev.misburnt (d : Dev) (record : Bool) : Dev × Word :=
  let (d, n) : Dev × Nat := d.draw
  let w := BitVec.ofNat 32 n
  (d, if record then withParity w ^^^ 0x40000000 else w)

/-- The words as burnt: those numbered in `wrong` read back wrong. -/
def Dev.burnt (d : Dev) (record : Bool) (wrong : List Nat) : Nat → List Word → Dev × List (Word × Bool)
  | _, [] => (d, [])
  | i, w :: t =>
    let (d, v) : Dev × Word := if wrong.contains i then d.misburnt record else (d, w)
    let (d, l) : Dev × List (Word × Bool) := d.burnt record wrong (i + 1) t
    (d, (v, wrong.contains i) :: l)

/-- The fuses with words burnt by a fuse command: one-time programmable, the records after those in use, a provider word
only where none is written (R567, R568). -/
def Fuse.burn (f : Fuse) (op word : Nat) (ws : List Word) : Fuse :=
  match op with
  | 3 => { f with repairs := (f.repairs ++ ws).take (max 128 f.repairs.length) }
  | 4 => { f with retires := (f.retires ++ ws).take (max 32 f.retires.length) }
  | _ =>
    match ws with
    | w :: _ => if word < 32 ∧ (assoc? word f.user).isNone then { f with user := assocSet word w f.user } else f
    | [] => f

/-- FUSE_DONE: the records of the fuse command are burnt and read back (R568). -/
def Dev.fuseDone (f : Fuse) (d : Dev) (wrong : List Nat) : Fuse × Dev :=
  match d.slw.fuseCmd with
  | none => (f, d)
  | some ⟨op, word, ws⟩ =>
    let (d, l) : Dev × List (Word × Bool) := d.burnt (op != 5) wrong 0 ws
    let bad := l.filter (·.2)
    let left := ((List.range ws.length).filter wrong.contains).map (wordAt ws)
    let f := f.burn op word (l.map (·.1))
    let d := match op with
      | 3 => { d with slw := { d.slw with soft := left } }.set Reg.slw_BOOT_SOFT_NEW left.length
      | 4 => { d with slw := { d.slw with retirements := left } }
      | _ => d
    let d := { d with slw := { d.slw with fuseCmd := none } }.set Reg.slw_FUSE_BUSY 0
    let d := ((d.set Reg.slw_REPAIR_USED f.repairs.length).set Reg.slw_RETIRE_USED f.retires.length).set Reg.slw_USER_USED f.user.length
    let d := (d.bump Reg.slw_FUSE_VERIFY_FAIL [] bad.length).raise slwPage 5
    (f, (if bad.isEmpty then d else d.raise slwPage 6).slwResult .done)

/-! ### Boot (R556, R557) -/

/-- A unit that cannot serve at start-up is mapped onto a free spare at once; an excess one is RETIRED, and an excess
Hold controller leaves its channel LOST. -/
def Dev.bootMap (d : Dev) (u : UnitId) (retired : Bool) : Dev × Bool :=
  let x := d.unit u
  if !d.unitExists u || x.fault || x.retired then (d, true)
  else
    let held := d.home u
    let d := d.setUnit u (if retired then { x with retired := true, mgmtRetired := true } else { x with fault := true })
    match held with
    | none => (d, true)
    | some h =>
      match d.pick (d.freeSpares h) with
      | (d, some s) =>
        let d := d.setUnit ⟨h.kind, s⟩ { d.unit ⟨h.kind, s⟩ with carries := some h.idx }
        ((d.setUnit h { d.unit h with next := some s }).takeCalendar h, true)
      | (d, none) =>
        if u.kind = ukHold then
          let d : Dev := { d with hold := { d.hold with lost := d.hold.lost ++ [u.idx] } }
          (d.set Reg.hld_CH_STATE 5 [u.idx], false)
        else (d.setUnit u { d.unit u with retired := true, lost := true }, false)

/-- Step 1 of R556: the valid records read from the fuses are applied. -/
def Dev.applyRecords_ (d : Dev) : Dev :=
  let units := (d.pwr.records.filter fun w => recordOk w && (Word.fld w 29 26 == 3 || Word.fld w 29 26 == 4)).map fun w =>
    (recordUnit w, Word.fld w 29 26 == 4)
  units.foldl (fun d x => (d.bootMap x.1 x.2).1) d

end Sys2Proof.Machine
end

