-- ==== Sys2Proof/Machine/Power.lean ====
section
/-!
DEFINITION. Power, clocks, reset and start-up (chapter 20): resets, the steps of start-up, power domains, the thermal
sensor, and Ebb mode.
-/

namespace Sys2Proof.Machine

/-- The Power controller page. -/
def pwrPage : Page := ⟨.pwr, 0⟩

/-- States of DEV_STATE (R599). -/
def devRun : Nat := 1
def devFault : Nat := 2
def devEbb : Nat := 3

/-- The start-up step reached. -/
def Dev.bootStep (d : Dev) : Nat := d.get Reg.dev_STEP

/-! ### Domains (R603, R604, R608) -/

/-- Whether a domain has units that are present (R604, R617). -/
def Dev.domainPresent (d : Dev) (k : Nat) : Bool :=
  decide (1 ≤ k) && decide (k ≤ 24) && !(d.half && [4, 5, 11, 12, 13, 14, 22].contains k) && !(k == 6 && !d.twin)

/-- The domains that are present. -/
def Dev.domains (d : Dev) : List Nat := ((List.range 24).map (· + 1)).filter d.domainPresent

/-- A number with a bit set for each domain given, as PWR_DOM_EN holds them. -/
def domainBits (l : List Nat) : Nat := l.foldl (fun n k => putBits n (k - 1) (k - 1) 1) 0

/-- A domain's bit of PWR_DOM_EN. -/
def Dev.domainEn (d : Dev) (k : Nat) : Bool := bitAt (d.get Reg.pwr_PWR_DOM_EN) (k - 1)

/-- A domain's bit of PWR_DOM_EN, set or cleared. -/
def Dev.setDomainEn (d : Dev) (k : Nat) (on : Bool) : Dev :=
  d.set Reg.pwr_PWR_DOM_EN (putBits (d.get Reg.pwr_PWR_DOM_EN) (k - 1) (k - 1) (bitOf on))

/-- A domain's bit of PWR_DOM_STAT, set or cleared; the domain has changed. -/
def Dev.setDomainOn (d : Dev) (k : Nat) (on : Bool) : Dev :=
  if d.domainOn k = on then d
  else (d.set Reg.pwr_PWR_DOM_STAT (putBits (d.get Reg.pwr_PWR_DOM_STAT) (k - 1) (k - 1) (bitOf on))).raise pwrPage 0

/-- Every domain that is present and enabled has power. -/
def Dev.powerEnabled (d : Dev) : Dev := d.set Reg.pwr_PWR_DOM_STAT (domainBits (d.domains.filter d.domainEn))

/-- Whether a register keeps what it reports although its domain is off: what boot and audits found, and the wrapping keys,
which are in AON. -/
def keptReport (p : Page) (f : RegField) : Bool :=
  p.kind == .slw || (p.kind == .bnd && (f.addr == Reg.bnd_SLOT_SET.addr || f.addr == Reg.bnd_WRAP_KCV.addr))

/-- The word a register returns with when its domain had no power (R608): RW and ST fields keep their value. -/
def keptWord (p : Page) (a : Nat) (w : Word) : Word :=
  (fieldsAt a).foldl (fun v f =>
    if f.acc = .rw ∨ f.acc = .st ∨ (f.acc = .ro ∧ keptReport p f = true) then Word.withFld v f.hi f.lo (Word.fld w f.hi f.lo) else v) (resetWord a)

/-- The registers of a domain without power. -/
def Dev.loseRegs (d : Dev) (k : Nat) : Dev :=
  let regs : RegFile := d.regs.foldl (fun r x =>
    match pageAt x.1 with
    | some p => if pageDomain p = k then RegFile.put r x.1 (keptWord p x.1 x.2) else r
    | none => r) d.regs
  let staged := d.staged.filter fun s => match pageAt s.addr with
    | some p => pageDomain p != k
    | none => false
  { d with regs := regs, staged := staged }

/-- What runs on the units of a domain fails. -/
def Dev.domainFails (d : Dev) (k : Nat) : Dev :=
  let cores := (d.rkn.cores.filter fun c => !c.ops.isEmpty && pageDomain (coreUnit c.num).page == k).map (·.num)
  let d := cores.foldl Dev.coreFails d
  let orders := (d.instances.filter fun x => x.2.engine.any fun u => u.kind != ukCore && pageDomain u.page == k).map (·.1.order)
  orders.foldl (fun (d : Dev) o =>
    match d.slotByOrder o with
    | some s => d.failInst s
    | none => d) d

/-- What a Quay held. -/
def Dev.quayLoss (d : Dev) (q : Nat) : Dev :=
  { d with qay := { d.qay with
    ports := d.qay.ports.filter fun p => p.lport / 4 != q
    stamps := d.qay.stamps.filter fun s => s.1 != q } }

/-- What a pier held. -/
def Dev.pierLoss (d : Dev) (n : Nat) : Dev :=
  { d with rkn := { d.rkn with
    images := assocDel n d.rkn.images
    loading := d.rkn.loading.filter (· != n)
    cores := d.rkn.cores.filter fun c => (coreUnit c.num).pier != n
    rams := assocDel n d.rkn.rams
    stores := assocDel n d.rkn.stores } }

/-- What the Abacus was working on; its records stay. -/
def Dev.abxLoss (d : Dev) : Dev :=
  let x := d.abx
  { d with abx := { x with
    basins := x.basins.map fun (b : Nat × Basin) => (b.1, { b.2 with slots := [], swaps := [] })
    inputs := x.inputs.map fun (i : Nat × Input) => (i.1, { i.2 with ring := [], fill := [], block := [], energies := [], peaks := [] })
    mixes := x.mixes.map fun (m : Nat × Mix) => (m.1, ({ args := m.2.args } : Mix))
    paths := x.paths.map fun (p : Nat × DressPath) => (p.1, ({ params := p.2.params } : DressPath))
    held := []
    staged := []
    dressSilent := []
    dressLost := [] } }

/-- What the audio ports and the essence flows held. -/
def Dev.audioLoss (d : Dev) : Dev :=
  { d with
    apu := { d.apu with mons := [], members := [], good := [], blocks := [] }
    ess := { rings := [], blocks := [], sent := [] }
    cmp := { d.cmp with rx := [], tx := [] } }

/-- What the Ferry and the Tally were working on; routes, groups, fan lists and nodes stay. -/
def Dev.ferryLoss (d : Dev) : Dev :=
  let idle := fun (x : Nat × TallyNode) => (x.1, { x.2 with credit := 0, fifo := [] })
  { d with
    fry := { d.fry with
      sources := []
      fans := d.fry.fans.map fun (f : FanList) => { f with fifo := [], launched := none }
      launches := []
      staged := []
      used := []
      waiting := []
      srSent := [] }
    tly := { d.tly with
      ports := []
      subs := d.tly.subs.map idle
      svcs := d.tly.svcs.map idle
      robin := []
      staged := [] } }

/-- What the Breakwater held; the policers' settings stay. -/
def Dev.bwrLoss (d : Dev) : Dev :=
  { d with bwr := {
    policers := d.bwr.policers.map fun (p : Nat × Policer) => (p.1, { p.2 with tokens := 0 })
    kfr := []
    kfrSent := 0
    stunUsed := 0
    swept := []
    frames := d.bwr.frames } }

/-- The Slipway, the gauges and the Link Fault Injector go off: audits end. -/
def Dev.slwLoss (d : Dev) : Dev :=
  { d.slw.audits.foldl Dev.abortAudit d with tgg := {}, lfi := {} }

/-- What the Wharfinger, the Ledger and the BTC were working on. -/
def Dev.dispatchLoss (d : Dev) : Dev :=
  { d with
    wfg := { d.wfg with queues := [], stalled := [], ran := [] }
    btc := { d.btc with staged := [], dirty := [], frames := [] } }

/-- A domain goes off: its units' work and what R608 names are lost. -/
def Dev.domainLoss (d : Dev) (k : Nat) : Dev :=
  let d := d.domainFails k
  let d := match k with
    | 2 | 3 | 4 | 5 => d.quayLoss (k - 2)
    | 6 => { d with mrg := Mooring.fresh }
    | 7 | 8 | 9 | 10 | 11 | 12 | 13 | 14 => d.pierLoss (k - 7)
    | 16 => d.abxLoss
    | 17 => d.audioLoss
    | 19 => d.ferryLoss
    | 20 => d.bwrLoss
    | 23 => d.dispatchLoss
    | 24 => d.slwLoss
    | _ => d
  d.loseRegs k

/-- Whether a write of 0 to a domain's bit is refused (R605). -/
def Dev.domainHeld (d : Dev) (k : Nat) : Bool :=
  (d.ldg.adms.any fun a => match a.kind with
    | .reserve r => decide (2 ≤ k) && r.lport / 4 == k - 2 && decide (k < 6)
    | _ => false) ||
  (d.wfg.slots.any fun s => s.admitted && !s.detached && s.engine.any fun u =>
    pageDomain u.page == k || pageDomain (d.executor u).page == k) ||
  (decide (16 ≤ k) && decide (k ≤ 20) && d.stateCount stLive != 0) ||
  (k == 6 && d.role != roleSolo)

/-- PWR_DOM_EN_WRITE, one bit of it (R603–R606). -/
def Dev.domainWrite (d : Dev) (w : Word) (k : Nat) : Dev :=
  let want := Word.fld w k k == 1
  let a := Reg.pwr_PWR_DOM_EN.addrAt []
  if !d.domainPresent k || want == d.domainEn k then d
  else if [1, 21, 22, 23].contains k then d.logIgnored pwrPage a
  else if want then
    let d := d.setDomainEn k true
    if d.get Reg.dev_DEV_STATE = devEbb ∨ d.pwr.turningOn.contains k then d
    else { d with pwr := { d.pwr with turningOn := d.pwr.turningOn ++ [k] } }
  else if d.domainHeld k then (d.bump Reg.pwr_DOM_REFUSED).logIgnored pwrPage a
  else
    let d := d.setDomainEn k false
    let d := { d with pwr := { d.pwr with turningOn := d.pwr.turningOn.filter (· != k) } }
    if d.domainOn k then (d.domainLoss k).setDomainOn k false else d

/-- PWR_DOM_EN_WRITE. -/
def Dev.domEnWrite (d : Dev) (w : Word) : Dev := ((List.range 24).map (· + 1)).foldl (fun d k => d.domainWrite w k) d

/-- DOMAIN_ON_DONE: a domain being switched on has power again, its repairs as the repair map has them (R606). -/
def Dev.domainOnDone (d : Dev) (k : Nat) : Dev :=
  if d.pwr.turningOn.contains k then
    { d with pwr := { d.pwr with turningOn := d.pwr.turningOn.filter (· != k) } }.setDomainOn k true
  else d

/-! ### Resets (R615–R618) -/

/-- What the fuses and the straps fix in registers: the variant and the die, the domains present, the map of usable Hold,
and the fuse records in use (R514, R599, R604, R617). -/
def Dev.fixedRegs (d : Dev) (f : Fuse) : Dev :=
  let code := match d.variant with
    | .spt8832 => 1
    | .spt8816 => 2
    | .spt8808a => 3
  let d := (d.set Reg.dev_VARIANT code).set64 Reg.dev_DIE_ID_LO Reg.dev_DIE_ID_HI f.dieId
  let d := ((d.set Reg.hld_USABLE_MIB d.usableMib).set Reg.hld_REG_VALID 1 [0]).set Reg.hld_REG_SIZE d.usableMib [0]
  let d := d.set Reg.hld_REG_CH_COUNT_LOG2 (if d.half then 5 else 6) [0]
  ((d.set Reg.slw_REPAIR_USED f.repairs.length).set Reg.slw_RETIRE_USED f.retires.length).set Reg.slw_USER_USED f.user.length

/-- The registers that every reset but a power reset keeps: those of the always-on domain, and what the Bond reports of the
wrapping keys. -/
def keptRegs (r : RegFile) : RegFile := r.filter fun x =>
  Reg.bnd_SLOT_SET.hits x.1 || Reg.bnd_WRAP_KCV.hits x.1 || match pageAt x.1 with
    | some p => pageDomain p == 0
    | none => false

/-- Every domain but AON is reset: device time, Tide numbering, the wrapping keys and the repair map are kept, and the fabric
PLL is locked again (R613, R615). -/
def Dev.keepAon (d : Dev) (f : Fuse) : Dev :=
  let x := Dev.fresh d.variant
  let x := { x with
    regs := keptRegs d.regs
    staged := d.staged.filter fun s => match pageAt s.addr with
      | some p => pageDomain p == 0
      | none => false
    tk := d.tk
    bnd := { d.bnd with spent := [] }
    mrg := { Mooring.fresh with prevTide := d.mrg.prevTide }
    pwr := { pwrOk := d.pwr.pwrOk, perstN := d.pwr.perstN, tripped := d.pwr.tripped, repairMap := d.pwr.repairMap,
             records := d.pwr.records }
    free := d.free
    out := d.out }
  let x := x.set Reg.pwr_CLK_OK (putBits (x.get Reg.pwr_CLK_OK) 0 0 1)
  (x.fixedRegs f).powerEnabled

/-- RESET_CAUSE records the causes of this reset. -/
def Dev.cause (d : Dev) (c : Nat) : Dev := d.set Reg.pwr_RESET_CAUSE c

/-- PWR_OK_LOW: everything is cleared but the fuses (R615). After a trip RESET_CAUSE is kept. -/
def Dev.pwrOkLow (d : Dev) : Dev :=
  let x := Dev.fresh d.variant
  ({ x with free := d.free, out := d.out }).cause (if d.pwr.tripped then d.get Reg.pwr_RESET_CAUSE else 1)

/-- PWR_OK_RISE: the straps are sampled, and step 1 starts (R617). -/
def Dev.pwrOkRise (d : Dev) (straps : Nat) : Dev :=
  if d.pwr.pwrOk then d
  else { d with pwr := { d.pwr with pwrOk := true } }.set Reg.pwr_STRAPS (straps % 16)

/-- FABRIC_PLL_LOCK: the fuses are read, the fabric PLL is locked, and step 1 ends (R619). -/
def Dev.fabricPllLock (f : Fuse) (d : Dev) : Dev :=
  if !d.pwr.pwrOk || d.bootStep != 1 || d.pwr.tripped then d
  else
    let d := { d with variant := f.variant, pwr := { d.pwr with records := (f.repairs ++ f.retires).filter recordOk } }
    let d := d.fixedRegs f
    let d := d.set Reg.pwr_PWR_DOM_EN (domainBits d.domains)
    let d := (d.powerEnabled.raise pwrPage 0).set Reg.pwr_CLK_OK (0b10111 + 8 * bitOf d.pwr.perstN)
    d.set Reg.dev_STEP (if d.pwr.perstN then 3 else 2)

/-- PERST_N rises: the PCIe link comes up at a speed and width, ending step 2 (R619). -/
def Dev.perstDeassert (d : Dev) (speed width : Nat) : Dev :=
  if d.pwr.perstN || !d.pwr.pwrOk || d.pwr.tripped then d
  else
    let d := { d with pwr := { d.pwr with perstN := true } }
    let d := d.set Reg.pwr_CLK_OK (putBits (d.get Reg.pwr_CLK_OK) 3 3 1)
    let d := (d.set Reg.gwy_LINK_SPEED speed).set Reg.gwy_LINK_WIDTH width
    if d.bootStep = 2 then d.set Reg.dev_STEP 3 else d

/-- PERST_N falls: outputs close, and every domain but AON is reset (R615, R618). -/
def Dev.perstAssert (f : Fuse) (d : Dev) : Dev :=
  if !d.pwr.perstN then d
  else
    let d := { d with pwr := { d.pwr with perstN := false } }
    let d := d.set Reg.pwr_CLK_OK (putBits (d.get Reg.pwr_CLK_OK) 3 3 0)
    if d.pwr.tripped || !d.pwr.pwrOk || d.bootStep == 1 then d
    else ((d.keepAon f).cause 4).set Reg.dev_STEP 2

/-- DEVICE_RESET: as PERST, but the PCIe link and configuration space are kept (R615). -/
def Dev.deviceReset (f : Fuse) (d : Dev) : Dev :=
  if d.pwr.tripped || !d.pwr.pwrOk || d.bootStep == 1 then d
  else
    let x := ((d.keepAon f).cause 8).set Reg.gwy_LINK_SPEED (d.get Reg.gwy_LINK_SPEED)
    (x.set Reg.gwy_LINK_WIDTH (d.get Reg.gwy_LINK_WIDTH)).set Reg.dev_STEP (if d.pwr.perstN then 3 else 2)

/-! ### Clocks (R612, R613) -/

/-- A bit of CLK_OK, set or cleared. -/
def Dev.setClkOk (d : Dev) (i : Nat) (ok : Bool) : Dev := d.set Reg.pwr_CLK_OK (putBits (d.get Reg.pwr_CLK_OK) i i (bitOf ok))

/-- ALERT_N driven low, or released. -/
def Dev.alert (d : Dev) (low : Bool) : Dev := { d with pwr := { d.pwr with alertLow := low } }

/-- PLL_UNLOCK (R613). -/
def Dev.pllUnlock (d : Dev) : Dev :=
  if d.clkOk 0 then (((d.setClkOk 0 false).set Reg.dev_DEV_STATE devFault).raise pwrPage 5).alert true else d

/-- REFCLK_LOSS: QREFCLK i stops, and the links it serves go down (R612, R613). -/
def Dev.refclkLoss (d : Dev) (i : Nat) : Dev :=
  if 2 ≤ i ∨ d.clkOk (1 + i) = false then d
  else
    let d := ((d.setClkOk (1 + i) false).quayLinksDown (2 * i)).quayLinksDown (2 * i + 1)
    (if i = 0 then d.mrgLinkChange false else d).raise pwrPage 6

/-- REFCLK_RETURN: QREFCLK i runs again; the links train. -/
def Dev.refclkReturn (d : Dev) (i : Nat) : Dev :=
  if 2 ≤ i ∨ !d.pwr.pwrOk ∨ d.bootStep = 1 then d else d.setClkOk (1 + i) true

/-! ### Temperature (R614, R616) -/

/-- A thermal trip: THERM_TRIP_N goes low and every domain but AON off (R616). -/
def Dev.thermalTrip (f : Fuse) (d : Dev) : Dev :=
  let d := (({ d with pwr := { d.pwr with tripped := true } }).keepAon f).set Reg.pwr_PWR_DOM_STAT 0
  ((d.set Reg.dev_STEP 1).raise pwrPage 0).cause 2

/-- THERMAL_SAMPLE: the hottest sensor, in 0.125 °C. -/
def Dev.thermalSample (f : Fuse) (d : Dev) (temp : Int) : Dev :=
  if !d.pwr.pwrOk || d.pwr.tripped then d
  else
    let t := clampI (-32768) 32767 temp
    let d := d.set Reg.pwr_TEMP (ofSigned 16 t)
    let top := toSigned 16 (d.get Reg.pwr_TEMP_MAX)
    let d := if top < t then d.set Reg.pwr_TEMP_MAX (ofSigned 16 t) else d
    let warn : Int := clampN 70 110 (d.get Reg.pwr_WARN_C)
    let hyst : Int := clampN 1 20 (d.get Reg.pwr_HYST_C)
    let hot := (List.range d.channels).any fun c => d.get Reg.hld_CH_REFRESH_MULT [c] == 2
    if 920 ≤ t then d.thermalTrip f
    else if 8 * warn ≤ t ∨ hot = true then
      let was := d.flag Reg.ldg_THERMAL_WARN
      let d := (d.set Reg.ldg_THERMAL_WARN 1).alert true
      if was then d else d.raise pwrPage 1
    else if t < 8 * (warn - hyst) ∧ d.flag Reg.ldg_THERMAL_WARN = true then
      let d := (d.set Reg.ldg_THERMAL_WARN 0).raise pwrPage 2
      if d.get Reg.dev_DEV_STATE = devFault then d else d.alert false
    else d

/-! ### Start-up (R619–R621) -/

/-- A step fails: start-up stops. -/
def Dev.bootFail (d : Dev) (step : Nat) : Dev :=
  ((d.set Reg.dev_DEV_STATE devFault).set Reg.pwr_FAIL_STEP step).raise pwrPage 7

/-- Whether start-up has stopped at a failed step. -/
def Dev.bootStopped (d : Dev) : Bool := d.get Reg.dev_DEV_STATE == devFault

/-- The result of an OP of the Power controller. -/
def Dev.pwrResult (d : Dev) (st : Status) : Dev := (d.set Reg.pwr_CMD_STATUS st.code).set Reg.pwr_CMD_BUSY 0

/-- The state of every present channel, but for those that are lost. -/
def Dev.setChannels (d : Dev) (st : Nat → Nat) : Dev :=
  (List.range d.channels).foldl (fun d c => if d.hold.lost.contains c then d else d.set Reg.hld_CH_STATE (st c) [c]) d

/-- BOOT_GO (R619): step 3 ends, and Hold's training starts. -/
def Dev.bootGo (d : Dev) : Dev :=
  if !d.pwr.pwrOk || d.pwr.tripped then d
  else if d.bootStep ≠ 3 ∨ d.bootStopped = true then d.pwrResult .refusedParam
  else if d.flag Reg.hld_REGION_BAD then (d.pwrResult .done).bootFail 3
  else
    let d := ({ d with pwr := { d.pwr with bootAt := some d.ns } }).setChannels fun _ => 1
    (d.set Reg.dev_STEP 4).pwrResult .done

/-- HOLD_TRAIN_DONE: training ends, and zeroing begins, or step 4 fails. -/
def Dev.holdTrainDone (d : Dev) (ok : Bool) : Dev :=
  if d.bootStep ≠ 4 ∨ d.bootStopped = true ∨ d.flag Reg.hld_TRAINED = true then d
  else if ok then (d.set Reg.hld_TRAINED 1).setChannels fun _ => 2
  else d.bootFail 4

/-- INIT_DONE: all usable Hold is zeroed, at start-up or after a wake from Ebb mode (R516, R522). -/
def Dev.initDone (d : Dev) : Dev :=
  if d.flag Reg.hld_INIT_DONE ∨ d.flag Reg.hld_TRAINED = false ∨ d.bootStopped = true then d
  else if d.bootStep = 4 then
    let d : Dev := { d with hold := { d.hold with cells := [], poison := [], poisonLogged := [], bad := [], away := {} } }
    ((d.set Reg.hld_INIT_DONE 1).set Reg.dev_STEP 5).raise hldPage 5
  else if 5 < d.bootStep ∧ d.get Reg.dev_DEV_STATE ≠ devEbb then
    let d : Dev := { d with hold := { d.hold with unzeroed := [] } }
    (d.set Reg.hld_INIT_DONE 1).raise hldPage 5
  else d

/-- Whether a pier that is present has its image (R619). -/
def Dev.piersLoaded (d : Dev) : List Bool := ((List.range 8).filter d.pierPresent).map fun n => d.flag Reg.rkn_LOADED [n]

/-- Step 6 ends once every present pier is LOADED (R619). -/
def Dev.step6Check (d : Dev) : Dev :=
  if d.bootStep = 6 ∧ d.bootStopped = false ∧ (d.piersLoaded.all id) = true then d.set Reg.dev_STEP 7 else d

/-- STEP6_TIMEOUT: BOOT_GO + 1 s has come and no present pier is LOADED (R620). -/
def Dev.step6Timeout (d : Dev) : Dev :=
  match d.pwr.bootAt with
  | none => d
  | some t =>
    if d.bootStep = 6 ∧ d.bootStopped = false ∧ t + 1000000000 ≤ d.ns ∧ (d.piersLoaded.any id) = false then d.set Reg.dev_STEP 7
    else d

/-- BOOT_SELFTEST_DONE: the fuse records are applied, failing arrays and units repaired, and step 5 ends (R556, R557). -/
def Dev.selftestDone (d : Dev) (r : BootReport) : Dev :=
  if d.bootStep ≠ 5 ∨ d.bootStopped = true ∨ d.flag Reg.slw_BOOT_DONE = true then d
  else
    let d := d.applyRecords_
    let bad := r.unrepairable || r.failing.any fun u => u.1 == 0xF
    let failing := (r.failing.map fun u => (⟨u.1, u.2⟩ : UnitId)).filter fun u => d.unitExists u && !(d.unit u).fault && !(d.unit u).retired
    let (d, short) : Dev × Bool := failing.foldl (fun (x : Dev × Bool) u =>
      let (d, ok) : Dev × Bool := x.1.bootMap u false
      (d, x.2 || !ok)) (d, false)
    let soft := (r.arrays ++ failing.map fun u => fuseRecord 3 u.kind u.idx 0).filter fun w => !d.pwr.records.contains w
    let d := { d with slw := { d.slw with soft := soft }, pwr := { d.pwr with repairMap := soft } }
    let d := (d.set Reg.slw_BOOT_DONE 1).set Reg.slw_BOOT_SOFT_NEW soft.length
    let d := if short then (d.set Reg.slw_BOOT_SHORT 1).raise slwPage 4 else d
    if bad then d.bootFail 5 else ((d.set Reg.slw_BOOT_PASS 1).set Reg.dev_STEP 6).step6Check

/-- Steps 7 to 9 at a Tide boundary: numbering is anchored, the Ledger publishes, and the device runs (R619). -/
def Dev.bootBoundary (d : Dev) : Dev :=
  if d.bootStep = 7 ∧ d.bootStopped = false ∧ d.flag Reg.tkp_ANCHORED = true then
    ((d.set Reg.dev_STEP 8).publish.set Reg.dev_STEP 9).set Reg.dev_DEV_STATE devRun
  else d

/-! ### Ebb mode (R622–R624) -/

/-- Whether EBB_ENTER is refused (R622). -/
def Dev.ebbRefused (d : Dev) : Bool :=
  d.get Reg.dev_DEV_STATE != devRun || !d.ldg.adms.isEmpty || d.wfg.slots.any (fun s => !s.admitted) || d.pinUsed != 0 ||
    d.role != roleSolo || d.get Reg.hld_EBB_KEEP == 0

/-- EBB_ENTER (R622): queues are flushed and the BTC writes back; the device then powers down. -/
def Dev.ebbEnter (d : Dev) : Dev :=
  if !d.pwr.pwrOk || d.pwr.tripped then d
  else if d.flag Reg.pwr_CMD_BUSY then d.log pwrPage codeGoBusy
  else if d.ebbRefused then d.pwrResult .refusedParam
  else
    let d := (d.wfg.queues.map (·.num)).foldl Dev.flushQueue d
    let d := { d.writeBack with pwr := { d.pwr with entering := true, wakeHeld := false } }
    d.set Reg.pwr_CMD_BUSY 1

/-- Whether a place of Hold keeps its data in Ebb mode (R521). -/
def Dev.eighthKept (d : Dev) (ch loc : Nat) : Bool := decide (ch < 32) && bitAt (d.get Reg.hld_EBB_KEEP) (eighthOf loc)

/-- Whether a Hold address keeps its data in Ebb mode (R521). -/
def Dev.ebbKeeps (d : Dev) (a : Nat) : Bool :=
  match spotUnder d.hold.map a with
  | some p => d.eighthKept (p / (1792 * mib)) (p % (1792 * mib))
  | none => false

/-- The tables that lie in Hold keep what lies in kept eighths. -/
def Dev.ebbDrop (d : Dev) : Dev :=
  let keep := d.ebbKeeps
  let spot (p : Nat) : Bool := d.eighthKept (p / (1792 * mib)) (p % (1792 * mib))
  let row := fun (x : Nat × Row) =>
    (x.1, ({ words := if keep (d.rowAddr x.1) then x.2.words else Row.zero.words,
             annex := if keep (d.annexAddr x.1) then x.2.annex else Row.zero.annex } : Row))
  let route := d.get Reg.fry_ROUTE_BASE * 65536
  let group := d.get Reg.fry_GROUP_BASE * 65536
  { d with
    hold := { d.hold with
      cells := d.hold.cells.filter fun c => keep c.1
      poison := d.hold.poison.filter keep
      poisonLogged := d.hold.poisonLogged.filter keep
      bad := d.hold.bad.filter fun x => keep x.1
      away := ⟨d.hold.away.cells.filter fun c => spot c.1, d.hold.away.poison.filter spot, d.hold.away.poisonLogged.filter spot,
        d.hold.away.bad.filter fun x => spot x.1⟩
      unzeroed := (List.range d.channels).flatMap fun c => ((List.range 8).filter fun e =>
        !(decide (c < 32) && bitAt (d.get Reg.hld_EBB_KEEP) e)).map fun e => (c, e) }
    btc := { d.btc with rows := (d.btc.rows.map row).filter fun x => x.2 != Row.zero }
    bnd := { d.bnd with spent := d.bnd.spent.filter fun b => keep (d.rowAddr b) }
    fry := { d.fry with
      routes := d.fry.routes.filter fun x => keep (route + 16 * x.1)
      streams := d.fry.streams.filter fun x => keep (group + 128 * (x.1 / 16) + 8 * (x.1 % 16))
      recs := d.fry.recs.filter fun x => keep (group + 2097152 + 65536 * x.2.group) }
    dec := { d.dec with ctxs := d.dec.ctxs.filter fun x => keep (d.decCtxAddr x.1) }
    enc := { svys := d.enc.svys.filter fun x => keep (d.svyAddr x.1), tails := d.enc.tails.filter fun x => keep (d.tailAddr x.1) }
    cmp := { d.cmp with views := d.cmp.views.filter fun x => keep (d.viewAddr x.1) } }

/-- A wake begins. -/
def Dev.wake (d : Dev) : Dev :=
  ({ d with pwr := { d.pwr with waking := true, wakeHeld := false } }).set Reg.pwr_CMD_BUSY 1

/-- EBB_ENTERED: every domain but AON, PD1 and PD21 is off, and DEV_STATE reads EBB (R622, R623). -/
def Dev.ebbEntered (d : Dev) : Dev :=
  if !d.pwr.entering then d
  else
    let off := (d.domains.filter fun k => k != 1 && k != 21).filter d.domainOn
    let d := off.foldl (fun (d : Dev) k => (d.domainLoss k).setDomainOn k false) d.ebbDrop
    let d := d.setChannels fun c => if c < 32 then 4 else 0
    let d := { d with pwr := { d.pwr with entering := false, turningOn := [] } }
    let d := (((d.set Reg.hld_INIT_DONE 0).set Reg.dev_DEV_STATE devEbb).pwrResult .done).raise pwrPage 3
    let d := if d.selects 0 ∧ d.srcOk 0 = true then d.srcLost 0 else d
    if d.pwr.wakeHeld then d.wake else d

/-- EBB_WAKE (R624): while entry is in progress it is held. -/
def Dev.ebbWake (d : Dev) : Dev :=
  if !d.pwr.pwrOk || d.pwr.tripped || d.pwr.waking then d
  else if d.pwr.entering then { d with pwr := { d.pwr with wakeHeld := true } }
  else if d.get Reg.dev_DEV_STATE = devEbb then d.wake
  else d.pwrResult .refusedParam

/-- A rising edge on TEVT_IN0 wakes the device from Ebb mode while WAKE_TEVT is 1 (R624). -/
def Dev.tevtWake (d : Dev) (input : Nat) (falling : Bool) (width : Nat) : Dev :=
  if input = 0 ∧ falling = false ∧ 20 ≤ width ∧ d.flag Reg.pwr_WAKE_TEVT = true ∧ d.get Reg.dev_DEV_STATE = devEbb ∧
      d.pwr.waking = false then d.wake
  else d

/-- EBB_WOKEN: the domains PWR_DOM_EN names are on, the channels trained, and DEV_STATE reads RUN (R624). -/
def Dev.ebbWoken (d : Dev) : Dev :=
  if !d.pwr.waking then d
  else
    let d := (d.domains.filter d.domainEn).foldl (fun (d : Dev) k => d.setDomainOn k true) d
    let d := (d.setChannels fun _ => 2).set Reg.dev_DEV_STATE devRun
    let d := { d with pwr := { d.pwr with waking := false } }
    (d.pwrResult .done).raise pwrPage 4

/-- A write of the OP word (R625). -/
def Dev.pwrOp (f : Fuse) (d : Dev) (op : Nat) : Dev :=
  match op with
  | 0 => d
  | 1 => d.bootGo
  | 2 => d.ebbEnter
  | 3 => d.ebbWake
  | 4 => d.deviceReset f
  | _ => d.pwrResult .refusedParam

end Sys2Proof.Machine
end

