-- ==== Sys2Proof/Machine/Boundary.lean ====
section
/-!
DEFINITION. The Tide boundary (R49, R50): what every unit does in the boundary cycle, in the order of R50, and what a Tide
break moves before it (R207).
-/

namespace Sys2Proof.Machine

/-! ### A Tide break (R207) -/

/-- A staged command moved with a Tide break. -/
def StagedWords.moved (s : StagedWords) (f : Nat → Nat) : StagedWords := { s with applyTide := f s.applyTide }

/-- The Berth Table's and the Ferry's Tides moved by `f`. -/
def Dev.transportBreak (d : Dev) (f : Nat → Nat) : Dev :=
  let btc := { d.btc with
    staged := d.btc.staged.map fun (s : StagedCmd) => { s with applyTide := f s.applyTide }
    drainSince := d.btc.drainSince.map fun (x : Nat × Nat) => (x.1, f x.2) }
  let fry := { d.fry with
    staged := d.fry.staged.map fun (s : StagedWords) => s.moved f
    fans := d.fry.fans.map fun (x : FanList) => { x with launched := x.launched.map f }
    segs := d.fry.segs.map fun (x : Segment) => { x with leaving := x.leaving.map fun (y : Nat × Nat) => (y.1, f y.2) }
    launches := d.fry.launches.map fun (x : Launch) => { x with tide := f x.tide } }
  { d with btc := btc, fry := fry }

/-- The Tally's Tides moved by `f`. -/
def Dev.tallyBreak (d : Dev) (f : Nat → Nat) : Dev :=
  let copy := fun (c : TallyCopy) => { c with since := f c.since }
  let tly := { d.tly with
    staged := d.tly.staged.map fun (s : StagedWords) => s.moved f
    svcs := d.tly.svcs.map fun (x : Nat × TallyNode) => (x.1, { x.2 with fifo := x.2.fifo.map copy }) }
  { d with tly := tly }

/-- The media pages' Tides moved by `f`. -/
def Dev.mediaBreak (d : Dev) (f : Nat → Nat) : Dev :=
  let member := fun (x : Member) => { x with rxAt := x.rxAt.map f, txAt := x.txAt.map f }
  let asm := fun (a : Assembler) => { a with since := f a.since % 2 ^ 32, doneTide := f a.doneTide }
  let mod := fun (m : PendMod) => { m with tide := f m.tide }
  let svy := fun (x : Nat × SvyCtx) => (x.1, { x.2 with pend := x.2.pend.map mod })
  let tail := fun (x : Nat × TailCtx) => (x.1, { x.2 with pend := x.2.pend.map mod })
  let layout := fun (y : StagedLayout) => { y with tide := f y.tide }
  let view := fun (x : Nat × View) => (x.1, { x.2 with staged := x.2.staged.map layout })
  { d with
    apu := { d.apu with members := d.apu.members.map member }
    dec := { d.dec with asms := d.dec.asms.map asm }
    enc := { d.enc with svys := d.enc.svys.map svy, tails := d.enc.tails.map tail }
    cmp := { d.cmp with views := d.cmp.views.map view } }

/-- A Tide break with this delta (R207): everything that waits for a Tide, or counts from one, keeps its distance; device time
has been set `shift` ns on. -/
def Dev.breakMoves (d : Dev) (delta shift : Int) : Dev :=
  let f := moved delta
  let d := (d.applyBreak delta).transportBreak f
  let d := ((d.tallyBreak f).mediaBreak f).abxBreak f
  let d := ((d.ledgerBreak f).slwBreak f).gateBreak delta
  (d.timersMoved shift).raise tkpPage 5

/-! ### The Tide begins -/

/-- The new Tide's number and device time, with the cancellations of anchoring (R199) or the moves of a break (R207). -/
def Dev.turnTide (d : Dev) : Dev :=
  let was : Dev := { d with tk := { d.tk with phase := d.tideEnd } }
  let n := d.nextTide
  let n := if was.tk.anchoring then n.applyCancelAll.raise tkpPage 0 else n
  match was.breakDelta, was.tk.brk with
  | some delta, some b => (n.breakMoves delta ((n.ns : Int) - was.ns)).note (.brk b.last b.next b.phase)
  | _, _ => n

/-- What the references and the audio clocks did in the ended Tide (R204, R368). -/
def Dev.ratesTide (d : Dev) (x : TideInput) : Dev :=
  let d := match x.ref10m with
    | some ppm => d.refRate ppm
    | none => d
  x.clocks.foldl Dev.clockRate d

/-- The Abacus and the audio pages at the end of a Tide: the mixes of the ended Tide, then the blocks that ports and flows
delivered in it (R336, R366, R371); `ended` is the number the Tide ran under. -/
def Dev.audioTide (d : Dev) (ended : Nat) (ms : List MemberTide) : Dev :=
  let t := d.tide - 1
  ((d.abxFinish t).apuTide t ms).essBlocks ended

/-- The staged commands due at this boundary, and those a port held for the new Tide (step 1 of R50; R149, R313, R316); rows
whose drain ends here are CLOSED ahead of them (R151). -/
def Dev.stagedTide (d : Dev) : Dev :=
  let d := d.drainsEnd.applyDue.btcStagedApply
  d.fryStagedApply.tallyStaged.fryNewTide

/-- What is counted by the Tide begins anew: receive buffers are looked at (R169), policers, Tally credit, key frame requests and STUN responses, the records that
wait for a key picture (R222, R231, R237, R287, R306). -/
def Dev.countsTide (d : Dev) : Dev :=
  let d := (d.qay.ports.map (·.lport)).foldl Dev.rxDrained (d.policerRefill.tallyRefill)
  let d := { d with bwr := { d.bwr with kfrSent := 0, stunUsed := 0 } }
  if d.follows then d
  else
    let (d, streams) : Dev × List (Nat × Nat) := d.ferryWait
    d.keyStreams streams

/-- Step 4 of R50: route and gain changes, which the blocks taken for the Tide that ended under the number `ended` are the first
to meet (R324, R338), automatic scaling and talker selection (R335, R343). -/
def Dev.mixTide (d : Dev) (ended : Nat) : Dev :=
  let d := d.abxChanges
  (d.takeBlocks d.extBlock (d.tide - 1) ended).compatUpdate.talkDecisions

/-- What the pages do once the new Tide has begun (R50): the mixes and blocks of the Tide that ended, then the steps of the
boundary in their order. -/
def Dev.afterTurn (d : Dev) (ended : Nat) (x : TideInput) (recs : List MrgRecord) (excess : Bool) : Dev :=
  let d := (d.ratesTide x).audioTide ended x.members
  let d := if d.live btcPage then d.writeBack else d
  let d := d.stagedTide.countsTide
  let d := ((d.rollCall x.units).ledgerStep).publish
  let d := if d.follows then d else d.releaseStep
  let d := (d.mixTide ended).mrgSendStep ended recs excess
  let d := (d.auditBoundary.gaugeSnapshots).holdWindow ended
  d.tclkRise.ppsOutRise.bootBoundary

/-- TIDE_BOUNDARY (R50). -/
def Dev.tideBoundary (d : Dev) (x : TideInput) : Dev :=
  let ended := d.tide
  let d : Dev := { d with ldg := { d.ldg with busy := [] } }
  let (d, recs, excess) : Dev × List MrgRecord × Bool := d.mrgClose ended
  d.turnTide.afterTurn ended x recs excess

end Sys2Proof.Machine
end

