-- ==== Sys2Proof/Machine/RkDma.lean ====
section
/-!
DEFINITION. The DMA channels of Reckoner cores (R402–R406) and the faults of cores (R396).
-/

namespace Sys2Proof.Machine

/-! ### The Pier store (R25) -/

/-- Bytes of a Pier store. -/
def pierStoreSize : Nat := 16 * mib

/-- The content of pier n's store. -/
def Dev.store_ (d : Dev) (n : Nat) : List Host.Cell := (assoc? n d.rkn.stores).getD []

/-- The device with bytes of a Pier store written. -/
def Dev.storeWrite (d : Dev) (n a : Nat) (b : Bytes) : Dev :=
  { d with rkn := { d.rkn with stores := assocPut [] n (Memory.writeN (d.store_ n) a b) d.rkn.stores } }

/-! ### Descriptors (R402) -/

namespace RkDma

/-- Fields of a descriptor. -/
def word (x : RkDma) (i : Nat) : Nat := (x.words.getD i 0).toNat
def op (x : RkDma) : Nat := x.word 0 / 4096
def space (x : RkDma) : Nat := x.word 0 / 256 % 4
def length (x : RkDma) : Nat := x.word 1
def local_ (x : RkDma) : Nat := x.word 2
def remote (x : RkDma) : Nat := x.word 3 + 65536 * x.word 4 + 2 ^ 32 * (x.word 5 % 256)
def queue (x : RkDma) : Nat := x.word 3 % 4096

/-- QPOP and QPUSH. -/
def isQueue (x : RkDma) : Bool := x.op == 3 || x.op == 4

/-- Whether data RAM is written. -/
def intoRam (x : RkDma) : Bool := x.op == 1 || x.op == 3

/-- Bytes that count against the allowance of R406. -/
def counted (x : RkDma) : Nat := if x.isQueue then 32 else if x.space = 1 then 0 else x.length

end RkDma

/-- The word of a descriptor that carries its outcome. -/
def dmaResult (busy full empty : Bool) (st : Nat) : Half :=
  BitVec.ofNat 16 (bitOf busy * 32768 + bitOf full * 512 + bitOf empty * 256 + st)

/-- The outcome written into a descriptor; the information area takes nothing. -/
def RkCore.putResult (c : RkCore) (desc : Half) (w : Half) : RkCore :=
  if rkInfoBase ≤ (desc + 14).toNat then c else c.setHalf (desc + 14) w

/-- Whether a field of a transfer breaks R402 or the address limits of R403. -/
def Dev.dmaBad (d : Dev) (x : RkDma) : Bool :=
  x.op == 0 || decide (4 < x.op) || x.space == 3 || x.local_ % 4 != 0 ||
  (if x.isQueue then x.length != 32 || x.space != 0
   else x.length == 0 || x.length % 4 != 0 || decide (32768 < x.length) || x.remote % 4 != 0) ||
  decide ((if x.intoRam then rkInfoBase else 65536) < x.local_ + x.length) ||
  (!x.isQueue &&
    match x.space with
    | 0 => d.unitOwned x.remote x.length
    | 1 => decide (pierStoreSize < x.remote + x.length)
    | _ => decide (4 * mib < x.remote + x.length))

/-- The Abacus inputs a transfer touches. -/
def RkDma.inputs (x : RkDma) : List Nat :=
  (List.range ((x.remote + x.length - 1) / 1024 - x.remote / 1024 + 1)).map (x.remote / 1024 + ·)

/-- What refuses a transfer (R403). -/
def Dev.dmaRefusal (d : Dev) (x : RkDma) : Option Status :=
  let abx := !x.isQueue && x.space == 2
  if d.dmaBad x then some .refusedParam
  else if abx && x.inputs.any (fun i => ((d.input? i).map Input.kind) != some 1) then some .refusedParam
  else if x.isQueue && d.get Reg.wfg_Q_TENANT [x.queue] != x.tenant then some .refusedTenant
  else if abx && x.inputs.any (fun i => (d.inputTenant i).any (· != x.tenant)) then some .refusedTenant
  else none

/-- Bytes of this Tide's allowance a core has used, and the core with more of it used (R406). -/
def Dev.dmaUsed (d : Dev) (c : RkCore) : Nat := if c.moved.1 = d.tide then c.moved.2 else 0
def Dev.dmaCharge (d : Dev) (c : RkCore) (n : Nat) : RkCore := { c with moved := (d.tide, d.dmaUsed c + n) }

/-- Whether a channel is busy. -/
def RkCore.dmaBusy (c : RkCore) (ch : Nat) : Bool := c.dma.any (·.ch == ch)

/-- A transfer starts on channel `ch`, its descriptor at `a` (R402, R403, R406). -/
def Dev.dmaStart (d : Dev) (c ch : Nat) (a : Half) : Dev :=
  let x := d.core c
  let order := x.ops.head?.map (·.order)
  let slot := order.bind d.slotByOrder
  let words := (List.range 8).map fun i => d.coreRead x (a + BitVec.ofNat 16 (2 * i))
  let t : RkDma := ⟨ch, a, words, order, (slot.map (·.tenant)).getD 0, (slot.map Slot.admitted).getD false, true⟩
  match d.dmaRefusal t with
  | some st =>
    (d.setCore (x.putResult a (dmaResult false false false st.code))).countRaise (rknPage c) 6 Reg.rkn_DMA_REFUSED (rknIx c)
  | none =>
    let fits := decide (d.dmaUsed x + t.counted ≤ 32768)
    let t := { t with charged := fits }
    let x := if fits then d.dmaCharge x t.counted else x
    let d := d.setCore { x.putResult a (dmaResult true false false 0) with dma := x.dma ++ [t] }
    if fits then d else d.bump Reg.rkn_DMA_DEFER (rknIx c)

/-- DMA (R387, R402): waits while the channel is busy. -/
def Dev.rkDma (d : Dev) (c : Nat) (ch : BitVec 2) (a : BitVec 3) : Dev :=
  if !d.executes c then d
  else
    let x := d.core c
    let desc := x.get (rA a.toNat)
    if x.dmaBusy ch.toNat then d.setCore x.tick
    else if desc.getLsbD 0 then d.coreTrap c trapMisaligned
    else
      let d := d.dmaStart c ch.toNat desc
      d.issued c x (.next (d.core c))

/-- DMAWAIT (R387). -/
def Dev.rkDmaWait (d : Dev) (c : Nat) (ch : BitVec 2) : Dev :=
  d.issue c fun x => if x.dmaBusy ch.toNat then .wait x else .next x

/-! ### Completion -/

/-- A channel is idle again, its outcome in its descriptor. -/
def Dev.dmaFinish (d : Dev) (c : Nat) (t : RkDma) (w : Half) : Dev :=
  let x := d.core c
  d.setCore ({ x with dma := x.dma.filter fun y => y.ch != t.ch }.putResult t.desc w)

/-- The operation a transfer belongs to ends with FAILED_MEMORY_UE (R81, R405, R515). -/
def Dev.dmaFail (d : Dev) (c : Nat) (t : RkDma) : Dev :=
  let x := d.core c
  match t.order, x.ops with
  | some o, h :: r =>
    if h.order = o then d.coreEnd c .failedMemoryUe
    else if r.any (·.order == o) then
      let d := d.setCore { x with ops := h :: r.filter fun y => y.order != o }
      match d.slotByOrder o with
      | some s => d.endInst s .failedMemoryUe []
      | none => d
    else d
  | _, _ => if x.mode = .init then d.setCore { x with mode := .initFailed } else d

/-- Bytes of data RAM from an even address on, as the core reads them, and the core with bytes written. -/
def Dev.coreBytes (d : Dev) (c : RkCore) (a n : Nat) : Bytes :=
  ((List.range ((n + 1) / 2)).flatMap fun i => leBytes 2 (d.coreRead c (BitVec.ofNat 16 (a + 2 * i))).toNat).take n
def RkCore.putBytes (c : RkCore) (a : Nat) (b : Bytes) : RkCore := { c with ram := Memory.writeN c.ram a b }

/-- A READ is carried out: its bytes, or the error it met. -/
def Dev.dmaFetch (d : Dev) (c : Nat) (t : RkDma) : Dev × Except HoldErr Bytes :=
  match t.space with
  | 0 => d.holdRead t.remote t.length (rknPage c)
  | 1 => (d, .ok (Memory.readN (d.store_ (coreUnit c).pier) t.remote t.length))
  | _ => (d, .ok (bytesOfWords (d.abxRead t.remote (t.length / 4))))

/-- A WRITE is carried out; the error it met. -/
def Dev.dmaStore (d : Dev) (c : Nat) (t : RkDma) (b : Bytes) : Dev × Option HoldErr :=
  match t.space with
  | 0 => d.holdWrite t.remote b (rknPage c)
  | 1 => (d.storeWrite (coreUnit c).pier t.remote b, none)
  | _ => (d.abxWrite t.remote (wordsOf (t.length / 4) b), none)

/-- The slot and the instance of the operation that a transfer belongs to. -/
def Dev.dmaOp (d : Dev) (t : RkDma) : Option (Slot × Inst) :=
  (t.order.bind d.slotByOrder).bind fun s => s.inst.map fun i => (s, i)

/-- A QPOP takes an item of the operation's IN_QUEUE only once space in OUT_QUEUE is kept for the operation (R108); none while
there is no room. -/
def Dev.popKept (d : Dev) (t : RkDma) : Option Dev :=
  match d.dmaOp t with
  | none => some d
  | some (s, i) =>
    if Desc.inQueue s.desc ≠ some t.queue ∨ i.claim ≠ 0 ∨ (d.queue t.queue).depth = 0 then some d
    else (d.outSpace s).map fun x => d.setSlot { s with inst := some { i with claim := x.1, claimOpn := x.2 } }

/-- A QPUSH. One into the OUT_QUEUE of its operation uses the space kept there; of an ordered operation it is held until the
operation ends (R111). -/
def Dev.taskPush (d : Dev) (t : RkDma) (x : Item) : Dev × Pushed :=
  let plain := d.push t.queue x (if t.booked then .booked else .open_)
  match d.dmaOp t with
  | none => plain
  | some (s, i) =>
    if Desc.outQueue s.desc ≠ some t.queue then plain
    else
      match i.claim, (d.flowOf s).isSome with
      | 0, false => plain
      | n + 1, false => ((d.setSlot { s with inst := some { i with claim := n } }).putKept t.queue { x with opn := i.claimOpn },
          if d.flag Reg.wfg_Q_EN [t.queue] then .stored else .dropped)
      | n, true =>
        if !d.flag Reg.wfg_Q_EN [t.queue] then plain
        else
          match (if n = 0 then d.outSpace s else some (n, i.claimOpn)) with
          | some (k + 1, opn) =>
            let i : Inst := { i with claim := if n = 0 then 0 else k, outs := i.outs ++ [{ x with opn := opn }] }
            (d.setSlot { s with inst := some i }, .stored)
          | some (0, _) => plain
          | none => (d, .full)

/-- A transfer that is in its allowance completes (R404, R405); a QPUSH stays until its queue has room. -/
def Dev.dmaComplete (d : Dev) (c : Nat) (t : RkDma) : Dev :=
  let x := d.core c
  let done := dmaResult false false false Status.done.code
  match t.op with
  | 1 =>
    match d.dmaFetch c t with
    | (d, .ok b) => (d.setCore ((d.core c).putBytes t.local_ b)).dmaFinish c t done
    | (d, .error _) =>
      let d := d.countRaise (rknPage c) 5 Reg.rkn_DMA_UE (rknIx c)
      (d.dmaFinish c t (dmaResult false false false Status.failedMemoryUe.code)).dmaFail c t
  | 2 =>
    match d.dmaStore c t (d.coreBytes x t.local_ t.length) with
    | (d, none) => d.dmaFinish c t done
    | (d, some _) => (d.dmaFinish c t (dmaResult false false false Status.failedMemoryUe.code)).dmaFail c t
  | 3 =>
    match d.popKept t with
    | none => d
    | some d =>
      match (if d.flag Reg.wfg_Q_EN [t.queue] then d.take t.queue else (d, none)) with
      | (d, some i) => (d.setCore ((d.core c).putBytes t.local_ (bytesOfWords i.words))).dmaFinish c t done
      | (d, none) => d.dmaFinish c t (dmaResult false false true Status.done.code)
  | _ =>
    let i : Item := { words := wordsOf 8 (d.coreBytes x t.local_ 32) }
    match d.taskPush t i with
    | (d, .stored) => d.dmaFinish c t done
    | (d, .dropped) => d.dmaFinish c t (dmaResult false true false Status.done.code)
    | (d, .full) => d

/-- DMA_DONE: the transfer on a channel completes; one outside its Tide's allowance waits for the next (R406). -/
def Dev.dmaDone (d : Dev) (c ch : Nat) : Dev :=
  let x := d.core c
  match x.dma.find? (·.ch == ch) with
  | none => d
  | some t =>
    if t.charged then d.dmaComplete c t
    else if d.dmaUsed x + t.counted ≤ 32768 then
      let x := d.dmaCharge x t.counted
      let x := { x with dma := x.dma.map fun (y : RkDma) => if y.ch = ch then { y with charged := true } else y }
      (d.setCore x).dmaComplete c { t with charged := true }
    else d

end Sys2Proof.Machine
end

