-- ==== Sys2Proof/Machine/RegRead.lean ====
section
/-!
DEFINITION. What a read of a register returns (R3, R9, R11, R12, R583): what it holds, and what the device computes where the
register shows state that lies elsewhere.
-/

namespace Sys2Proof.Machine

/-- A word with fields put in. -/
def putFields (w : Word) (l : List (RegField × Nat)) : Word := l.foldl (fun w x => Word.withFld w x.1.hi x.1.lo x.2) w

/-- The word a register holds as reads show it: write-only fields and reserved bits read zero (R11, R12). -/
def Dev.readable (d : Dev) (a : Nat) : Word :=
  (fieldsAt a).foldl (fun w f => if f.acc = .wo then w else Word.withFld w f.hi f.lo (Word.fld (d.word a) f.hi f.lo)) 0

/-! ### The header, the device page, the Tidekeeper -/

/-- BLK_ID (R591): all zero for an absent unit. -/
def Dev.blkId (p : Page) : Word :=
  BitVec.ofNat 32 (typeCode p.kind * 65536 + pageInstance p * 256 + (Config.blkRev (typeCode p.kind)).toNat)

/-- BLK_CAP (R591, R504). -/
def Dev.blkCap (d : Dev) (p : Page) : Word :=
  let w := Config.blkCap (typeCode p.kind)
  if p.kind = .ess then Word.withFld w 0 0 (bitOf d.essVideo) else w

/-- The header registers of a page that are not held as written (R591). -/
def Dev.headerView (d : Dev) (p : Page) (o : Nat) : Option Word :=
  match o with
  | 0x00 => some (Dev.blkId p)
  | 0x04 => some (d.blkCap p)
  | 0x0C => some (BitVec.ofNat 32 (d.pageState p))
  | _ => none

/-- The pages of a 64 KiB slot of PF BAR0. -/
def slotPages (i : Nat) : List Page := ((List.range 6).filterMap fun k => pageAt (65536 * i + 4096 * k)).eraseDups

/-- Whether a slot is one of a Pier store aperture, the last MiB of its pier's window (R585). -/
def apertureSlot (i : Nat) : Bool := decide (0x20 ≤ i) && decide (i < 0x120) && decide (16 ≤ i % 32)

/-- Whether any page of a slot is present (R599); a Pier store aperture is there with its pier. -/
def Dev.slotPresent (d : Dev) (i : Nat) : Bool :=
  if apertureSlot i then d.pierPresent ((i - 0x20) / 32) else (slotPages i).any d.present

/-- A word of 32 bits, bit i that of slot 32 × w + i. -/
def slotWord (f : Nat → Bool) (w : Nat) : Nat := ((List.range 32).map fun i => if f (32 * w + i) then 2 ^ i else 0).sum

/-- The device page. -/
def Dev.devView (d : Dev) (o : Nat) : List (RegField × Nat) :=
  if 0x80 ≤ o ∧ o < 0xA8 then [(Reg.dev_PRESENT, slotWord d.slotPresent ((o - 0x80) / 4))]
  else if 0x100 ≤ o ∧ o < 0x128 then [(Reg.dev_EVT_SUMMARY, slotWord d.slotSignals ((o - 0x100) / 4))]
  else []

/-- The Tidekeeper's time and its time events (R16, R17, R211); the fraction of a nanosecond is drawn where it is captured. -/
def Dev.tkpView (d : Dev) (o : Nat) : List (RegField × Nat) :=
  let e : TimeEvent := d.tk.events.headD ⟨0, 0, 0, 0⟩
  match o with
  | 0x48 => [(Reg.tkp_TIDE_LO, d.tide)]
  | 0x4C => [(Reg.tkp_TIDE_HI, d.tide / 2 ^ 32)]
  | 0x50 => [(Reg.tkp_TIDE_PHASE, d.phase)]
  | 0x54 => [(Reg.tkp_SEC_LO, d.ns / 1000000000)]
  | 0x58 => [(Reg.tkp_SEC_HI, d.ns / 1000000000 / 2 ^ 32)]
  | 0x5C => [(Reg.tkp_NS, d.ns % 1000000000)]
  | 0xCC => [(Reg.tkp_EDGE_MISS, d.edgeMiss)]
  | 0xD4 => [(Reg.tkp_TEVT_VALID, bitOf (!d.tk.events.isEmpty)), (Reg.tkp_TEVT_LEVEL, d.tk.events.length), (Reg.tkp_TEVT_SRC, e.src)]
  | 0xD8 => [(Reg.tkp_TEVT_SEC, e.sec)]
  | 0xDC => [(Reg.tkp_TEVT_NS, e.ns)]
  | 0xE0 => [(Reg.tkp_TEVT_FRAC, e.frac)]
  | _ => []

/-! ### The Ledger and the Wharfinger -/

/-- The Ledger page (R88, R92). -/
def Dev.ldgView (d : Dev) (o : Nat) : List (RegField × Nat) :=
  let q := d.queried (d.get Reg.ldg_QUERY_KIND) (d.get Reg.ldg_QUERY_INDEX) (d.get Reg.ldg_QUERY_TIDE_OFS)
  match o with
  | 0x44 => [(Reg.ldg_ACTIVE_ADMISSIONS, d.ldg.adms.length)]
  | 0x48 => [(Reg.ldg_SLOTS_FREE, slotCount - d.heldSlots)]
  | 0x4C => [(Reg.ldg_HORIZON_LO, d.tide)]
  | 0x50 => [(Reg.ldg_HORIZON_HI, d.tide / 2 ^ 32)]
  | 0x384 => [(Reg.ldg_QUERY_BOOKED, q.1)]
  | 0x388 => [(Reg.ldg_QUERY_STANDING, q.2)]
  | _ =>
    if 0x200 ≤ o ∧ o < 0x300 ∧ o % 0x40 = 0x24 ∧ d.ldg.busy.contains ((o - 0x200) / 0x40) then
      [(Reg.ldg_ADMIT_BUSY, 1), (Reg.ldg_ADMIT_VALID, 0)]
    else []

/-- Instances ready for the engines of kind k: those of C0 and C1, or those of C2 and C3 (WFG_READY_k). A mix is taken by its
lane at the boundary that releases it (R105). -/
def Dev.readyCount (d : Dev) (k : Nat) (low : Bool) : Nat :=
  (d.instances.filter fun x => x.2.state == .ready && Desc.kind x.1.desc != opMIX && unitKindOf (Desc.kind x.1.desc) == k &&
    decide (2 ≤ Desc.cls x.1.desc) == low).length

/-- Slots with an instance ready, running or held for release. -/
def Dev.slotsActive (d : Dev) : Nat :=
  ((d.instances.map fun x => x.1.order) ++ d.wfg.flows.flatMap fun f => f.held.map (·.order)).eraseDups.length

/-- The words of a queue's control block that show the queue (R129). -/
def Dev.queueView (d : Dev) (q i : Nat) : List (RegField × Nat) :=
  match i with
  | 4 => [(Reg.wfg_QRESERVED, d.queueReserved q - 32 * d.get Reg.wfg_QEGRESS_RESERVE [q])]
  | 5 => [(Reg.wfg_ABOVE_HIGH, bitOf (d.queue q).above), (Reg.wfg_QDEPTH, (d.queue q).depth)]
  | _ => []

/-- The Wharfinger page (R129). -/
def Dev.wfgView (d : Dev) (o : Nat) : List (RegField × Nat) :=
  if o = 0x44 then [(Reg.wfg_UNBOOKED_USE, d.unbookedUse), (Reg.wfg_SLOTS_ACTIVE, d.slotsActive)]
  else if o = 0xD4 then
    match d.flow? d.wfg.flowSel with
    | some f => [(Reg.wfg_FLOW_LIVE, 1), (Reg.wfg_FLOW_HELD, f.held.length), (Reg.wfg_FLOW_NEXT, f.next)]
    | none => []
  else if 0x100 ≤ o ∧ o < 0x120 then
    let k := (o - 0x100) / 4
    [(Reg.wfg_BOOKED_READY, d.readyCount k false), (Reg.wfg_UNBOOKED_READY, d.readyCount k true)]
  else if 0x20000 ≤ o then d.queueView ((o - 0x20000) / 32) ((o - 0x20000) % 32 / 4)
  else []

/-! ### The transport -/

/-- The Berth Table page (R155). -/
def Dev.btcView (d : Dev) (o : Nat) : List (RegField × Nat) :=
  if o = 0x4C then [(Reg.btc_ROWS, d.rowCount)]
  else if o = 0x54 then [(Reg.btc_PIN_USED, d.pinUsed)]
  else if o = 0x88 then [(Reg.btc_STAGED_USED, d.btc.staged.length)]
  else if 0x60 ≤ o ∧ o < 0x78 then [(Reg.btc_STATE_COUNT, d.stateCount ((o - 0x60) / 4))]
  else []

/-- A Quay page: the head of its timestamp FIFO (R186, R187). -/
def Dev.qayView (d : Dev) (q o : Nat) : List (RegField × Nat) :=
  let l := d.qay.stamps.filterMap fun x => if x.1 = q then some x.2 else none
  let h : TxStamp := l.headD ⟨0, 0, 0, 0, 0⟩
  match o with
  | 0x80 => [(Reg.qay_TXTS_VALID, bitOf (!l.isEmpty)), (Reg.qay_TXTS_LEVEL, l.length)]
  | 0x84 => [(Reg.qay_TXTS_TAG, h.tag), (Reg.qay_TXTS_LPORT, h.lport)]
  | 0x88 => [(Reg.qay_TXTS_SEC, h.sec)]
  | 0x8C => [(Reg.qay_TXTS_NS, h.ns)]
  | 0x90 => [(Reg.qay_TXTS_FRAC, h.frac)]
  | _ => []

/-- The unit that the spare of a kind stands in for, if it does. -/
def Dev.spareFor (d : Dev) (k : Nat) : Option Nat := (d.bornSpares k).findSome? fun i => (d.unit ⟨k, i⟩).carries

/-- The Breakwater page (R223, R242). -/
def Dev.bwrView (d : Dev) (o : Nat) : List (RegField × Nat) :=
  let p := d.policer (d.get Reg.bwr_POL_SEL)
  match o with
  | 0x54 => [(Reg.bwr_KFR_LEVEL, d.bwr.kfr.length)]
  | 0x70 => [(Reg.bwr_SPARE_FOR, ((d.spareFor ukBwr).map (· + 1)).getD 0)]
  | 0x144 => [(Reg.bwr_POL_RATE, p.rate)]
  | 0x148 => [(Reg.bwr_POL_BURST, p.burst)]
  | 0x14C => [(Reg.bwr_POL_TOKENS, p.tokens)]
  | _ => []

/-- The Bond page (R273). -/
def Dev.bndView (d : Dev) (o : Nat) : List (RegField × Nat) :=
  if o = 0x44 then
    [(Reg.bnd_AES_SPARE_USED, bitOf (d.spareFor ukAes).isSome), (Reg.bnd_SHA_SPARE_USED, bitOf (d.spareFor ukSha).isSome),
     (Reg.bnd_AES_SPARE_FOR, (d.spareFor ukAes).getD 0x1F), (Reg.bnd_SHA_SPARE_FOR, (d.spareFor ukSha).elim 0x7 (· / 2))]
  else []

/-- The Ferry page (R314). -/
def Dev.fryView (d : Dev) (o : Nat) : List (RegField × Nat) :=
  if o = 0x68 then [(Reg.fry_SPARE_FOR, (d.spareFor ukFry).getD 0x7)]
  else if 0x80 ≤ o ∧ o < 0xC0 then
    [(Reg.fry_LANES_FREE, ((d.lanesFree ((o - 0x80) / 4)).map fun i => 2 ^ i).sum)]
  else []

/-- The Tally page: reads of RATE, BURST and LPORT return those of the node addressed (R316). -/
def Dev.tlyView (d : Dev) (o : Nat) : List (RegField × Nat) :=
  let sub := d.get Reg.tly_NODE_SUB
  let n := if d.flag Reg.tly_NODE_LEVEL then d.svcNode (8 * sub + d.get Reg.tly_NODE_SVC) else d.subNode sub
  match o with
  | 0x44 => [(Reg.tly_SPARE_FOR, bitOf (d.spareFor ukTly).isSome)]
  | 0x204 => [(Reg.tly_NODE_RATE, n.rate)]
  | 0x208 => [(Reg.tly_NODE_BURST, n.burst)]
  | 0x20C => [(Reg.tly_NODE_LPORT, (d.subNode sub).lport)]
  | _ => if 0x80 ≤ o ∧ o < 0x100 ∧ o % 8 = 4 then [(Reg.tly_B_PORT, d.bPort ((o - 0x80) / 8))] else []

/-! ### Audio -/

/-- The level registers of the input or mix that LVL_SEL selects (R351). -/
def Dev.levelView (d : Dev) : Nat × Nat × Nat × Nat :=
  let i := d.get Reg.abx_MON_INDEX
  let (rms, ps, n, gr) : Int × List Nat × Nat × Nat :=
    if d.flag Reg.abx_MON_IS_MIX then let m := d.mix i; (levelOf m.energies, m.peaks, m.active, m.gr)
    else match d.input? i with
      | some x => (d.inputLevel x, x.peaks, 0, 0)
      | none => (-32768, [], 0, 0)
  (ofSigned 16 (peakLevel (ps.foldl max 0)), ofSigned 16 rms, n, gr)

/-- Slot j of the Basin that TALK_SEL addresses: occupied, ramping, its input. -/
def Dev.talkView (d : Dev) (j : Nat) : Nat × Nat × Nat :=
  match assoc? (d.get Reg.abx_TALK_SEL) d.abx.basins with
  | none => (0, 0, 0)
  | some b =>
    let ramping := b.swaps.any fun s => s.slot == j && s.stage != 0
    match b.slots.find? (·.slot == j) with
    | some s => (1, bitOf ramping, s.input)
    | none => (0, bitOf ramping, 0)

/-- The Abacus page (R353). -/
def Dev.abxView (d : Dev) (o : Nat) : List (RegField × Nat) :=
  if o = 0x44 then
    [(Reg.abx_MAC_SPARE_USED, bitOf (d.spareFor ukMac).isSome), (Reg.abx_DRESS_SPARE_USED, bitOf (d.spareFor ukDress).isSome),
     (Reg.abx_MAC_SPARE_FOR, (d.spareFor ukMac).getD 0x1F), (Reg.abx_DRESS_SPARE_FOR, (d.spareFor ukDress).getD 0x7)]
  else if o = 0x50 then [(Reg.abx_STAGED_USED, d.abx.staged.length)]
  else if o = 0x204 then [(Reg.abx_MON_PEAK, d.levelView.1), (Reg.abx_MON_RMS, d.levelView.2.1)]
  else if o = 0x208 then [(Reg.abx_MON_ACTIVE_N, d.levelView.2.2.1), (Reg.abx_MON_GR, d.levelView.2.2.2)]
  else if o = 0x214 then
    match ((assoc? (d.get Reg.abx_TALK_SEL) d.abx.basins).map Basin.swaps).getD [] with
    | s :: _ => [(Reg.abx_TALK_SWAP_PENDING, 1), (Reg.abx_TALK_PENDING_SLOT, s.slot)]
    | [] => []
  else if 0x240 ≤ o ∧ o < 0x280 then
    let t := d.talkView ((o - 0x240) / 4)
    [(Reg.abx_TALK_VALID, t.1), (Reg.abx_TALK_RAMPING, t.2.1), (Reg.abx_TALK_INPUT, t.2.2)]
  else if 0x800 ≤ o ∧ o < 0x1000 then
    let p := (o - 0x800) / 4
    if d.abx.inputs.any fun x => x.2.path == some p then
      [(Reg.abx_DRESS_IN_USE, 1),
       (Reg.abx_DRESS_LAT, 72 + (((assoc? p d.abx.paths).map fun y => wfld y.params 44 15 0).getD 0))]
    else []
  else []

/-- The essence page (R497, R501, R504). -/
def Dev.essView (d : Dev) (o : Nat) : List (RegField × Nat) :=
  if o = 0x84 then [(Reg.ess_TX_UNITS, d.vidUnitsUsed true none), (Reg.ess_RX_UNITS, d.vidUnitsUsed false none)]
  else if 0x3400 ≤ o ∧ o < 0x3800 ∧ o % 0x80 = 0x10 then [(Reg.ess_VTX_TRO, d.vidTro ((o - 0x3400) / 0x80))]
  else []

/-! ### Piers and their engines -/

/-- The state that wins for a unit (R117). -/
def Dev.unitState (d : Dev) (u : UnitId) : Nat := winner (d.managed u) (((d.unit u).reports).getD (d.ownState u))

/-- Spares of a kind (of a pier, for cores) that are free: present, fit, and carrying no calendar for a fault. -/
def Dev.sparesFree (d : Dev) (l : List UnitId) : Nat :=
  (l.filter fun u => d.unitFit u && ((d.unit u).carries.isNone || (d.unit u).forAudit)).length

/-- A Reckoner page (R412). -/
def Dev.rknView (d : Dev) (n o : Nat) : List (RegField × Nat) :=
  if o = 0x44 then
    let spares := (List.range 8).map fun j => (⟨ukCore, 1024 + 8 * n + j⟩ : UnitId)
    let cores := (List.range 128).map fun j => (⟨ukCore, 128 * n + j⟩ : UnitId)
    [(Reg.rkn_SPARES_FREE, (spares.filter fun u => d.unitFit u && (d.unit u).carries.isNone).length),
     (Reg.rkn_CORES_IN_SERVICE, (cores.filter d.inService).length)]
  else if 0x400 ≤ o ∧ o < 0x400 + 0x10 * 136 then
    let c := (o - 0x400) / 16
    let u : UnitId := ⟨ukCore, coreAt n c⟩
    let x := d.core u.idx
    let top := x.ops.head?
    match o % 16 with
    | 0 => [(Reg.rkn_CORE_STATE, d.unitState u), (Reg.rkn_CORE_SPARE, bitOf (decide (128 ≤ c))),
        (Reg.rkn_CORE_SPARE_FOR, ((d.unit u).carries.map coreLocal).getD 0xFF), (Reg.rkn_CORE_NEST, x.ops.length - 1),
        (Reg.rkn_CORE_PC, x.pc)]
    | 4 => [(Reg.rkn_CORE_SLOT, (top.map (·.slot)).getD 0)]
    | 8 => [(Reg.rkn_CORE_TASK_CYCLES, (top.map (·.cyc)).getD 0)]
    | _ => []
  else []

/-- The spare fields of an engine page (R441, R472, R502): `s` and `f` are SPARE and SPARE_FOR of its kind. -/
def Dev.engineView (d : Dev) (k i o : Nat) (s f : RegField) : List (RegField × Nat) :=
  if o = 0x40 then
    [(s, bitOf ((d.bornSpares k).contains i)), (f, ((d.unit ⟨k, i⟩).carries).getD 0xFF)]
  else []

/-! ### Hold, the Mooring, the Slipway -/

/-- The Hold page (R529). -/
def Dev.hldView (d : Dev) (o : Nat) : List (RegField × Nat) :=
  if o = 0x44 then
    [(Reg.hld_SPARE_E_FOR, ((d.unit ⟨ukHold, 65⟩).carries).getD 0xFF), (Reg.hld_SPARE_W_FOR, ((d.unit ⟨ukHold, 64⟩).carries).getD 0xFF)]
  else if o = 0x48 then [(Reg.hld_USABLE_MIB, d.usableMib)]
  else if 0x1000 ≤ o ∧ o < 0x2000 ∧ o % 0x40 = 0 then
    [(Reg.hld_CH_SPARE_CTRL, bitOf (d.unit ⟨ukHold, (o - 0x1000) / 0x40⟩).carrier.isSome)]
  else []

/-- The Mooring page (R537, R553). -/
def Dev.mrgView (d : Dev) (o : Nat) : List (RegField × Nat) :=
  if o = 0x4C then [(Reg.mrg_OUT_OPEN, bitOf d.outputsOpen)] else []

/-- A kind block of the Slipway page (R555, R577). -/
def Dev.slwView (d : Dev) (o : Nat) : List (RegField × Nat) :=
  if 0x100 ≤ o ∧ o < 0x200 then
    let k := (o - 0x100) / 16
    let spares := (d.bornSpares k).map fun i => (⟨k, i⟩ : UnitId)
    match o % 16 with
    | 0 => [(Reg.slw_KIND_IN_SERVICE, ((List.range (d.serviceCount k)).filter fun i => d.inService ⟨k, i⟩).length),
        (Reg.slw_KIND_SPARES, spares.length), (Reg.slw_KIND_SPARES_FREE, d.sparesFree spares)]
    | 4 => [(Reg.slw_KIND_RETIRED, (d.slw.units.filter fun x => x.1.kind == k && (x.2.retired || x.2.mgmtRetired)).length)]
    | 12 => [(Reg.slw_KIND_SLICES, slicesOf k), (Reg.slw_KIND_COVERAGE, coverageOf k)]
    | _ => []
  else []

/-! ### VF windows (R587–R589) -/

/-- The queue that window w of VF v shows, if it shows one its tenant owns (R589, R130). -/
def Dev.vfQueue (d : Dev) (v w : Nat) : Option Nat :=
  let q := d.get Reg.gwy_VF_QBASE [v - 1] + w
  if w < d.get Reg.gwy_VF_QCOUNT [v - 1] ∧ q < 4096 ∧ d.get Reg.wfg_Q_TENANT [q] = d.vfTenant v then some q else none

/-- The pending bits of a function, a word of them (R594). -/
def Dev.pendingWord (d : Dev) (f : Fn) (w : Nat) : Nat :=
  ((List.range 32).map fun i => if d.gwy.pendingBits.contains (f, 32 * w + i) then 2 ^ i else 0).sum

/-- What a page's registers show beyond what they hold. -/
def Dev.pageView (d : Dev) (p : Page) (o : Nat) : List (RegField × Nat) :=
  match p.kind with
  | .dev => d.devView o | .tkp => d.tkpView o | .ldg => d.ldgView o | .wfg => d.wfgView o | .btc => d.btcView o
  | .qay => d.qayView p.idx o | .bwr => d.bwrView o | .bnd => d.bndView o | .fry => d.fryView o | .tly => d.tlyView o
  | .abx => d.abxView o | .ess => d.essView o | .rkn => d.rknView p.idx o
  | .vde => d.engineView ukVde p.idx o Reg.vde_SPARE Reg.vde_SPARE_FOR
  | .svy => d.engineView ukSvy p.idx o Reg.svy_SPARE Reg.svy_SPARE_FOR
  | .ltr => d.engineView ukLtr p.idx o Reg.ltr_SPARE Reg.ltr_SPARE_FOR
  | .lcp => d.engineView ukLcp p.idx o Reg.lcp_SPARE Reg.lcp_SPARE_FOR
  | .hld => d.hldView o | .mrg => d.mrgView o | .slw => d.slwView o
  | .gwy | .apu | .pier | .decCtl | .encCtl | .cmpCtl | .tgg | .lfi | .pwr | .vf => []

/-- Whether an offset is that of essence video's registers (R504). -/
def essVideoReg (o : Nat) : Bool := o == 0x80 || o == 0x84 || (decide (0x3000 ≤ o) && decide (o < 0x3800))

/-- Whether an offset of a page is that of an absent unit's registers: the Hold page's blocks of channels the variant lacks
(R1, R3, R529). -/
def Dev.absentReg (d : Dev) (p : Page) (o : Nat) : Bool :=
  p.kind == .hld && decide (0x1000 + 0x40 * d.channels ≤ o) && decide (o < 0x2000)

/-- What a register of PF BAR0 reads, at an address that a page occupies: its header and its state, all zero of an absent unit
(R3), and but for BLK_ID and BLK_STAT of one whose domain is off (R583). -/
def Dev.pageRead (d : Dev) (p : Page) (a : Nat) : Word :=
  let o := a - pageBase p
  if !d.present p || d.absentReg p o then 0
  else
    match if o < 0x40 then d.headerView p o else none with
    | some w => if d.live p || o != 4 then w else 0
    | none =>
      if !d.live p || (p.kind == .ess && essVideoReg o && !d.essVideo) then 0
      else putFields (d.readable a) (d.pageView p o)

/-- The page whose unit serves an offset of a VF's window (R588). -/
def vfUnit (o : Nat) : Page :=
  if o < 0x1000 then ⟨.bnd, 0⟩ else if o < 0x1200 then ⟨.btc, 0⟩ else if o < 0xA000 then ⟨.wfg, 0⟩ else ⟨.gwy, 0⟩

/-- What VF v reads at an offset of its BAR0 (R588, R589): `q` is the queue word its window shows. -/
def Dev.vfRead (d : Dev) (v o : Nat) : Word :=
  let t := d.vfTenant v
  if t = 0 ∨ d.live (vfUnit o) = false then 0
  else if o = 0 then BitVec.ofNat 32 t
  else if o = 0x04 then d.readable (Reg.bnd_SLOT_SET.addrAt [t])
  else if o = 0x08 then d.readable (Reg.bnd_WRAP_KCV.addrAt [t])
  else if o = 0x1040 then d.readable (Reg.btc_TRANGE_BASE.addrAt [t])
  else if 0x2000 ≤ o ∧ o < 0xA000 then
    match d.vfQueue v ((o - 0x2000) / 32) with
    | some q => let i := (o - 0x2000) % 32 / 4; putFields (d.readable (queueAddr q i)) (d.queueView q i)
    | none => 0
  else if 0xA040 ≤ o ∧ o < 0xA140 then
    let r := (o - 0xA040) / 4
    if d.get Reg.gwy_RING_OWNER [r] = v then BitVec.ofNat 32 (d.get Reg.gwy_RING_RD [r]) else 0
  else if 0xB000 ≤ o ∧ o < 0xB200 then BitVec.ofNat 32 (d.msixWord (0x10000000 + 0x10000 * v + o))
  else if o = 0xC000 then BitVec.ofNat 32 (d.pendingWord (.vf v) 0)
  else d.readable (0x10000000 + 0x10000 * v + o)

/-- The pier and the byte of its Pier store that an address in an aperture shows (R585). -/
def Dev.aperture (d : Dev) (a : Nat) : Option (Nat × Nat) :=
  let n := (a - 0x200000) / 0x200000
  let o := (a - 0x200000) % 0x200000
  if 0x200000 ≤ a ∧ a < 0x1400000 ∧ 0x100000 ≤ o ∧ n < 8 ∧ d.live ⟨.pier, n⟩ then
    some (n, 2 ^ 20 * d.get Reg.pier_PSTORE_WIN [n] + (o - 0x100000))
  else none

/-- What the 32-bit word at an address reads (R583): PF BAR0 from 0, the VF windows from 0x1001_0000, PF BAR4 from
0x2000_0000. -/
def Dev.wordRead (d : Dev) (a : Nat) : Word :=
  let a := a / 4 * 4
  if 0x20000000 ≤ a then
    if a < 0x20008000 then BitVec.ofNat 32 (d.msixWord a)
    else if a < 0x20008100 then BitVec.ofNat 32 (d.pendingWord .pf ((a - 0x20008000) / 4))
    else 0
  else
    match d.aperture a with
    | some (n, x) => wordAt (wordsOf 1 (Memory.readN (d.store_ n) x 4)) 0
    | none =>
      match pageAt a with
      | some p => if p.kind = .vf then d.vfRead p.idx (a % 0x10000) else d.pageRead p a
      | none => 0

/-! ### Reading a 64-bit register (R9, R212) -/

/-- The _LO words of 64-bit registers, each with its _HI word after it; every page's header has APPLY_TIDE_LO besides (R9, R591). -/
def loFields : List RegField :=
    [Reg.dev_DIE_ID_LO, Reg.gwy_RING_HOST_ADDR_LO, Reg.gwy_LOGR_MIRROR_ADDR_LO, Reg.tkp_TIDE_LO, Reg.tkp_SEC_LO,
   Reg.tkp_BREAK_AT_LO, Reg.tkp_NEW_TIDE_LO, Reg.tkp_PPS_TOD_LO, Reg.tkp_CLOCK_ID_LO, Reg.ldg_HORIZON_LO,
   Reg.ldg_ADMIT_FIRST_TIDE_LO, Reg.wfg_SUBMIT_DESC_LO, Reg.qay_GATE_BASE_TIDE_LO, Reg.qay_RX_OCTETS_LO,
   Reg.qay_TX_OCTETS_LO, Reg.bwr_LMAC_LO, Reg.bnd_SRTP_LIMIT_LO, Reg.fry_NH_MAC_LO, Reg.tly_NODE_APPLY_TIDE_LO,
   Reg.encCtl_CMD_APPLY_TIDE_LO, Reg.cmpCtl_CMD_APPLY_TIDE_LO, Reg.hld_UE_ADDR_LO, Reg.hld_INJ_ADDR_LO,
   Reg.tgg_RO_SUM_LO, Reg.vf_SUBMIT_DESC_LO]

/-- Whether an address is that of a _LO word. -/
def isLo (a : Nat) : Bool :=
  match pageAt a with
  | some p => (a == pageBase p + 0x020 && p.kind != .vf) || loFields.any fun f => f.hits a
  | none => false

/-- The words that a read of a _LO word captures: TIDE_LO and SEC_LO capture more than their _HI word (R212). -/
def capturedBy (a : Nat) : List Nat :=
  if a = Reg.tkp_TIDE_LO.addr then [0x2004C, 0x20050]
  else if a = Reg.tkp_SEC_LO.addr then [0x20058, 0x2005C, 0x20060]
  else if isLo a then [a + 4] else []

/-- A word as its read captures it; the fraction of a nanosecond is a free value. -/
def Dev.capture1 (d : Dev) (a : Nat) : Dev :=
  let (d, w) : Dev × Word := if a = Reg.tkp_FRAC.addr then let (d, x) : Dev × Nat := d.draw; (d, BitVec.ofNat 32 (x % 65536)) else (d, d.wordRead a)
  { d with hiCaptured := (a, w) :: d.hiCaptured.filter fun (x : Nat × Word) => x.1 != a }

/-- A read of the head of a FIFO removes it (R187, R212). -/
def Dev.readPops (d : Dev) (a : Nat) : Dev :=
  if a = Reg.tkp_TEVT_FRAC.addr then d.tevtPop
  else if Reg.qay_TXTS_FRAC.hits a then d.popStamp ((a - 0x80000) / 0x10000)
  else d

/-- A VF's read of a queue window that shows another tenant's queue is logged with REFUSED_TENANT (R130, R589). -/
def Dev.vfForeign (d : Dev) (v o : Nat) : Bool :=
  let w := (o - 0x2000) / 32
  decide (0x2000 ≤ o) && decide (o < 0xA000) && d.vfTenant v != 0 && decide (w < d.get Reg.gwy_VF_QCOUNT [v - 1]) && (d.vfQueue v w).isNone

/-- The log entry of a VF's access to another tenant's queue. -/
def Dev.logForeign (d : Dev) (v : Nat) (a : Nat) : Dev :=
  d.log wfgPage Status.refusedTenant.code (tenant := d.vfTenant v) (detail := leBytes 8 a)

/-- LO_READ: the host reads the register at an address (R9, R583). A captured word is returned once; a _LO word captures. -/
def Dev.loRead (d : Dev) (addr : Nat) : Dev :=
  let a := addr / 4 * 4
  let alone := a == Reg.tkp_FRAC.addr && !d.hiCaptured.any fun (x : Nat × Word) => x.1 == a
  let d := (if alone then [a] else capturedBy a).foldl Dev.capture1 d
  let d : Dev := match pageAt a with
    | some (p : Page) => if p.kind = .vf ∧ d.vfForeign p.idx (a % 0x10000) = true then d.logForeign p.idx a else d
    | none => d
  match d.hiCaptured.find? (·.1 == a) with
  | some x => ({ d with hiCaptured := d.hiCaptured.filter fun (y : Nat × Word) => y.1 != a }).emit (.completion (bytesOfWords [x.2]) false)
  | none => (d.emit (.completion (bytesOfWords [d.wordRead a]) false)).readPops a

end Sys2Proof.Machine
end

