-- ==== Sys2Proof/Machine/RkLoad.lean ====
section
/-!
DEFINITION. Firmware images of the Reckoner (R407–R409, R412, R413).
-/

namespace Sys2Proof.Machine

/-- The header of an image, its fields by the offsets of R407. -/
def imgHalf (b : Bytes) (o : Nat) : Nat := leNat (slice b o 2)
def imgWord (b : Bytes) (o : Nat) : Nat := leNat (slice b o 4)

/-- A length rounded up to a 64-byte boundary. -/
def up64 (n : Nat) : Nat := (n + 63) / 64 * 64

/-- Whether CODE_LEN and DATA_LEN keep R407. -/
def imgLengthsOk (h : Bytes) : Bool :=
  let c := imgWord h 0x0C
  let n := imgWord h 0x10
  c % 4 == 0 && decide (4 ≤ c) && decide (c ≤ 32768) && n % 4 == 0 && decide (n ≤ 65280)

/-- Offsets of the code and of the data, and the length of the image. -/
def imgCode (h : Bytes) : Nat := up64 (0x40 + 8 * imgHalf h 0x14)
def imgData (h : Bytes) : Nat := up64 (imgCode h + imgWord h 0x0C)
def imgEnd (h : Bytes) : Nat := imgData h + imgWord h 0x10

/-- The tasks of an image. -/
def imgTasks (b : Bytes) : List RkTask :=
  (List.range (imgHalf b 0x14)).map fun i => ⟨imgHalf b (0x40 + 8 * i), byteAt b (0x42 + 8 * i), imgWord b (0x44 + 8 * i)⟩

/-- Whether the task table and the entry vectors keep R407 (R408). -/
def imgTasksOk (b : Bytes) : Bool :=
  let n := imgWord b 0x0C / 4
  let k := imgHalf b 0x14
  let entry := fun o => imgHalf b o % 8192
  decide (1 ≤ k) && decide (k ≤ 1024) && decide (entry 0x18 < n) && decide (entry 0x1A < n) && decide (entry 0x1C < n) &&
  (List.range k).all (fun i => byteAt b (0x43 + 8 * i) == 0) &&
  (imgTasks b).all fun t => [5, 6, 8].contains t.kind && decide (1 ≤ t.cycles) && decide (t.cycles ≤ 1550000) && decide (t.entry < n)

/-- Whether an admission holds a booking on a core of a pier. -/
def Dev.pierBooked (d : Dev) (p : Nat) : Bool :=
  d.wfg.slots.any fun s => s.admitted && !s.detached && s.engine.any fun u => u.kind == ukCore && u.pier == p

/-- Whether a core of a pier runs something, pre-empted operations among it. -/
def Dev.pierRunning (d : Dev) (p : Nat) : Bool :=
  d.rkn.cores.any fun c => (coreUnit c.num).pier == p && !c.ops.isEmpty

/-- What refuses an image, in the order of R408; `h` is its header and `b` the whole image where its lengths let it
be read. -/
def Dev.imgError (d : Dev) (p : Nat) (h : Bytes) (b : Option Bytes) : Option Nat :=
  if imgWord h 0 ≠ 0x4D524B49 ∨ imgHalf h 4 ≠ 1 ∨ (slice h 0x24 28).any (· != 0) then some 1
  else
    match b with
    | none => some 2
    | some b =>
      if crc32 (b.drop 0x40) ≠ imgWord h 0x20 then some 3
      else if d.pierBooked p || d.pierRunning p then some 4
      else if 256 < imgHalf h 0x1E % 512 then some 5
      else if !imgTasksOk b then some 6
      else none

/-- The result of a load that is refused. -/
def Dev.loadFailed (d : Dev) (p err : Nat) : Dev :=
  (((d.set Reg.rkn_VALID 1 [p]).set Reg.rkn_LOAD_ERR err [p]).set Reg.rkn_STATUS Status.refusedParam.code [p]).raise ⟨.rkn, p⟩ 1

/-- A new image is written into every core of a pier, and INIT_ENTRY is to run on each (R408). -/
def Dev.loadInto (d : Dev) (p : Nat) (b : Bytes) : Dev :=
  let code := slice b (imgCode b) (imgWord b 0x0C)
  let data := slice b (imgData b) (imgWord b 0x10)
  let entry := fun o => imgHalf b o % 8192
  let img : RkImage := ⟨imgWord b 0x08, imgWord b 0x20, imgTasks b, entry 0x18, entry 0x1A, entry 0x1C, imgHalf b 0x1E % 512,
    wordsOf (code.length / 4) code⟩
  let mine := fun (c : RkCore) => (coreUnit c.num).pier == p
  let fresh := fun (c : RkCore) =>
    (({ c with mode := .init, pc := img.initEntry, branch := none, loads := [], request := none, dma := [],
               ram := Memory.writeN c.ram 0 data } : RkCore).setSr srIE false)
  let base := Memory.writeN ((assoc? p d.rkn.rams).getD []) 0 data
  let d := { d with rkn := { d.rkn with
    images := assocSet p img d.rkn.images
    loading := p :: d.rkn.loading.filter (· != p)
    cores := d.rkn.cores.map fun (c : RkCore) => if mine c then fresh c else c
    rams := assocSet p base d.rkn.rams } }
  ((d.set Reg.rkn_LOADED 0 [p]).set Reg.rkn_LOAD_BUSY 1 [p]).set Reg.rkn_VALID 0 [p]

/-- GO of RKN_LOAD (R408, R412). -/
def Dev.rknLoad (d : Dev) (p : Nat) : Dev :=
  let pg : Page := ⟨.rkn, p⟩
  if 8 ≤ p ∨ !d.live pg then d
  else if d.flag Reg.rkn_LOAD_BUSY [p] then d.log pg codeGoBusy (detail := leBytes 8 (pageBase pg + 0x4C))
  else
    let a := d.get Reg.rkn_IMG_ADDR [p] * 256
    match d.holdRead a 0x40 pg with
    | (d, .error _) => d.loadFailed p 8
    | (d, .ok h) =>
      if !imgLengthsOk h then d.loadFailed p ((d.imgError p h none).getD 2)
      else
        match d.holdRead (a + 0x40) (imgEnd h - 0x40) pg with
        | (d, .error _) => d.loadFailed p 8
        | (d, .ok r) =>
          match d.imgError p h (some (h ++ r)) with
          | some e => d.loadFailed p e
          | none => d.loadInto p (h ++ r)

/-- What INIT_ENTRY left on a core that the model did not run it on. -/
def RkCore.inited (c : RkCore) (x : CoreInit) : RkCore :=
  let c := x.regs.foldl (fun (c : RkCore) r => c.set r.1 r.2) c
  x.ram.foldl (fun (c : RkCore) r => if rkInfoBase ≤ r.1 then c else c.setHalf (BitVec.ofNat 16 r.1) r.2) c

/-- LOAD_DONE: the load of pier p ends (R408). Cores that INIT_ENTRY has not been run on by instructions are as
`inits` says; `failed` says that one of them failed. -/
def Dev.loadDone (d : Dev) (p : Nat) (failed : Bool) (inits : List CoreInit) : Dev :=
  if !d.rkn.loading.contains p then d
  else
    let mine := fun (c : RkCore) => (coreUnit c.num).pier == p
    let bad := failed || d.rkn.cores.any fun c => mine c && c.mode == .initFailed
    let d := inits.foldl (fun d x =>
      let c := d.core (coreAt p x.core)
      if x.core < 136 ∧ c.mode = .init then d.setCore { c.inited x with mode := .initDone } else d) d
    let d := { d with rkn := { d.rkn with
      loading := d.rkn.loading.filter (· != p)
      cores := d.rkn.cores.map fun (c : RkCore) => if mine c then { c with mode := .idle } else c } }
    let d := (d.set Reg.rkn_LOAD_BUSY 0 [p]).set Reg.rkn_VALID 1 [p]
    if bad then ((d.set Reg.rkn_LOAD_ERR 7 [p]).set Reg.rkn_STATUS Status.refusedParam.code [p]).raise ⟨.rkn, p⟩ 1
    else
      match assoc? p d.rkn.images with
      | none => d
      | some i =>
        let d := ((d.set Reg.rkn_LOADED 1 [p]).set Reg.rkn_LOAD_ERR 0 [p]).set Reg.rkn_STATUS Status.done.code [p]
        let d := (d.set Reg.rkn_IMAGE_ID i.id [p]).set Reg.rkn_IMAGE_CRC i.crc [p]
        (d.set Reg.rkn_PREEMPT_SAVE i.preemptSave [p]).raise ⟨.rkn, p⟩ 0

/-- A write of EN of a pier's Reckoner page: clearing it while a booking stands is ignored and logged (R409, R412). -/
def Dev.rknEnWrite (d : Dev) (p : Nat) (w : Word) : Dev :=
  if Word.fld w 0 0 = 0 ∧ d.pierBooked p then d.logIgnored ⟨.rkn, p⟩ (Reg.rkn_EN.addrAt [p])
  else d.set Reg.rkn_EN (Word.fld w 0 0) [p]

end Sys2Proof.Machine
end

