-- ==== Sys2Proof/Machine/Wire.lean ====
section
/-!
DEFINITION. Frames at the edge: what a Quay receives and sends (R164–R175, R185, R186), with the Link Fault Injector's
points (R572–R576), and the frames of the Mooring.
-/

namespace Sys2Proof.Machine

/-! ### Receive (R161, R166–R169, R173, R185) -/

/-- MAC control frames: PFC, and the PAUSE of 802.3x. -/
def isMacControl (op : Nat) (b : Bytes) : Bool :=
  beAt b 0 6 == 0x0180C2000001 && beAt b 12 2 == 0x8808 && beAt b 14 2 == op
def isPfc (b : Bytes) : Bool := isMacControl 0x0101 b
def isPause (b : Bytes) : Bool := isMacControl 0x0001 b

/-- A port's share of its Quay's receive buffer in bytes (R168). -/
def Dev.rxShare (d : Dev) (l : Nat) : Nat :=
  match d.get Reg.qay_MODE [l / 4] with
  | 1 => 1048576
  | 2 => 524288
  | _ => 262144

/-- The uncorrectable codewords that a frame overlaps: a frame that the PCS marks errored overlaps one at least (R161). -/
def rxUncorr (x : RxInput) : Nat := if x.errored then max 1 x.fecUncorr else x.fecUncorr

/-- Codewords corrected, uncorrectable, and symbols corrected (R161). -/
def Dev.fecCount (d : Dev) (l corr uncorr syms : Nat) : Dev :=
  let d := (d.bump Reg.qay_FEC_CORR_CW (portIx l) corr).bump Reg.qay_FEC_SYM_ERR (portIx l) syms
  if uncorr = 0 then d else d.countRaise (qayPage l) 9 Reg.qay_FEC_UNCORR_CW (portIx l) uncorr

/-- Each frame is counted once (R166). -/
def Dev.rxCount (d : Dev) (l len : Nat) (f : RxFrame) : Dev :=
  if f.trunc then d.countRaise (qayPage l) 2 Reg.qay_RX_TRUNC (portIx l)
  else if f.errored then d.bump Reg.qay_RX_FCS_ERR (portIx l)
  else if isPfc f.bytes then d.bump Reg.qay_RX_PFC (portIx l)
  else if isPause f.bytes then d.bump Reg.qay_RX_PAUSE_8023X (portIx l)
  else (d.bump Reg.qay_RX_FRAMES (portIx l)).bump64 Reg.qay_RX_OCTETS_LO Reg.qay_RX_OCTETS_HI (portIx l) len

/-- A frame past the counters of R166: PFC acts, PAUSE does nothing, any other frame enters the Breakwater (R173). -/
def Dev.passOn (d : Dev) (f : RxFrame) : Dev :=
  if f.trunc || f.errored then d.breakwater f
  else if isPfc f.bytes then d.rxPfc f.lport f.bytes
  else if isPause f.bytes then d
  else d.breakwater f

/-- What the receive point of a Quay lets go on. -/
def Dev.rxRelease (d : Dev) (f : LfiFrame) : Dev :=
  match f with
  | .rx f => d.passOn f
  | _ => d

/-- The receive timestamp of a frame at the balls, adjusted (R185): nanoseconds and fraction. -/
def Dev.rxStamp (d : Dev) (l frac : Nat) : Nat × Nat :=
  let t := ((d.fine frac : Int) - toSigned 32 (d.get Reg.qay_TS_RX_ADJ (portIx l))).toNat
  (t / 65536, t % 65536)

/-- A frame admitted by a port: truncated if it is too long, past the receive point of the Link Fault Injector, counted
and passed on (R166, R167, R575). -/
def Dev.rxAdmit (d : Dev) (x : RxInput) : Dev :=
  let l := x.lport
  let len := x.bytes.length
  let long := decide (d.maxFrame l < len)
  let good := rxUncorr x == 0 && decide (x.bytes.drop (len - 4) = fcsOf (x.bytes.take (len - 4)))
  let whole := if long then x.bytes.take (d.maxFrame l) else x.bytes
  let (ns, frac) : Nat × Nat := d.rxStamp l x.frac
  let frame := fun (p : LfiPass) => ({
    lport := l
    bytes := if long then p.bytes else p.bytes.take (p.bytes.length - 4)
    trunc := long
    fcsOrig := good && !p.pre
    errored := !long && (!good || p.pre)
    rxNs := ns
    frac := frac } : RxFrame)
  match d.lfiPoint (l / 4) l whole (controlFrame whole) (fun p => .rx (frame p)) with
  | (d, p, held) =>
    let counted : RxFrame := { frame p with bytes := if p.pre then (frame p).bytes else (frame { bytes := whole }).bytes }
    let d := d.rxCount l len counted
    let d := if p.gone then d
      else if p.twice then (d.passOn (frame p)).passOn (frame p)
      else d.passOn (frame p)
    held.foldl Dev.rxRelease d

/-- RX_FRAME: a logical port receives a frame. -/
def Dev.rxFrame (d : Dev) (x : RxInput) : Dev :=
  let l := x.lport
  let d := d.atPhase x.phase
  if !d.portExists l || !d.flag Reg.qay_PORT_EN (portIx l) || !d.linkUp l then d
  else
    let d := d.fecCount l x.fecCorr (rxUncorr x) x.fecSyms
    let len := x.bytes.length
    if d.rxShare l < x.occupancy + d.maxFrame l then
      (d.countRaise (qayPage l) 3 Reg.qay_RX_OVERFLOW (portIx l)).rxBuffer l x.occupancy x.occupancy
    else
      let d := d.rxBuffer l x.occupancy (x.occupancy + min len (d.maxFrame l))
      if len < 64 then d.bump Reg.qay_RX_RUNT (portIx l) else d.rxAdmit x

/-! ### Transmit (R164, R170–R175, R185, R186) -/

/-- A frame leaves a port: its timestamps are taken as it crosses the reference plane (R185, R186, R195). A second copy
writes no entry of the FIFO. -/
def Dev.txOut (d : Dev) (l frac : Nat) (f : TxFrame) (bad : Bool) (again : Bool := false) : Dev :=
  let t : Int := (d.fine frac : Int) + toSigned 32 (d.get Reg.qay_TS_TX_ADJ (portIx l))
  let (d, b) : Dev × Bytes := if f.note = .ptp then d.ptpSent l f.bytes t else (d, f.bytes)
  let d := d.emit (if bad then .badFrame l b else .frame l (withFcs b))
  let d := if f.note = .pfc then d.bump Reg.qay_TX_PFC (portIx l)
    else (d.bump Reg.qay_TX_FRAMES (portIx l)).bump64 Reg.qay_TX_OCTETS_LO Reg.qay_TX_OCTETS_HI (portIx l) f.length
  match f.tsReq, again with
  | some tag, false =>
    let ns := (t / 65536).toNat
    d.pushStamp ⟨l, tag, ns / 1000000000 % 2 ^ 32, ns % 1000000000, (t % 65536).toNat⟩
  | _, _ => d

/-- What the transmit point of a Quay lets go on. -/
def Dev.txRelease (d : Dev) (l frac : Nat) (f : LfiFrame) : Dev :=
  match f with
  | .tx f bad => d.txOut l frac f bad
  | _ => d

/-- A frame past the gate decision meets the rules of the transmit point, and leaves (R575). -/
def Dev.txInject (d : Dev) (l frac : Nat) (f : TxFrame) : Dev :=
  let whole := withFcs f.bytes
  let made := fun (p : LfiPass) =>
    if p.pre || p.post then { f with bytes := p.bytes.take (p.bytes.length - 4) } else f
  match d.lfiPoint (4 + l / 4) l whole (controlFrame whole) (fun p => .tx (made p) p.post) with
  | (d, p, held) =>
    let d := if p.gone then d
      else
        let d := d.txOut l frac (made p) p.post
        if p.twice then d.txOut l frac (made p) p.post true else d
    held.foldl (fun d f => d.txRelease l frac f) d

/-- TX_FRAME_START: at a frame boundary the head of the highest eligible queue starts (R170), unless a PFC frame is due
(R171). A frame whose pause is no longer honoured, or whose link is down, or that closed outputs hold back, is dropped at
the instant it would have started (R128, R164, R538). -/
def Dev.txFrameStart (d : Dev) (l frac : Nat) : Dev :=
  let d := d.rxDrained l
  if !d.portExists l || !d.flag Reg.qay_PORT_EN (portIx l) || d.pfcReady l then d
  else
    match d.nextTxq l frac with
    | none => d
    | some q =>
      let x := d.port l
      match x.txq.getD q [] with
      | [] => d
      | f :: t =>
        let paused := (d.pauseOf l (d.txqPrio l q)).isSome
        let d := (d.setPort { x with txq := x.txq.set q t }).settleHead l q t.length
        if paused then d.bump Reg.qay_TX_PAUSE_DROP (portIx l)
        else if !d.linkUp l then d.bump Reg.qay_TX_LINK_DOWN (portIx l)
        else if !d.outputsOpen && f.note != .ptp then d.bump Reg.mrg_GATED_DROP
        else d.txInject l frac f

/-- PFC_TX: the PFC frame due leaves ahead of every queue, under no gate and no pause (R171, R174). -/
def Dev.pfcTx (d : Dev) (l : Nat) : Dev :=
  match (d.rxDrained l).pfcTake l with
  | (d, none) => d
  | (d, some f) => if d.linkUp l then d.txInject l 0 f else d

/-! ### Mooring frames (R532, R572) -/

/-- A Mooring frame past the receive point. -/
def Dev.mrgTake (d : Dev) (f : MrgFrame) : Dev :=
  match f.body with
  | .heartbeat b => d.heartbeat f.head b
  | .delta rs => d.deltaRx f.head rs
  | .deltaEnd => d.deltaEnd f.head
  | .bulk rs => d.bulkRx f.head rs
  | .bulkEnd => d.bulkEnd f.head
  | .rowReq rs => d.rowReq f.head rs
  | .joinReq ks => d.joinReq f.head ks

/-- What the Mooring's receive point lets go on. -/
def Dev.mrgTakeHeld (d : Dev) (f : LfiFrame) : Dev :=
  match f with
  | .mrg g => d.mrgTake g
  | _ => d

/-- A frame arrives on the Mooring: the rules of its receive point, then what it does. A frame with bits inverted fails its
FCS. -/
def Dev.mrgFrameRx (d : Dev) (f : MrgFrame) : Dev :=
  if !d.mrgOn || !d.live lfiPage || !d.flag Reg.lfi_EN then d.mrgTake f
  else
    let (d, b) : Dev × Bytes := d.mrgBytes f
    let made := fun (p : LfiPass) => f.altered p (!(p.pre || p.post))
    match d.lfiPoint 8 0 b false (fun p => .mrg (made p)) with
    | (d, p, held) =>
      let d := if p.gone then d else if p.twice then (d.mrgTake (made p)).mrgTake (made p) else d.mrgTake (made p)
      held.foldl Dev.mrgTakeHeld d

/-- LFI_HOLD_TIMEOUT: a frame held for 100 µs goes on (R574, R576). -/
def Dev.lfiHoldTimeout (d : Dev) (point l : Nat) : Dev :=
  match d.lfiTimeout point l with
  | (d, none) => d
  | (d, some f) =>
    if point < 4 then d.rxRelease f else if point < 8 then d.txRelease l 0 f else if point = 8 then d.mrgTakeHeld f else d.mrgRelease f

end Sys2Proof.Machine
end

