-- ==== Sys2Proof/Machine/RegWrite.lean ====
section
/-!
DEFINITION. What a write of a register does (R9, R11–R14, R583, R587–R589, R591), page by page: the registers that act when
written, those that hold what is written, and those a page takes only in some states.
-/

namespace Sys2Proof.Machine

/-- A write that only stores: RW and WO fields take their bits, ST fields take them when the page applies, counters with a
clear bit of their own clear (R11, R14). -/
def Dev.plainWrite (d : Dev) (p : Page) (a : Nat) (w : Word) : Dev :=
  (fieldsAt a).foldl (fun d f =>
    match f.acc with
    | .rw | .wo => d.setWord a (Word.withFld (d.word a) f.hi f.lo (Word.fld w f.hi f.lo))
    | .st => d.stWrite p a (maskOf f.hi f.lo) (w &&& maskOf f.hi f.lo)
    | .ctw => if Word.fld w 0 0 = 1 then d.setWord a (Word.withFld (d.word a) f.hi f.lo 0) else d
    | .ro | .w1c | .ctr => d) d

/-- A write that is taken only while a condition holds, and is ignored and logged otherwise. -/
def Dev.guardedWrite (d : Dev) (p : Page) (a : Nat) (w : Word) (ok : Bool) : Dev :=
  if ok then d.plainWrite p a w else d.logIgnored p a

/-- A CNT_CLEAR strobe over the counters whose address meets a condition. -/
def Dev.strobeClear (d : Dev) (w : Word) (keep : Nat → Bool) : Dev :=
  if Word.fld w 0 0 = 1 then d.clearCounters keep else d

/-- The counters of a page. -/
def pageCounters (p : Page) (a : Nat) : Bool := pageAt a == some p

/-- A GO or strobe bit 0. -/
def onGo (w : Word) (d e : Dev) : Dev := if Word.fld w 0 0 = 1 then e else d

/-! ### The header and the small pages -/

/-- BLK_CTRL (R591). -/
def Dev.ctrlWrite (d : Dev) (p : Page) (w : Word) : Dev :=
  let d := (d.setHdr p 0x008 0 0 (Word.fld w 0 0)).setHdr p 0x008 1 1 (Word.fld w 1 1)
  if Word.fld w 2 2 = 1 then d.softReset p else d

/-- The header's registers (R591, R592). A write of APPLY_CTRL with ARM and CANCEL both 1 arms and then cancels, so that the
page ends IDLE with its pending values discarded (DESIGN CHOICE, log entry 126). -/
def Dev.headerWrite (d : Dev) (p : Page) (o : Nat) (w : Word) : Dev :=
  match o with
  | 0x08 => d.ctrlWrite p w
  | 0x14 => (d.setHdr p 0x014 31 0 w.toNat).signalPage p
  | 0x18 => d.evtPendClear p w.toNat
  | 0x1C => d.evtForce p w.toNat
  | 0x20 => d.setHdr p 0x020 31 0 w.toNat
  | 0x24 => d.setHdr p 0x024 31 0 w.toNat
  | 0x28 =>
    let d := if Word.fld w 0 0 = 1 then d.applyArm p else d
    if Word.fld w 1 1 = 1 then d.applyCancelled p else d
  | _ => d

/-- The Gangway page (R600). -/
def Dev.gwyWrite (d : Dev) (o a : Nat) (w : Word) : Dev :=
  if o = 0x4C then d.vecRearm (Word.fld w 10 0)
  else if o = 0xFC then d.strobeClear w (pageCounters gwyPage)
  else if 0x410 ≤ o ∧ o < 0x810 ∧ o % 16 = 0 then d.vfTenantWrite ((o - 0x400) / 16) w
  else if 0x410 ≤ o ∧ o < 0x810 ∧ o % 16 = 8 then d.vfRearm ((o - 0x400) / 16) (Word.fld w 4 0)
  else if 0x2000 ≤ o ∧ o < 0x2800 then
    if o % 0x20 = 0 then d.hostRingWrite ((o - 0x2000) / 0x20) w else d.hostRingField ((o - 0x2000) / 0x20) (o % 0x20 / 4) w
  else if 0x3000 ≤ o ∧ o < 0x3820 then d.logRingField ((o - 0x3000) / 0x20) (o % 0x20 / 4) w
  else if 0x4000 ≤ o ∧ o < 0x4500 then
    let i := (o - 0x4000) / 4
    let d := d.plainWrite gwyPage a w
    if d.slotSignals i then d.signal .pf (d.get Reg.gwy_VEC_MAP [i]) else d
  else d.plainWrite gwyPage a w

/-- The Tidekeeper page (R212). -/
def Dev.tkpWrite (d : Dev) (o a : Nat) (w : Word) : Dev :=
  if o = 0x40 then d.srcSelWrite w
  else if o = 0xC4 then (d.plainWrite tkpPage a w).tclkChanged d
  else if o = 0x80 then (d.plainWrite tkpPage a (w &&& 0x0FFFFFFF)).tkOp (Word.fld w 31 28)
  else if 0x200 ≤ o ∧ o < 0x600 ∧ o % 0x40 = 0 then d.ptpRoleWrite ((o - 0x200) / 0x40) w
  else d.plainWrite tkpPage a w

/-- The Ledger page (R90–R92). -/
def Dev.ldgWrite (d : Dev) (o a : Nat) (w : Word) : Dev :=
  if 0x200 ≤ o ∧ o < 0x300 ∧ o % 0x40 = 0x20 then onGo w d (d.ldgGo ((o - 0x200) / 0x40))
  else if o = 0x300 then d.ldgWithdraw (Word.fld w 15 0)
  else if o = 0x380 then d.ldgQuery w.toNat
  else d.plainWrite ldgPage a w

/-- The Wharfinger page (R129). -/
def Dev.wfgWrite (d : Dev) (o a : Nat) (w : Word) : Dev :=
  if 0x80 ≤ o ∧ o < 0xC0 ∧ o % 0x10 = 8 then onGo w d (d.submitGo (.pf ((o - 0x80) / 0x10)))
  else if o = 0xC0 then d.wfgCancel (Word.fld w 14 0)
  else if o = 0xD0 then d.flowSkip (Word.fld w 31 16) (Word.fld w 15 0)
  else if 0x20000 ≤ o then d.queueWrite ((o - 0x20000) / 0x20) (o % 0x20 / 4) w
  else d.plainWrite wfgPage a w

/-! ### The transport -/

/-- The Berth Table page (R154–R156). -/
def Dev.btcWrite (d : Dev) (o a : Nat) (w : Word) : Dev :=
  if o = 0x44 ∨ o = 0x48 then d.guardedWrite btcPage a w (!d.flag Reg.btc_EN)
  else if o = 0x50 then d.pinRowsWrite w.toNat
  else if 0x400 ≤ o ∧ o < 0x500 then d.trangeWrite ((o - 0x400) / 4) w.toNat
  else if 0x200 ≤ o ∧ o < 0x300 ∧ o % 0x40 = 0x20 then onGo w d (d.btcGo (.pf ((o - 0x200) / 0x40)))
  else d.plainWrite btcPage a w

/-- Whether two bits each name every lane once (R163). -/
def lanePerm (m : Nat) : Bool := ((List.range 4).map fun i => m / 4 ^ i % 4).eraseDups.length == 4

/-- Whether the taps of a transmit equaliser sum to at most 32 in magnitude (R187). -/
def txeqOk (w : Word) : Bool :=
  let mag (hi lo : Nat) : Nat := (toSigned 6 (Word.fld w hi lo)).natAbs
  decide (mag 29 24 + Word.fld w 21 16 + mag 13 8 + mag 5 0 ≤ 32)

/-- Port block and gate lists of a Quay page (R179–R181, R187, R188). -/
def Dev.qayPortWrite (d : Dev) (q o a : Nat) (w : Word) : Dev :=
  let p : Page := ⟨.qay, q⟩
  if o < 0x800 then
    let l := 4 * q + (o - 0x400) / 0x100
    match o % 0x100 with
    | 0x20 => let d := d.set Reg.qay_GATE_BANK (Word.fld w 1 1) (portIx l); onGo w d (d.gateArm l)
    | 0xFC => d.strobeClear w fun x => decide (a - 0xFC ≤ x) && decide (x < a)
    | 0x38 => d.guardedWrite p a w (decide (Word.fld w 19 0 < 1000000))
    | _ => (d.plainWrite p a w).portWritten d l
  else if 0x4000 ≤ o ∧ o < 0x8000 then
    let held : Bool := match (d.port (4 * q + (o - 0x4000) / 0x1000)).oper with
      | some g => (o - 0x4000) % 0x1000 / 0x800 == g.bank
      | none => false
    d.guardedWrite p a w (!held)
  else d.plainWrite p a w

/-- A Quay page. -/
def Dev.qayWrite (d : Dev) (q o a : Nat) (w : Word) : Dev :=
  let p : Page := ⟨.qay, q⟩
  if o = 0x40 then d.modeWrite q w.toNat
  else if o = 0x44 then d.guardedWrite p a w (lanePerm (Word.fld w 7 0) && lanePerm (Word.fld w 15 8))
  else if 0x50 ≤ o ∧ o < 0x60 then d.guardedWrite p a w (txeqOk w)
  else if 0x400 ≤ o then d.qayPortWrite q o a w
  else d.plainWrite p a w

/-- The Breakwater page (R242). -/
def Dev.bwrWrite (d : Dev) (o a : Nat) (w : Word) : Dev :=
  match o with
  | 0x50 => d.kfrHost (Word.fld w 31 31 == 1) (Word.fld w 24 0)
  | 0x148 => d.polBurst (Word.fld w 15 0)
  | 0x300 => d.strobeClear w (pageCounters bwrPage)
  | _ => d.plainWrite bwrPage a w

/-- A wrapping key command as its register spells it (R261). -/
def wrapOp (w : Word) : Option WrapCmd :=
  match Word.fld w 1 0 with
  | 1 => some .set
  | 2 => some .lock
  | 3 => some .zeroize
  | _ => none

/-- The wrapping key command of a page, if the word spells one. -/
def Dev.wrapWrite (d : Dev) (f : Fn) (w : Word) : Dev :=
  match wrapOp w with
  | some c => d.wrapGo f c
  | none => d

/-- The Bond page (R273, R274). -/
def Dev.bndWrite (d : Dev) (o a : Nat) (w : Word) : Dev :=
  match o with
  | 0x204 => d.wrapWrite .pf w
  | 0x110 => onGo w d (d.keyGo .pf)
  | 0xFC => d.strobeClear w (pageCounters bndPage)
  | _ => d.plainWrite bndPage a w

/-- The Ferry page (R314). -/
def Dev.fryWrite (d : Dev) (o a : Nat) (w : Word) : Dev :=
  if 0x44 ≤ o ∧ o < 0x50 then d.guardedWrite fryPage a w (!d.flag Reg.fry_EN)
  else if 0x80 ≤ o ∧ o < 0xC0 then
    let l := (o - 0x80) / 4
    if d.fry.segs.any fun s => s.lport == l && !s.lanes.isEmpty then
      (d.set Reg.fry_FAN_TXQ (Word.fld w 14 12) [l]).logIgnored fryPage a
    else d.plainWrite fryPage a w
  else if o = 0xE8 then d.nhWrite w
  else if (o = 0x120 ∨ o = 0x160) then onGo w d (d.fryGo ((o - 0x120) / 0x40))
  else if o = 0x6FC then d.strobeClear w (pageCounters fryPage)
  else d.plainWrite fryPage a w

/-- The Tally page (R316). -/
def Dev.tlyWrite (d : Dev) (o a : Nat) (w : Word) : Dev :=
  match o with
  | 0x21C => onGo w d d.nodeGo
  | 0x3FC => d.strobeClear w (pageCounters tlyPage)
  | _ => d.plainWrite tlyPage a w

/-! ### Audio and essence -/

/-- The Abacus page (R353). -/
def Dev.abxPageWrite (d : Dev) (o a : Nat) (w : Word) : Dev :=
  if o = 0x40 then
    d.guardedWrite abxPage a w (Word.fld w 0 0 == 1 || !d.wfg.slots.any fun s => s.admitted && !s.detached && Desc.kind s.desc == opMIX)
  else if o = 0x48 ∨ o = 0x4C then d.guardedWrite abxPage a w (!d.flag Reg.abx_EN)
  else if o = 0x120 ∨ o = 0x160 then onGo w d (d.abxGo ((o - 0x120) / 0x40))
  else if o = 0xFC then d.strobeClear w (pageCounters abxPage)
  else d.plainWrite abxPage a w

/-- The audio port page (R373): a write of a setting judges every enabled group anew (R357). -/
def Dev.apuWrite (d : Dev) (o a : Nat) (w : Word) : Dev :=
  if o = 0x1FC then d.strobeClear w (pageCounters apuPage) else (d.plainWrite apuPage a w).apuCheck.audioClocks d

/-- The essence page (R375, R504). -/
def Dev.essWrite (d : Dev) (o a : Nat) (w : Word) : Dev :=
  if essVideoReg o && !d.essVideo then d
  else if o = 0x404 then d.guardedWrite essPage a w (!d.flag Reg.ess_AUD_EN)
  else if 0x2000 ≤ o ∧ o < 0x3000 ∧ o % 0x40 = 0 then d.essAudioFlowEn ((o - 0x2000) / 0x40) w
  else if 0x3000 ≤ o ∧ o < 0x3400 ∧ o % 0x80 = 0 then d.essVideoFlowEn false ((o - 0x3000) / 0x80) w
  else if 0x3400 ≤ o ∧ o < 0x3800 ∧ o % 0x80 = 0 then d.essVideoFlowEn true ((o - 0x3400) / 0x80) w
  else if 0x3400 ≤ o ∧ o < 0x3800 ∧ o % 0x80 = 0x10 then
    let f := (o - 0x3400) / 0x80
    let d := d.plainWrite essPage a w
    if d.cmp.troWritten.contains f then d else { d with cmp := { d.cmp with troWritten := f :: d.cmp.troWritten } }
  else d.plainWrite essPage a w

/-! ### Piers and control pages -/

/-- A Reckoner page (R408, R412). -/
def Dev.rknWrite (d : Dev) (n o a : Nat) (w : Word) : Dev :=
  let p : Page := ⟨.rkn, n⟩
  match o with
  | 0x40 => d.rknEnWrite n w
  | 0x4C => onGo w d (d.rknLoad n)
  | 0xFC => d.strobeClear w (pageCounters p)
  | _ => d.plainWrite p a w

/-- The decode control page (R442). -/
def Dev.decWrite (d : Dev) (o a : Nat) (w : Word) : Dev :=
  match o with
  | 0x40 => d.guardedWrite decPage a w (Word.fld w 0 0 == 1 || !d.wfg.slots.any fun s => Desc.kind s.desc == opDEC)
  | 0x44 => d.guardedWrite decPage a w (!d.flag Reg.decCtl_EN)
  | 0x50 => onGo w d d.decGo
  | 0xFC => d.strobeClear w (pageCounters decPage)
  | _ => d.plainWrite decPage a w

/-- The encode control page (R473). -/
def Dev.encWrite (d : Dev) (o a : Nat) (w : Word) : Dev :=
  match o with
  | 0x40 =>
    let bound := d.wfg.slots.any fun s => Desc.kind s.desc == opSVY || Desc.kind s.desc == opLTR
    if Word.fld w 0 0 = 0 ∧ bound then (d.set Reg.encCtl_FB_EN (Word.fld w 1 1)).logIgnored encPage a else d.plainWrite encPage a w
  | 0x44 | 0x48 => d.guardedWrite encPage a w (!d.flag Reg.encCtl_EN)
  | 0x60 => onGo w d d.encGo
  | 0xFC => d.strobeClear w (pageCounters encPage)
  | _ => d.plainWrite encPage a w

/-- The compose control page (R503). -/
def Dev.cmpWrite (d : Dev) (o a : Nat) (w : Word) : Dev :=
  match o with
  | 0x40 => d.guardedWrite cmpPage a w (Word.fld w 0 0 == 1 || !d.wfg.slots.any fun s => Desc.kind s.desc == opCMP)
  | 0x44 => d.guardedWrite cmpPage a w (!d.flag Reg.cmpCtl_EN)
  | 0x60 => onGo w d d.viewGo
  | 0xFC => d.strobeClear w (pageCounters cmpPage)
  | _ => d.plainWrite cmpPage a w

/-! ### Hold, the Mooring, the Slipway, gauges, fault injection, power -/

/-- The Hold page (R529): its regions are set while EN is 0 (R513). -/
def Dev.hldWrite (d : Dev) (o a : Nat) (w : Word) : Dev :=
  if o = 0x40 then d.holdCtrlWrite w
  else if 0x100 ≤ o ∧ o < 0x200 then d.guardedWrite hldPage a w (!d.flag Reg.hld_EN)
  else if o = 0x80C then d.injWrite w
  else if o = 0xFC then d.strobeClear w (pageCounters hldPage)
  else d.plainWrite hldPage a w

/-- The Mooring page (R553). -/
def Dev.mrgWrite (d : Dev) (o a : Nat) (w : Word) : Dev :=
  if o = 0x40 then d.mrgCtrlWrite w
  else if o = 0x44 then d.mrgOp (Word.fld w 3 0)
  else if o = 0x68 ∨ o = 0x6C then d.guardedWrite mrgPage a w (txeqOk w)
  else if o = 0xFC then d.strobeClear w (pageCounters mrgPage)
  else d.plainWrite mrgPage a w

/-- The Slipway page (R577). -/
def Dev.slwWrite (f : Fuse) (d : Dev) (o a : Nat) (w : Word) : Dev :=
  if o = 0x58 then onGo w d (d.slwGo f)
  else if o = 0xFC then d.strobeClear w (pageCounters slwPage)
  else d.plainWrite slwPage a w

/-- The gauge page (R579). -/
def Dev.tggWrite (d : Dev) (o a : Nat) (w : Word) : Dev :=
  if o = 0x104 then onGo w d (d.capture (Word.fld w 1 1 == 1))
  else if o = 0x108 then onGo w d d.gaugeClear
  else if 0x1000 ≤ o ∧ o < 0x2000 then d.gaugeWrite ((o - 0x1000) / 16) (o % 16 / 4) w
  else d.plainWrite tggPage a w

/-- The fault injection page (R580). -/
def Dev.lfiWrite (d : Dev) (o a : Nat) (w : Word) : Dev :=
  if o = 0x44 then d.lfsrSeed w
  else if 0x100 ≤ o ∧ o < 0x300 then d.ruleWrite ((o - 0x100) / 0x20) (o % 0x20 / 4) w
  else d.plainWrite lfiPage a w

/-- The power page (R625). -/
def Dev.pwrWrite (f : Fuse) (d : Dev) (o a : Nat) (w : Word) : Dev :=
  if o = 0x40 then d.domEnWrite w
  else if o = 0x48 then d.pwrOp f (Word.fld w 31 28)
  else if o = 0xFC then d.strobeClear w (pageCounters pwrPage)
  else d.plainWrite pwrPage a w

/-! ### VF windows (R587–R589) -/

/-- A queue window of a VF: QCFG's EN, the watermarks and the command word are the tenant's to write. -/
def Dev.vfQueueWrite (d : Dev) (v o a : Nat) (w : Word) : Dev :=
  let i := o % 0x20 / 4
  if d.vfForeign v o then d.logForeign v a
  else
    match d.vfQueue v ((o - 0x2000) / 0x20) with
    | none => d.bump Reg.gwy_VF_IGNORED
    | some q =>
      if i = 0 then d.queueWrite q 0 (Word.withFld (d.word (queueAddr q 0)) 31 31 (Word.fld w 31 31))
      else if i = 2 ∨ i = 3 then d.bump Reg.gwy_VF_IGNORED
      else d.queueWrite q i w

/-- A write through the window of VF v (R587); one to a page whose domain is off is ignored and logged (R583). -/
def Dev.vfWrite (d : Dev) (v a : Nat) (w : Word) : Dev :=
  let o := a % 0x10000
  let p : Page := ⟨.vf, v⟩
  if d.vfTenant v = 0 then d.bump Reg.gwy_VF_IGNORED
  else if !d.live (vfUnit o) then d.logIgnored (vfUnit o) a
  else if 0x2000 ≤ o ∧ o < 0xA000 then d.vfQueueWrite v o a w
  else if 0xB000 ≤ o ∧ o < 0xB200 then d.msixWrite (.vf v) ((o - 0xB000) / 16) (o % 16 / 4) w
  else if 0xA040 ≤ o ∧ o < 0xA140 then
    let r := (o - 0xA040) / 4
    if d.get Reg.gwy_RING_OWNER [r] = v then d.hostRingField r 5 w else d.bump Reg.gwy_VF_IGNORED
  else
    match o with
    | 0x80 => d.wrapWrite (.vf v) w
    | 0x110 => onGo w d (d.keyGo (.vf v))
    | 0x1020 => onGo w d (d.btcGo (.vf v))
    | 0x1208 => onGo w d (d.submitGo (.vf v))
    | 0xA014 => (d.set Reg.vf_EVT_EN w.toNat [v - 1]).signalPage p
    | 0xA018 => d.evtPendClear p w.toNat
    | 0xA01C => d.evtForce p w.toNat
    | 0xA030 => d.vfRearm v (Word.fld w 4 0)
    | _ => d.plainWrite p a w

/-! ### The whole -/

/-- A write to an address of a page whose unit is present and whose domain is on. -/
def Dev.pageWrite (f : Fuse) (d : Dev) (p : Page) (a : Nat) (w : Word) : Dev :=
  let o := a - pageBase p
  if p.kind ≠ .vf ∧ o < 0x40 then d.headerWrite p o w
  else
    match p.kind with
    | .gwy => d.gwyWrite o a w | .tkp => d.tkpWrite o a w | .ldg => d.ldgWrite o a w | .wfg => d.wfgWrite o a w
    | .btc => d.btcWrite o a w | .qay => d.qayWrite p.idx o a w | .bwr => d.bwrWrite o a w | .bnd => d.bndWrite o a w
    | .fry => d.fryWrite o a w | .tly => d.tlyWrite o a w | .abx => d.abxPageWrite o a w | .apu => d.apuWrite o a w
    | .ess => d.essWrite o a w | .rkn => d.rknWrite p.idx o a w | .decCtl => d.decWrite o a w | .encCtl => d.encWrite o a w
    | .cmpCtl => d.cmpWrite o a w | .hld => d.hldWrite o a w | .mrg => d.mrgWrite o a w | .slw => Dev.slwWrite f d o a w
    | .tgg => d.tggWrite o a w | .lfi => d.lfiWrite o a w | .pwr => Dev.pwrWrite f d o a w | .vf => d.vfWrite p.idx a w
    | .vde | .svy | .ltr | .lcp => if o = 0xFC then d.strobeClear w (pageCounters p) else d.plainWrite p a w
    | .dev | .pier => d.plainWrite p a w

/-- A write of one word (R583): to MSI-X state, an aperture of a Pier store, or a page's register. -/
def Dev.wordWrite (f : Fuse) (d : Dev) (a : Nat) (w : Word) : Dev :=
  if 0x20000000 ≤ a then
    if a < 0x20008000 then d.msixWrite .pf ((a - 0x20000000) / 16) (a % 16 / 4) w else d
  else
    match d.aperture a with
    | some (n, x) => d.storeWrite n x (bytesOfWords [w])
    | none =>
      match pageAt a with
      | none => d
      | some p =>
        if !d.present p || d.absentReg p (a - pageBase p) then d
        else if !d.domainOn (pageDomain p) then d.logIgnored p a
        else Dev.pageWrite f d p a w

/-- REGISTER_WRITE: the host writes a word with byte enables `be` (R9, R583). A word of a _LO register is held, and takes
effect just before the _HI word written next; a _HI word with no _LO word held takes effect alone (DESIGN CHOICE, log entry
123). A write with partial byte enables is logged on the Gangway's page, and where it names an absent unit's page too (DESIGN
CHOICE, log entry 122). -/
def Dev.registerWrite (f : Fuse) (d : Dev) (addr : Nat) (w : Word) (be : Nat) : Dev :=
  let a := addr / 4 * 4
  if be ≠ 0xF then d.logIgnored gwyPage a
  else if isLo a then { d with loHeld := (a, w) :: d.loHeld.filter fun (x : Nat × Word) => x.1 != a }
  else
    match d.loHeld.find? fun (x : Nat × Word) => x.1 + 4 == a with
    | some x =>
      let d := { d with loHeld := d.loHeld.filter fun (y : Nat × Word) => y.1 + 4 != a }
      Dev.wordWrite f (Dev.wordWrite f d (a - 4) x.2) a w
    | none => Dev.wordWrite f d a w

end Sys2Proof.Machine
end

