-- ==== Sys2Proof/Machine/Asked.lean ====
section
/-!
DEFINITION. Commands as software gives them: the words of a command port written, then its GO (R90, R156, R274, R314, R352),
each under the rules that hold for the write (R583, R587).
-/

namespace Sys2Proof.Machine

/-- A command that is a write to a page: ignored of an absent unit (R3), ignored and logged while its domain is off (R583). -/
def Dev.written (d : Dev) (p : Page) (a : Nat) (f : Dev → Dev) : Dev :=
  if d.live p then f d else if d.present p then d.logIgnored p a else d

/-- A command that a function gives: a VF with no tenant is ignored (R587). -/
def Dev.asked (d : Dev) (fn : Fn) (p : Page) (a : Nat) (f : Dev → Dev) : Dev :=
  match fn with
  | .pf => d.written p a f
  | .vf v => if d.vfTenant v = 0 then d.bump Reg.gwy_VF_IGNORED else d.written p a f

/-- The function a command or submit port belongs to. -/
def BtcPort.fn : BtcPort → Fn
  | .pf _ => .pf
  | .vf v => .vf v

/-- The GO of a submit port (R129, R588). -/
def submitGoAddr : BtcPort → Nat
  | .pf p => Reg.wfg_SUBMIT_GO.addrAt [p]
  | .vf v => Reg.vf_SUBMIT_GO.addrAt [v - 1]

/-- Words written to registers from an address on, as their access types have it. -/
def Dev.fillWords (d : Dev) (p : Page) (a : Nat) : List Word → Dev
  | [] => d
  | w :: t => (d.plainWrite p a w).fillWords p (a + 4) t

/-- The eight words of a command, its OPCODE in bits 31:24 of the first. -/
def opWords (op : Nat) (ws : List Word) : List Word := (ws.set 0 (Word.withFld (wordAt ws 0) 31 24 op)).take 8

/-- The words of a BTC command and, where it takes one, its row image, written to its port (R146, R147). -/
def Dev.btcPosted (d : Dev) (op : Nat) (port : BtcPort) (ws : List Word) (image : Option (List Word)) : Dev :=
  let d := d.setWords (btcPortAddr port) (opWords op ws)
  match image with
  | some i => d.setWords (btcImageAddr port) (i.take 64)
  | none => d

/-- A BTC command: its words, then GO. -/
def Dev.btcCmd (d : Dev) (op : Nat) (port : BtcPort) (ws : List Word) (image : Option (List Word)) : Dev :=
  d.asked port.fn btcPage (btcPortAddr port + 0x20) fun d => (d.btcPosted op port ws image).btcGo port

/-- The page a key port or a wrapping key command lies on. -/
def bondPageOf : Fn → Page
  | .pf => bndPage
  | .vf v => ⟨.vf, v⟩

/-- The words and the data of a key command, written to its port (R264). -/
def Dev.keyPosted (d : Dev) (op : Nat) (fn : Fn) (ws data : List Word) : Dev :=
  let ws := (ws.set 0 (Word.withFld (wordAt ws 0) 31 28 op)).take 3
  (d.fillWords (bondPageOf fn) (keyPortAddr fn) ws).setWords (keyPortAddr fn + 0x40) (data.take 24)

/-- A key command (R264): its words and its data, then GO. -/
def Dev.keyCmd (d : Dev) (op : Nat) (fn : Fn) (ws data : List Word) : Dev :=
  d.asked fn bndPage (keyPortAddr fn + 0x10) fun d => (d.keyPosted op fn ws data).keyGo fn

/-- The WRAP_CMD register of a function's page (R273, R275). -/
def wrapCmdAddr : Fn → Nat
  | .pf => Reg.bnd_WRAP_CMD.addr
  | .vf v => Reg.vf_WRAP_CMD.addrAt [v - 1]

/-- A wrapping key command (R261): on the provider page the tenant it names, the key where it takes one. -/
def Dev.wrapKeyCmd (d : Dev) (fn : Fn) (tenant : Nat) (key : Option (List Word)) (c : WrapCmd) : Dev :=
  d.asked fn bndPage (wrapCmdAddr fn) fun d =>
    let d := if fn = .pf then d.set Reg.bnd_WRAP_TENANT tenant else d
    let d := match key with
      | some k => d.setWords (wrapKeyAddr fn) (k.take 16)
      | none => d
    d.wrapGo fn c

/-- A Ferry command (R313); a port that holds a command takes no words. -/
def Dev.fryCmd (d : Dev) (op p : Nat) (ws : List Word) : Dev :=
  d.written fryPage (fryPortAddr p + 0x20) fun d =>
    if d.flag Reg.fry_CMD_BUSY [p] then d.fryGo p else (d.setWords (fryPortAddr p) (opWords op ws)).fryGo p

/-- An Abacus command (R352). -/
def Dev.abxCmd (d : Dev) (op p : Nat) (ws : List Word) : Dev :=
  d.written abxPage (abxPortAddr p + 0x20) fun d => (d.setWords (abxPortAddr p) (opWords op ws)).abxGo p

/-- APPLY_TIDE of a page, written (R591). -/
def Dev.setApplyTide (d : Dev) (p : Page) (t : Nat) : Dev :=
  (d.setHdr p 0x020 31 0 (t % 2 ^ 32)).setHdr p 0x024 31 0 (t / 2 ^ 32 % 2 ^ 32)

/-- TIDE_BREAK with its registers written first (R206, R212). -/
def Dev.breakCmd (d : Dev) (breakAt newTide breakPhase : Nat) : Dev :=
  let d := (d.set64 Reg.tkp_BREAK_AT_LO Reg.tkp_BREAK_AT_HI breakAt).set64 Reg.tkp_NEW_TIDE_LO Reg.tkp_NEW_TIDE_HI newTide
  (d.set Reg.tkp_BREAK_PHASE breakPhase).tideBreak

/-- A Z preamble with the words of the blocks of both subframes, A before B (R364, R373). -/
def Dev.aesWords (d : Dev) (k : Nat) (status user : List Word) (rate : Nat) (clean : Bool) : Dev :=
  let half (l : List Word) : Bytes × Bytes := (bytesOfWords (l.take 6), bytesOfWords (l.drop 6))
  d.aesBlockRx k (half status).1 (half status).2 (half user).1 (half user).2 rate clean

/-- GATE_ENTRY: the interval of an entry of the operational gate list ends. Which entry is in force, and so which gates are
open, follows from device time (`Dev.gateLeft`), so that nothing else changes (R178, R182). -/
def Dev.gateEntry (d : Dev) (_l : Nat) : Dev := d

end Sys2Proof.Machine
end

