-- ==== Sys2Proof/Machine/State.lean ====
section
/-!
DEFINITION. The state of the block, why a step can stop, and the state right after reset (R615, R617–R619).
-/

namespace Sys2Proof.Machine

/-- Why the block stops. -/
inductive Fault where
  /-- Raised by `act` and `actFuse` of every meaning: an operand that no register field, pin or count of units can spell
  (`Instr.wf`). Safe: the hardware cannot be given such a command. -/
  | illFormed
  deriving DecidableEq, Repr

/-- Why a command has no meaning here. -/
inductive Refusal where
  /-- Raised by an arm of `exec` whose command is not modelled. Safe. No arm raises it. -/
  | notModelled (mnemonic : String)
  deriving DecidableEq, Repr

/-- The state: the commands that wait, first in first out; the fuses, which no reset touches; everything else. -/
structure State where
  pending : List Instr
  fuse : Fuse
  dev : Dev
  deriving DecidableEq, Repr

/-- Fuses as they leave the factory, with nothing burnt in the field. The die identifier and the trims are those of no die in
particular (DESIGN CHOICE, log entry 2). -/
def Fuse.factory (v : Variant) : Fuse :=
  { variant := v, dieId := 0, trims := List.replicate 24 0, repairs := [], retires := [], user := [] }

/-- The state right after a POWER reset (R615): PWR_OK is low, nothing is in Hold, every register is at its reset value, and
RESET_CAUSE reads POWER. The fuses are those of an SPT-8832 with nothing burnt in the field (DESIGN CHOICE, log entry 2). -/
def State.reset : State :=
  { pending := []
    fuse := Fuse.factory .spt8832
    dev := (Dev.fresh .spt8832).set Reg.pwr_RESET_CAUSE 1 }

end Sys2Proof.Machine
end

