-- ==== Sys2Proof/WellFormed.lean ====
section
/-!
DEFINITION. Which commands the hardware can be given: every operand within what its register field, its pin or its count of
units can spell. What a unit refuses by a rule of the spec is no matter of well-formedness.
-/

namespace Sys2Proof

open Machine

/-! ### Time -/

/-- A phase of a Tide, in ns (R17). -/
def phaseOk (n : Nat) : Bool := decide (n < 2000000)
/-- The low 16 bits of a time stamp, in 2⁻¹⁶ ns. -/
def fracOk (n : Nat) : Bool := decide (n < 65536)
/-- A Tide number (R16), or another 64-bit value. -/
def tideOk (n : Nat) : Bool := decide (n < 2 ^ 64)
/-- BREAK_PHASE (R212). -/
def phase20Ok (n : Nat) : Bool := decide (n < 2 ^ 20)
/-- REF10M_IN or PPS_IN, as SRC_OK numbers them (R203). -/
def refInputOk (n : Nat) : Bool := n == 1 || n == 2
/-- TEVT_IN0 or TEVT_IN1. -/
def tevtInputOk (n : Nat) : Bool := decide (n < 2)

/-! ### Plain fields -/

/-- One of two. -/
def pairOk (n : Nat) : Bool := decide (n < 2)
/-- One of eight: a priority, a service, a lane, a TDM port, a pier. -/
def eightOk (n : Nat) : Bool := decide (n < 8)
/-- A byte. -/
def byteOk (n : Nat) : Bool := decide (n < 256)
/-- A half-word. -/
def halfOk (n : Nat) : Bool := decide (n < 65536)
/-- A word. -/
def word32Ok (n : Nat) : Bool := decide (n < 2 ^ 32)
/-- A rate of 24 bits. -/
def rate24Ok (n : Nat) : Bool := decide (n < 2 ^ 24)
/-- Words of a command or a block. -/
def words3Ok (l : List Word) : Bool := l.length == 3
def words7Ok (l : List Word) : Bool := l.length == 7
def words8Ok (l : List Word) : Bool := l.length == 8
def words16Ok (l : List Word) : Bool := l.length == 16
def words24Ok (l : List Word) : Bool := l.length == 24
def words64Ok (l : List Word) : Bool := l.length == 64

/-! ### The Ledger, the Wharfinger, the Berth Table -/

/-- One of four command ports. -/
def port4Ok (n : Nat) : Bool := decide (n < 4)
/-- A function of the device (R587). -/
def fnOk : Fn → Bool
  | .pf => true
  | .vf v => decide (1 ≤ v) && decide (v ≤ 64)
/-- A port of the PF, or that of a VF (R156, R588). -/
def btcPortOk : BtcPort → Bool
  | .pf p => decide (p < 4)
  | .vf v => decide (1 ≤ v) && decide (v ≤ 64)
/-- A slot (R99), a handle, a queue (R119), a tenant. -/
def slotOk (n : Nat) : Bool := decide (n < 32768)
def handleOk (n : Nat) : Bool := decide (n < 65536)
def queueOk (n : Nat) : Bool := decide (n < 4096)
def tenantOk (n : Nat) : Bool := decide (n < 64)
/-- The address of a descriptor (R129). -/
def descAddrOk (n : Nat) : Bool := decide (n < 2 ^ 40)
/-- A row, as BERTH fields spell it (R147). -/
def berthOk (n : Nat) : Bool := decide (n < 2 ^ 25)

/-! ### Quays, the Breakwater, the Ferry, the Tally -/

/-- A logical port (R159), a Quay, a mask of four lanes. -/
def lportOk (n : Nat) : Bool := decide (n < 16)
def quayOk (n : Nat) : Bool := decide (n < 4)
def laneMaskOk (n : Nat) : Bool := decide (n < 16)
/-- A fan list, a slot of a segment, a next-hop entry, a subscriber node. -/
def fanOk (n : Nat) : Bool := decide (n < 65536)
def fanSlotOk (n : Nat) : Bool := decide (n < 65536)
def fanOptOk : Option Nat → Bool
  | some n => fanOk n
  | none => true
def nhIndexOk (n : Nat) : Bool := decide (n < 4096)
def subNodeOk (n : Nat) : Bool := decide (n < 2 ^ 18)
/-- A frame as a port receives it. -/
def rxInOk (x : RxInput) : Bool := lportOk x.lport && phaseOk x.phase && fracOk x.frac && decide (x.bytes.length < 65536)

/-! ### Audio and video -/

def basinOk (n : Nat) : Bool := decide (n < 4096)
def mixOk (n : Nat) : Bool := decide (n < 8192)
def mixesOk (l : List Nat) : Bool := l.all mixOk
def entryOk (n : Nat) : Bool := decide (n < 64)
def audioFlowOk (n : Nat) : Bool := decide (n < 64)
def videoFlowOk (n : Nat) : Bool := decide (n < 8)
/-- An AES3 receiver or transmitter, the words of a block of both its subframes, a measured rate (R364, R373). -/
def aesOk (n : Nat) : Bool := decide (n < 4)
def aesBlockOk (l : List Word) : Bool := l.length == 12
def rateCodeOk (n : Nat) : Bool := decide (n < 16)
/-- A clock monitor (R368). -/
def monitorOk (n : Nat) : Bool := decide (n < 15)
/-- A decode, Survey or tail context, a view. -/
def ctxOk (n : Nat) : Bool := decide (n < 4096)
def viewNumOk (n : Nat) : Bool := decide (n < 256)

/-! ### Reckoners and Hold -/

/-- A core: 128 in each pier, and the spares above them. -/
def coreOk (n : Nat) : Bool := decide (n < 1088)
def dmaChannelOk (n : Nat) : Bool := decide (n < 4)
/-- An address of Hold, a channel, an indication of its dies, the data of one block. -/
def holdAddrOk (n : Nat) : Bool := decide (n < 2 ^ 40)
def channelOk (n : Nat) : Bool := decide (n < 64)
def refreshIndOk (n : Nat) : Bool := decide (n < 3)
def blockDataOk (l : Bytes) : Bool := decide (l.length ≤ 64)
/-- A read's errors: a line of 16, or 16 for none known. -/
def flawOk (f : ReadFlaw) : Bool := f.errs.all fun e => decide (e.1 ≤ 16)

/-! ### The Mooring, the Slipway, the Gangway, power -/

/-- The fields of a frame's header and of a heartbeat (R532). -/
def mrgHeadOk (h : MrgHead) : Bool :=
  decide (h.magic < 65536) && decide (h.version < 256) && decide (h.tideLo < 2 ^ 32) && decide (h.claim < 2 ^ 32) &&
    decide (h.fseq < 65536) && decide (h.count < 65536)
def mrgBeatOk (b : MrgBeat) : Bool :=
  decide (b.role < 256) && decide (b.sync < 256) && decide (b.skipLog2 < 256) && decide (b.tideHi < 2 ^ 32)
/-- The check values of a JOIN_REQ: one for each tenant. -/
def kcvsOk (l : List Nat) : Bool := l.length == 64 && l.all fun n => decide (n < 2 ^ 32)
/-- A kind of unit and an index (R555). -/
def kindOk (n : Nat) : Bool := decide (n < 16)
def unitIndexOk (n : Nat) : Bool := decide (n < 2048)
/-- A provider word of the fuses, and the words a burn got wrong. -/
def fuseWordOk (n : Nat) : Bool := decide (n < 32)
def fuseWordsOk (l : List Nat) : Bool := l.all fun n => decide (n < 1024)
/-- What boot self-test reports. -/
def bootReportOk (r : BootReport) : Bool := r.failing.all fun x => kindOk x.1 && unitIndexOk x.2
/-- A point of the fault injection (R572). -/
def lfiPointOk (n : Nat) : Bool := decide (n < 16)
/-- A VF, a vector of the PF, a vector of a VF, a host ring. -/
def vfOk (n : Nat) : Bool := decide (1 ≤ n) && decide (n ≤ 64)
def vectorOk (n : Nat) : Bool := decide (n < 2048)
def entry5Ok (n : Nat) : Bool := decide (n < 32)
def ringOk (n : Nat) : Bool := decide (n < 64)
/-- An offset in BAR2, the length of an access, the data of a write (R586). -/
def bar2Ok (n : Nat) : Bool := decide (n < 2 ^ 34)
def bar2LengthOk (n : Nat) : Bool := decide (n ≤ 4096)
def bar2DataOk : Option Bytes → Bool
  | some b => decide (b.length ≤ 4096)
  | none => true
/-- A register address: PF BAR0, the VF windows, PF BAR4. -/
def busAddrOk (n : Nat) : Bool := decide (n < 2 ^ 32)
/-- A link width. -/
def linkWidthOk (n : Nat) : Bool := decide (n < 64)
/-- A switched power domain (R603). -/
def domainOk (n : Nat) : Bool := decide (1 ≤ n) && decide (n ≤ 24)
/-- A page of the map, and one of PF BAR0. -/
def pageOk (p : Page) : Bool := pageAt (pageBase p) == some p
def pfPageOk (p : Page) : Bool := pageOk p && p.kind != .vf
/-- The CNT_CLEAR registers. -/
def cntClears : List RegField :=
  [Reg.gwy_CNT_CLEAR, Reg.qay_PORT_CNT_CLEAR, Reg.bwr_CNT_CLEAR, Reg.bnd_CNT_CLEAR, Reg.fry_CNT_CLEAR, Reg.tly_CNT_CLEAR,
   Reg.abx_CNT_CLEAR, Reg.apu_CNT_CLEAR, Reg.rkn_CNT_CLEAR, Reg.vde_CNT_CLEAR, Reg.decCtl_CNT_CLEAR, Reg.svy_CNT_CLEAR,
   Reg.ltr_CNT_CLEAR, Reg.encCtl_CNT_CLEAR, Reg.lcp_CNT_CLEAR, Reg.cmpCtl_CNT_CLEAR, Reg.hld_CNT_CLEAR, Reg.mrg_CNT_CLEAR,
   Reg.slw_CNT_CLEAR, Reg.pwr_CNT_CLEAR]
def cntClearOk (a : Nat) : Bool := cntClears.any (·.hits a)
/-- What the world outside did in a Tide. -/
def tideInOk (x : TideInput) : Bool :=
  x.members.all (fun m => lportOk m.member) && x.clocks.all (fun c => monitorOk c.mon) &&
    x.units.all fun u => kindOk u.kind && unitIndexOk u.idx && eightOk u.state


/-- Whether the operands of a command are ones the hardware can be given. -/
def Instr.wf : Instr → Bool
  | .tideBoundary x => tideInOk x
  | .takeover => true
  | .drainExpire berth => berthOk berth
  | .unbookedTimeout slot => slotOk slot
  | .asmTimeout ctx => ctxOk ctx
  | .pauseExpired lport prio ph => lportOk lport && eightOk prio && phaseOk ph
  | .pfcPauseEnd lport prio ph => lportOk lport && eightOk prio && phaseOk ph
  | .pfcRefresh lport ph => lportOk lport && phaseOk ph
  | .syncLoss ph => phaseOk ph
  | .edgeLoss input ph => refInputOk input && phaseOk ph
  | .ppsWidthEnd ph => phaseOk ph
  | .talkFadeOut basin => basinOk basin
  | .talkFadeIn basin => basinOk basin
  | .xpRampEnd mix entry => mixOk mix && entryOk entry
  | .tallyAgeDrop sub svc => subNodeOk sub && eightOk svc
  | .overrun core ph => coreOk core && phaseOk ph
  | .lfiHoldTimeout point lport ph => lfiPointOk point && lportOk lport && phaseOk ph
  | .thermalSample _ => true
  | .refreshRateRead ch ind => channelOk ch && refreshIndOk ind
  | .retrain ch _ => channelOk ch
  | .patrolScrub addr flaw => holdAddrOk addr && flawOk flaw
  | .selfRefreshEntry ch ph => channelOk ch && phaseOk ph
  | .gateEntry lport ph => lportOk lport && phaseOk ph
  | .gateListStart lport ph => lportOk lport && phaseOk ph
  | .fanLaunch fan ph => fanOk fan && phaseOk ph
  | .fanCopy fan lport slot ph => fanOk fan && lportOk lport && fanSlotOk slot && phaseOk ph
  | .consentSweep berth ph => berthOk berth && phaseOk ph
  | .srSweep berth ph => berthOk berth && phaseOk ph
  | .kfrSend ph => phaseOk ph
  | .essAudioTx flow ph => audioFlowOk flow && phaseOk ph
  | .essVideoFrameTx flow ph => videoFlowOk flow && phaseOk ph
  | .essVideoPktTx flow ph => videoFlowOk flow && phaseOk ph
  | .step6Timeout ph => phaseOk ph
  | .auditSlice kind index _ signature => kindOk kind && unitIndexOk index && tideOk signature
  | .auditLate kind index => kindOk kind && unitIndexOk index
  | .syncTx lport ph => lportOk lport && phaseOk ph
  | .followUpTx lport ph => lportOk lport && phaseOk ph
  | .delayReqTx lport ph => lportOk lport && phaseOk ph
  | .pdelayReqTx lport ph => lportOk lport && phaseOk ph
  | .announceTx lport ph => lportOk lport && phaseOk ph
  | .opStart kind index ph => kindOk kind && unitIndexOk index && phaseOk ph
  | .opComplete slot _ ph => slotOk slot && phaseOk ph
  | .dmaDone core ch ph => coreOk core && dmaChannelOk ch && phaseOk ph
  | .queueStallResume queue => queueOk queue
  | .tallyHandover lport => lportOk lport
  | .txFrameStart lport frac ph => lportOk lport && fracOk frac && phaseOk ph
  | .pfcTx lport ph => lportOk lport && phaseOk ph
  | .hostRingDeliver ring ph => ringOk ring && phaseOk ph
  | .holdReadBlock addr flaw who ph => holdAddrOk addr && flawOk flaw && pageOk who && phaseOk ph
  | .holdWriteBlock addr data who ph => holdAddrOk addr && blockDataOk data && pageOk who && phaseOk ph
  | .fryFbItem ph => phaseOk ph
  | .encFbItem ph => phaseOk ph
  | .rxFrame x => rxInOk x
  | .ppsInEdge frac ph => fracOk frac && phaseOk ph
  | .tevtEdge input _ _ frac ph => tevtInputOk input && fracOk frac && phaseOk ph
  | .hbWireRx _ ph => phaseOk ph
  | .heartbeat head beat ph => mrgHeadOk head && mrgBeatOk beat && phaseOk ph
  | .delta head _ ph => mrgHeadOk head && phaseOk ph
  | .deltaEnd head ph => mrgHeadOk head && phaseOk ph
  | .bulk head _ ph => mrgHeadOk head && phaseOk ph
  | .bulkEnd head ph => mrgHeadOk head && phaseOk ph
  | .rowReq head _ ph => mrgHeadOk head && phaseOk ph
  | .joinReq head kcvs ph => mrgHeadOk head && kcvsOk kcvs && phaseOk ph
  | .aes3BlockRx k status user rate _ => aesOk k && aesBlockOk status && aesBlockOk user && rateCodeOk rate
  | .tdmMaskApply port => eightOk port
  | .aes3CsApply k => aesOk k
  | .clkLost mon ph => monitorOk mon && phaseOk ph
  | .clkLocked mon ph => monitorOk mon && phaseOk ph
  | .linkChange lport _ _ _ signal => lportOk lport && laneMaskOk signal
  | .mrgLinkChange _ => true
  | .pcieLinkChange speed width => laneMaskOk speed && linkWidthOk width
  | .pwrOkLow => true
  | .pwrOkRise straps => laneMaskOk straps
  | .fabricPllLock => true
  | .perstNAssert => true
  | .perstNDeassert speed width => laneMaskOk speed && linkWidthOk width
  | .pllUnlock => true
  | .refclkLoss pair => pairOk pair
  | .holdTrainDone _ => true
  | .initDone => true
  | .bootSelftestDone report => bootReportOk report
  | .domainOnDone domain => domainOk domain
  | .engineFault kind index => kindOk kind && unitIndexOk index
  | .coreFault core => coreOk core
  | .bwrPipeFault index _ => unitIndexOk index
  | .bndPipeFault _ index _ => unitIndexOk index
  | .fryLaneFault index _ => unitIndexOk index
  | .tlyLaneFault index _ => unitIndexOk index
  | .abxMacFault index mixes => unitIndexOk index && mixesOk mixes
  | .abxDressFault index => unitIndexOk index
  | .ctrlFault index => unitIndexOk index
  | .admitStanding port words => port4Ok port && words8Ok words
  | .admitOneshot port words => port4Ok port && words8Ok words
  | .reserveFwd port words => port4Ok port && words8Ok words
  | .withdraw handle => handleOk handle
  | .query _ => true
  | .unbookedSubmit port addr => btcPortOk port && descAddrOk addr
  | .wfgCancel slot => slotOk slot
  | .flowSkip id seq => halfOk id && halfOk seq
  | .dropRest queue lane => queueOk queue && eightOk lane
  | .flush queue => queueOk queue
  | .clearDrop queue => queueOk queue
  | .qcfgWrite queue _ => queueOk queue
  | .berthOpen port words image => btcPortOk port && words8Ok words && words64Ok image
  | .modify port words image => btcPortOk port && words8Ok words && words64Ok image
  | .activate port words => btcPortOk port && words8Ok words
  | .drain port words => btcPortOk port && words8Ok words
  | .quarantine port words => btcPortOk port && words8Ok words
  | .resume port words => btcPortOk port && words8Ok words
  | .berthClose port words => btcPortOk port && words8Ok words
  | .release port words => btcPortOk port && words8Ok words
  | .btcRead port words => btcPortOk port && words8Ok words
  | .pin port words => btcPortOk port && words8Ok words
  | .unpin port words => btcPortOk port && words8Ok words
  | .clearCounters port words => btcPortOk port && words8Ok words
  | .findFree port words => btcPortOk port && words8Ok words
  | .cancelStaged port words => btcPortOk port && words8Ok words
  | .btcPinRowsWrite _ => true
  | .btcTrangeWrite tenant _ => tenantOk tenant
  | .qayModeWrite quay mode => quayOk quay && quayOk mode
  | .gateArm lport bank ph => lportOk lport && pairOk bank && phaseOk ph
  | .txtsPop quay => quayOk quay
  | .cntClear addr => cntClearOk addr
  | .anchor ph => phaseOk ph
  | .tideBreak breakAt newTide breakPhase => tideOk breakAt && tideOk newTide && phase20Ok breakPhase
  | .cancelBreak => true
  | .srcSelWrite _ => true
  | .ptpRoleWrite lport _ => lportOk lport
  | .tevtPop => true
  | .kfrPli berth => berthOk berth
  | .kfrFir berth => berthOk berth
  | .polBurstWrite policer rate burst => halfOk policer && rate24Ok rate && halfOk burst
  | .setSend fn words data => fnOk fn && words3Ok words && words24Ok data
  | .setRecv fn words data => fnOk fn && words3Ok words && words24Ok data
  | .setPair fn words data => fnOk fn && words3Ok words && words24Ok data
  | .setIcePwd fn words data => fnOk fn && words3Ok words && words24Ok data
  | .wrap fn words data => fnOk fn && words3Ok words && words24Ok data
  | .wrapSet fn tenant keyWords => fnOk fn && tenantOk tenant && words16Ok keyWords
  | .wrapLock fn tenant => fnOk fn && tenantOk tenant
  | .wrapZeroize fn tenant => fnOk fn && tenantOk tenant
  | .fanSet port words => pairOk port && words8Ok words
  | .fanClear port words => pairOk port && words8Ok words
  | .groupStream port words => pairOk port && words8Ok words
  | .routeSet port words => pairOk port && words8Ok words
  | .routeClear port words => pairOk port && words8Ok words
  | .rxAdd port words => pairOk port && words8Ok words
  | .rxMod port words => pairOk port && words8Ok words
  | .rxDel port words => pairOk port && words8Ok words
  | .fryRead port words => pairOk port && words8Ok words
  | .nhEntryWrite quay index _ _ => quayOk quay && nhIndexOk index
  | .tallyNodeGo words => words7Ok words
  | .basinSet port words => pairOk port && words8Ok words
  | .inputSet port words => pairOk port && words8Ok words
  | .mixSet port words => pairOk port && words8Ok words
  | .xpSet port words => pairOk port && words8Ok words
  | .xpClear port words => pairOk port && words8Ok words
  | .dressSet port words => pairOk port && words8Ok words
  | .abxRead port words => pairOk port && words8Ok words
  | .essAudioFlowEn flow _ => audioFlowOk flow
  | .essVideoFlowEn _ flow _ => videoFlowOk flow
  | .rknLoad pier image => eightOk pier && word32Ok image
  | .ctxSet ctx addr => ctxOk ctx && word32Ok addr
  | .ctxMod ctx addr => ctxOk ctx && word32Ok addr
  | .ctxReset ctx addr => ctxOk ctx && word32Ok addr
  | .ctxRead ctx addr => ctxOk ctx && word32Ok addr
  | .ctxClear ctx addr => ctxOk ctx && word32Ok addr
  | .svySet ctx addr _ applyTide => ctxOk ctx && word32Ok addr && tideOk applyTide
  | .svyMod ctx addr _ applyTide => ctxOk ctx && word32Ok addr && tideOk applyTide
  | .svyClear ctx addr _ applyTide => ctxOk ctx && word32Ok addr && tideOk applyTide
  | .ltrSet ctx addr _ applyTide => ctxOk ctx && word32Ok addr && tideOk applyTide
  | .ltrMod ctx addr _ applyTide => ctxOk ctx && word32Ok addr && tideOk applyTide
  | .ltrClear ctx addr _ applyTide => ctxOk ctx && word32Ok addr && tideOk applyTide
  | .key ctx addr _ applyTide => ctxOk ctx && word32Ok addr && tideOk applyTide
  | .svyRead ctx addr _ applyTide => ctxOk ctx && word32Ok addr && tideOk applyTide
  | .ltrRead ctx addr _ applyTide => ctxOk ctx && word32Ok addr && tideOk applyTide
  | .viewSet view addr _ applyTide => viewNumOk view && word32Ok addr && tideOk applyTide
  | .viewMod view addr _ applyTide => viewNumOk view && word32Ok addr && tideOk applyTide
  | .layout view addr _ applyTide => viewNumOk view && word32Ok addr && tideOk applyTide
  | .viewClear view addr _ applyTide => viewNumOk view && word32Ok addr && tideOk applyTide
  | .viewRead view addr _ applyTide => viewNumOk view && word32Ok addr && tideOk applyTide
  | .holdEnable => true
  | .injArm _ _ _ => true
  | .injPoison _ _ _ => true
  | .injDisable => true
  | .startActive => true
  | .join => true
  | .forceTakeover => true
  | .leave => true
  | .retire kind index => kindOk kind && unitIndexOk index
  | .auditNow kind index => kindOk kind && unitIndexOk index
  | .fuseBurnRepairs _ => true
  | .fuseBurnRetire _ => true
  | .fuseWriteUser word _ _ => fuseWordOk word
  | .fuseReadUser word => fuseWordOk word
  | .capture gauge _ => byteOk gauge
  | .gaugeClear gauge => byteOk gauge
  | .gaugeEnable gauge _ => byteOk gauge
  | .gaugeSample gauge _ _ => byteOk gauge
  | .lfsrSeedWrite _ => true
  | .vfTenantWrite vf _ => vfOk vf
  | .bar2Access offset length data => bar2Ok offset && bar2LengthOk length && bar2DataOk data
  | .vecRearm vector ph => vectorOk vector && phaseOk ph
  | .vfRearm vf vector ph => vfOk vf && entry5Ok vector && phaseOk ph
  | .msixUnmask fn vector => fnOk fn && vectorOk vector
  | .hostRingEnable ring _ => ringOk ring
  | .vfFlr vf => vfOk vf
  | .pfFlr => true
  | .logEntry => true
  | .applyArm page applyTide => pfPageOk page && tideOk applyTide
  | .applyCancel page => pfPageOk page
  | .softReset page => pfPageOk page
  | .evtPendClear page _ => pageOk page
  | .evtForce page _ => pageOk page
  | .registerWrite addr _ enables ph => busAddrOk addr && laneMaskOk enables && phaseOk ph
  | .bootGo ph => phaseOk ph
  | .ebbEnter ph => phaseOk ph
  | .ebbWake => true
  | .deviceReset => true
  | .pwrDomEnWrite _ => true
  | .rkAdd core _ _ _ _ => coreOk core
  | .rkSub core _ _ _ _ => coreOk core
  | .rkAnd core _ _ _ => coreOk core
  | .rkOr core _ _ _ => coreOk core
  | .rkXor core _ _ _ => coreOk core
  | .rkShl core _ _ _ _ => coreOk core
  | .rkShra core _ _ _ => coreOk core
  | .rkShrl core _ _ _ => coreOk core
  | .rkMin core _ _ _ => coreOk core
  | .rkMax core _ _ _ => coreOk core
  | .rkAbs core _ _ _ => coreOk core
  | .rkNeg core _ _ _ => coreOk core
  | .rkMov core _ _ => coreOk core
  | .rkCmp core _ _ => coreOk core
  | .rkAddi core _ _ _ => coreOk core
  | .rkAndi core _ _ _ => coreOk core
  | .rkOri core _ _ _ => coreOk core
  | .rkXori core _ _ _ => coreOk core
  | .rkMovi core _ _ => coreOk core
  | .rkCmpi core _ _ => coreOk core
  | .rkShli core _ _ _ => coreOk core
  | .rkShrai core _ _ _ => coreOk core
  | .rkShrli core _ _ _ => coreOk core
  | .rkAmovi core _ _ => coreOk core
  | .rkMmovi core _ _ => coreOk core
  | .rkAaddi core _ _ => coreOk core
  | .rkMul core _ _ _ _ _ _ => coreOk core
  | .rkMac core _ _ _ _ _ _ => coreOk core
  | .rkMsu core _ _ _ _ _ _ => coreOk core
  | .rkClr core _ => coreOk core
  | .rkMva core _ _ _ _ => coreOk core
  | .rkMvd core _ _ => coreOk core
  | .rkAdda core _ _ => coreOk core
  | .rkSha core _ _ _ => coreOk core
  | .rkNega core _ _ => coreOk core
  | .rkLd core _ _ _ _ _ _ => coreOk core
  | .rkSt core _ _ _ _ _ _ => coreOk core
  | .rkB core _ => coreOk core
  | .rkBeq core _ => coreOk core
  | .rkBne core _ => coreOk core
  | .rkBlt core _ => coreOk core
  | .rkBge core _ => coreOk core
  | .rkBgt core _ => coreOk core
  | .rkBle core _ => coreOk core
  | .rkBv core _ => coreOk core
  | .rkCall core _ => coreOk core
  | .rkRet core => coreOk core
  | .rkLoop core _ _ _ => coreOk core
  | .rkBreak core _ => coreOk core
  | .rkMovx core _ _ => coreOk core
  | .rkPushx core _ => coreOk core
  | .rkPopx core _ => coreOk core
  | .rkNop core => coreOk core
  | .rkEnd core => coreOk core
  | .rkTake core => coreOk core
  | .rkRti core => coreOk core
  | .rkDma core _ _ => coreOk core
  | .rkDmawait core _ => coreOk core
  | .loadDone pier _ _ => eightOk pier
  | .fuseDone wrong => fuseWordsOk wrong
  | .ebbEntered => true
  | .ebbWoken => true
  | .refclkReturn pair => pairOk pair
  | .ref10mInEdge frac ph => fracOk frac && phaseOk ph
  | .clkEdge mon frac ph => monitorOk mon && fracOk frac && phaseOk ph
  | .vecHoldoffEnd fn vector ph => fnOk fn && vectorOk vector && phaseOk ph
  | .loRead addr ph => busAddrOk addr && phaseOk ph
  | .ferryQueueItem queue fan => queueOk queue && fanOptOk fan
  | .qayPcsFault index => unitIndexOk index

end Sys2Proof
end

