-- ==== Sys2Proof/Machine/Act.lean ====
section
/-!
DEFINITION. How a command changes the state: its effect on the device, or on the device and the fuses; the queue is the
step's. A meaning gives `act` what `Instr.wf` asks of its operands.
-/

namespace Sys2Proof.Machine

/-- An effect on the device. -/
def always (s : State) (f : Dev → Dev) : Host.Outcome State Fault Refusal := .next { s with dev := f s.dev }

/-- A command with an effect on the device; `ok` says whether it is one the hardware can be given. -/
def act (ok : Bool) (s : State) (f : Dev → Dev) : Host.Outcome State Fault Refusal :=
  if ok then always s f else .fault .illFormed

/-- A command with an effect on the fuses too. -/
def actFuse (ok : Bool) (s : State) (f : Fuse → Dev → Fuse × Dev) : Host.Outcome State Fault Refusal :=
  if ok then
    let x := f s.fuse s.dev
    .next { s with fuse := x.1, dev := x.2 }
  else .fault .illFormed

end Sys2Proof.Machine
end

