-- ==== Sys2Proof/Machine/CmdAudio.lean ====
section
/-!
DEFINITION. The meanings of the commands of the Abacus, the audio ports, essence audio and their clocks (chapters 10 and 11).
-/

namespace Sys2Proof.Machine

/-- TALK_FADE_OUT (R347). -/
def execTalkFadeOut (basin : Nat) (s : State) : Host.Outcome State Fault Refusal :=
  act (basinOk basin) s fun d => d.talkFadeOut basin

/-- TALK_FADE_IN (R347). -/
def execTalkFadeIn (basin : Nat) (s : State) : Host.Outcome State Fault Refusal :=
  act (basinOk basin) s fun d => d.talkFadeIn basin

/-- XP_RAMP_END (R340). -/
def execXpRampEnd (mix entry : Nat) (s : State) : Host.Outcome State Fault Refusal :=
  act (mixOk mix && entryOk entry) s fun d => d.xpRampEnd mix entry

/-- ESS_AUDIO_TX (R372). -/
def execEssAudioTx (flow ph : Nat) (s : State) : Host.Outcome State Fault Refusal :=
  act (audioFlowOk flow && phaseOk ph) s fun d => (d.atPhase ph).essAudioTx flow

/-- AES3_BLOCK_RX (R364). -/
def execAes3BlockRx (k : Nat) (status user : List Word) (rate : Nat) (clean : Bool) (s : State) :
    Host.Outcome State Fault Refusal :=
  act (aesOk k && aesBlockOk status && aesBlockOk user && rateCodeOk rate) s fun d => d.aesWords k status user rate clean

/-- TDM_MASK_APPLY (R362). -/
def execTdmMaskApply (port : Nat) (s : State) : Host.Outcome State Fault Refusal :=
  act (eightOk port) s fun d => d.tdmMaskApply port

/-- AES3_CS_APPLY (R365). -/
def execAes3CsApply (k : Nat) (s : State) : Host.Outcome State Fault Refusal :=
  act (aesOk k) s fun d => d.aesCsApply k

/-- CLK_LOST (R368). -/
def execClkLost (mon ph : Nat) (s : State) : Host.Outcome State Fault Refusal :=
  act (monitorOk mon && phaseOk ph) s fun d => (d.atPhase ph).clkLost mon

/-- CLK_LOCKED (R368). -/
def execClkLocked (mon ph : Nat) (s : State) : Host.Outcome State Fault Refusal :=
  act (monitorOk mon && phaseOk ph) s fun d => (d.atPhase ph).clkLocked mon

/-- BASIN_SET (R352). -/
def execBasinSet (port : Nat) (words : List Word) (s : State) : Host.Outcome State Fault Refusal :=
  act (pairOk port && words8Ok words) s fun d => d.abxCmd 1 port words

/-- INPUT_SET (R322). -/
def execInputSet (port : Nat) (words : List Word) (s : State) : Host.Outcome State Fault Refusal :=
  act (pairOk port && words8Ok words) s fun d => d.abxCmd 2 port words

/-- MIX_SET (R352). -/
def execMixSet (port : Nat) (words : List Word) (s : State) : Host.Outcome State Fault Refusal :=
  act (pairOk port && words8Ok words) s fun d => d.abxCmd 3 port words

/-- XP_SET (R327). -/
def execXpSet (port : Nat) (words : List Word) (s : State) : Host.Outcome State Fault Refusal :=
  act (pairOk port && words8Ok words) s fun d => d.abxCmd 4 port words

/-- XP_CLEAR (R340). -/
def execXpClear (port : Nat) (words : List Word) (s : State) : Host.Outcome State Fault Refusal :=
  act (pairOk port && words8Ok words) s fun d => d.abxCmd 5 port words

/-- DRESS_SET (R349). -/
def execDressSet (port : Nat) (words : List Word) (s : State) : Host.Outcome State Fault Refusal :=
  act (pairOk port && words8Ok words) s fun d => d.abxCmd 6 port words

/-- ABX_READ (R352). -/
def execAbxRead (port : Nat) (words : List Word) (s : State) : Host.Outcome State Fault Refusal :=
  act (pairOk port && words8Ok words) s fun d => d.abxCmd 7 port words

/-- ESS_AUDIO_FLOW_EN (R372). -/
def execEssAudioFlowEn (flow : Nat) (word : Word) (s : State) : Host.Outcome State Fault Refusal :=
  act (audioFlowOk flow) s fun d => d.written essPage (Reg.ess_ATX_EN.addrAt [flow]) fun d => d.essAudioFlowEn flow word

/-- CLK_EDGE (R368). -/
def execClkEdge (mon frac ph : Nat) (s : State) : Host.Outcome State Fault Refusal :=
  act (monitorOk mon && fracOk frac && phaseOk ph) s fun d => (d.atPhase ph).clkEdge mon frac

end Sys2Proof.Machine
end

