-- ==== Sys2Proof/Machine/CmdBerth.lean ====
section
/-!
DEFINITION. The meanings of the commands of the Berth Table (chapter 4).
-/

namespace Sys2Proof.Machine

/-- DRAIN_EXPIRE (R133). -/
def execDrainExpire (berth : Nat) (s : State) : Host.Outcome State Fault Refusal :=
  act (berthOk berth) s fun d => d.drainExpire berth

/-- OPEN (R147). -/
def execBerthOpen (port : BtcPort) (words image : List Word) (s : State) : Host.Outcome State Fault Refusal :=
  act (btcPortOk port && words8Ok words && words64Ok image) s fun d => d.btcCmd 1 port words (some image)

/-- MODIFY (R148). -/
def execModify (port : BtcPort) (words image : List Word) (s : State) : Host.Outcome State Fault Refusal :=
  act (btcPortOk port && words8Ok words && words64Ok image) s fun d => d.btcCmd 2 port words (some image)

/-- ACTIVATE (R134). -/
def execActivate (port : BtcPort) (words : List Word) (s : State) : Host.Outcome State Fault Refusal :=
  act (btcPortOk port && words8Ok words) s fun d => d.btcCmd 3 port words none

/-- DRAIN (R147). -/
def execDrain (port : BtcPort) (words : List Word) (s : State) : Host.Outcome State Fault Refusal :=
  act (btcPortOk port && words8Ok words) s fun d => d.btcCmd 4 port words none

/-- QUARANTINE (R147). -/
def execQuarantine (port : BtcPort) (words : List Word) (s : State) : Host.Outcome State Fault Refusal :=
  act (btcPortOk port && words8Ok words) s fun d => d.btcCmd 5 port words none

/-- RESUME (R135). -/
def execResume (port : BtcPort) (words : List Word) (s : State) : Host.Outcome State Fault Refusal :=
  act (btcPortOk port && words8Ok words) s fun d => d.btcCmd 6 port words none

/-- CLOSE (R147). -/
def execBerthClose (port : BtcPort) (words : List Word) (s : State) : Host.Outcome State Fault Refusal :=
  act (btcPortOk port && words8Ok words) s fun d => d.btcCmd 7 port words none

/-- RELEASE (R147). -/
def execRelease (port : BtcPort) (words : List Word) (s : State) : Host.Outcome State Fault Refusal :=
  act (btcPortOk port && words8Ok words) s fun d => d.btcCmd 8 port words none

/-- BTC_READ (R147). -/
def execBtcRead (port : BtcPort) (words : List Word) (s : State) : Host.Outcome State Fault Refusal :=
  act (btcPortOk port && words8Ok words) s fun d => d.btcCmd 9 port words none

/-- PIN (R142). -/
def execPin (port : BtcPort) (words : List Word) (s : State) : Host.Outcome State Fault Refusal :=
  act (btcPortOk port && words8Ok words) s fun d => d.btcCmd 10 port words none

/-- UNPIN (R142). -/
def execUnpin (port : BtcPort) (words : List Word) (s : State) : Host.Outcome State Fault Refusal :=
  act (btcPortOk port && words8Ok words) s fun d => d.btcCmd 11 port words none

/-- CLEAR_COUNTERS (R147). -/
def execClearCounters (port : BtcPort) (words : List Word) (s : State) : Host.Outcome State Fault Refusal :=
  act (btcPortOk port && words8Ok words) s fun d => d.btcCmd 12 port words none

/-- FIND_FREE (R147). -/
def execFindFree (port : BtcPort) (words : List Word) (s : State) : Host.Outcome State Fault Refusal :=
  act (btcPortOk port && words8Ok words) s fun d => d.btcCmd 13 port words none

/-- CANCEL_STAGED (R147). -/
def execCancelStaged (port : BtcPort) (words : List Word) (s : State) : Host.Outcome State Fault Refusal :=
  act (btcPortOk port && words8Ok words) s fun d => d.btcCmd 14 port words none

/-- BTC_PIN_ROWS_WRITE (R140). -/
def execBtcPinRowsWrite (value : Word) (s : State) : Host.Outcome State Fault Refusal :=
  always s fun d => d.written btcPage Reg.btc_PIN_ROWS.addr fun d => d.pinRowsWrite value.toNat

/-- BTC_TRANGE_WRITE (R154). -/
def execBtcTrangeWrite (tenant : Nat) (value : Word) (s : State) : Host.Outcome State Fault Refusal :=
  act (tenantOk tenant) s fun d =>
    d.written btcPage (Reg.btc_TRANGE_BASE.addrAt [tenant]) fun d => d.trangeWrite tenant value.toNat

end Sys2Proof.Machine
end

