-- ==== Sys2Proof/Machine/CmdBond.lean ====
section
/-!
DEFINITION. The meanings of the commands of keys (chapter 8).
-/

namespace Sys2Proof.Machine

/-- SET_SEND (R264). -/
def execSetSend (fn : Fn) (words data : List Word) (s : State) : Host.Outcome State Fault Refusal :=
  act (fnOk fn && words3Ok words && words24Ok data) s fun d => d.keyCmd 1 fn words data

/-- SET_RECV (R264). -/
def execSetRecv (fn : Fn) (words data : List Word) (s : State) : Host.Outcome State Fault Refusal :=
  act (fnOk fn && words3Ok words && words24Ok data) s fun d => d.keyCmd 2 fn words data

/-- SET_PAIR (R264). -/
def execSetPair (fn : Fn) (words data : List Word) (s : State) : Host.Outcome State Fault Refusal :=
  act (fnOk fn && words3Ok words && words24Ok data) s fun d => d.keyCmd 3 fn words data

/-- SET_ICE_PWD (R264). -/
def execSetIcePwd (fn : Fn) (words data : List Word) (s : State) : Host.Outcome State Fault Refusal :=
  act (fnOk fn && words3Ok words && words24Ok data) s fun d => d.keyCmd 4 fn words data

/-- WRAP (R264). -/
def execWrap (fn : Fn) (words data : List Word) (s : State) : Host.Outcome State Fault Refusal :=
  act (fnOk fn && words3Ok words && words24Ok data) s fun d => d.keyCmd 5 fn words data

/-- SET (R261). -/
def execWrapSet (fn : Fn) (tenant : Nat) (keyWords : List Word) (s : State) : Host.Outcome State Fault Refusal :=
  act (fnOk fn && tenantOk tenant && words16Ok keyWords) s fun d => d.wrapKeyCmd fn tenant (some keyWords) .set

/-- LOCK (R261). -/
def execWrapLock (fn : Fn) (tenant : Nat) (s : State) : Host.Outcome State Fault Refusal :=
  act (fnOk fn && tenantOk tenant) s fun d => d.wrapKeyCmd fn tenant none .lock

/-- ZEROIZE (R261). -/
def execWrapZeroize (fn : Fn) (tenant : Nat) (s : State) : Host.Outcome State Fault Refusal :=
  act (fnOk fn && tenantOk tenant) s fun d => d.wrapKeyCmd fn tenant none .zeroize

end Sys2Proof.Machine
end

