-- ==== Sys2Proof/Machine/CmdCore.lean ====
section
/-!
DEFINITION. The meanings of the commands of Reckoner images, time limits and DMA (chapter 12).
-/

namespace Sys2Proof.Machine

/-- OVERRUN (R394). -/
def execOverrun (core ph : Nat) (s : State) : Host.Outcome State Fault Refusal :=
  act (coreOk core && phaseOk ph) s fun d => (d.atPhase ph).overrun core

/-- DMA_DONE (R406). -/
def execDmaDone (core ch ph : Nat) (s : State) : Host.Outcome State Fault Refusal :=
  act (coreOk core && dmaChannelOk ch && phaseOk ph) s fun d => (d.atPhase ph).dmaDone core ch

/-- RKN_LOAD (R408). -/
def execRknLoad (pier image : Nat) (s : State) : Host.Outcome State Fault Refusal :=
  act (eightOk pier && word32Ok image) s fun d =>
    d.written ⟨.rkn, pier⟩ (Reg.rkn_GO.addrAt [pier]) fun d => (d.set Reg.rkn_IMG_ADDR image [pier]).rknLoad pier

/-- LOAD_DONE (R408). -/
def execLoadDone (pier : Nat) (failed : Bool) (inits : List CoreInit) (s : State) : Host.Outcome State Fault Refusal :=
  act (eightOk pier) s fun d => (d.loadDone pier failed inits).step6Check

end Sys2Proof.Machine
end

