-- ==== Sys2Proof/Machine/CmdFerry.lean ====
section
/-!
DEFINITION. The meanings of the commands of the Ferry and the Tally (chapter 9).
-/

namespace Sys2Proof.Machine

/-- TALLY_AGE_DROP (R310). -/
def execTallyAgeDrop (sub svc : Nat) (s : State) : Host.Outcome State Fault Refusal :=
  act (subNodeOk sub && eightOk svc) s fun d => d.tallyAgeDrop sub svc

/-- FAN_LAUNCH (R292). -/
def execFanLaunch (fan ph : Nat) (s : State) : Host.Outcome State Fault Refusal :=
  act (fanOk fan && phaseOk ph) s fun d => (d.atPhase ph).fanLaunch fan

/-- FAN_COPY (R297). -/
def execFanCopy (fan lport slot ph : Nat) (s : State) : Host.Outcome State Fault Refusal :=
  act (fanOk fan && lportOk lport && fanSlotOk slot && phaseOk ph) s fun d => (d.atPhase ph).fanCopy fan lport slot

/-- SR_SWEEP (R304). -/
def execSrSweep (berth ph : Nat) (s : State) : Host.Outcome State Fault Refusal :=
  act (berthOk berth && phaseOk ph) s fun d => (d.atPhase ph).srSweep berth

/-- TALLY_HANDOVER (R309). -/
def execTallyHandover (lport : Nat) (s : State) : Host.Outcome State Fault Refusal :=
  act (lportOk lport) s fun d => d.tallyHandover lport

/-- FRY_FB_ITEM (R291). -/
def execFryFbItem (ph : Nat) (s : State) : Host.Outcome State Fault Refusal :=
  act (phaseOk ph) s fun d => (d.atPhase ph).fryFbItem

/-- FAN_SET (R292). -/
def execFanSet (port : Nat) (words : List Word) (s : State) : Host.Outcome State Fault Refusal :=
  act (pairOk port && words8Ok words) s fun d => d.fryCmd 1 port words

/-- FAN_CLEAR (R313). -/
def execFanClear (port : Nat) (words : List Word) (s : State) : Host.Outcome State Fault Refusal :=
  act (pairOk port && words8Ok words) s fun d => d.fryCmd 2 port words

/-- GROUP_STREAM (R281). -/
def execGroupStream (port : Nat) (words : List Word) (s : State) : Host.Outcome State Fault Refusal :=
  act (pairOk port && words8Ok words) s fun d => d.fryCmd 3 port words

/-- ROUTE_SET (R280). -/
def execRouteSet (port : Nat) (words : List Word) (s : State) : Host.Outcome State Fault Refusal :=
  act (pairOk port && words8Ok words) s fun d => d.fryCmd 4 port words

/-- ROUTE_CLEAR (R313). -/
def execRouteClear (port : Nat) (words : List Word) (s : State) : Host.Outcome State Fault Refusal :=
  act (pairOk port && words8Ok words) s fun d => d.fryCmd 5 port words

/-- RX_ADD (R282). -/
def execRxAdd (port : Nat) (words : List Word) (s : State) : Host.Outcome State Fault Refusal :=
  act (pairOk port && words8Ok words) s fun d => d.fryCmd 6 port words

/-- RX_MOD (R313). -/
def execRxMod (port : Nat) (words : List Word) (s : State) : Host.Outcome State Fault Refusal :=
  act (pairOk port && words8Ok words) s fun d => d.fryCmd 7 port words

/-- RX_DEL (R313). -/
def execRxDel (port : Nat) (words : List Word) (s : State) : Host.Outcome State Fault Refusal :=
  act (pairOk port && words8Ok words) s fun d => d.fryCmd 8 port words

/-- FRY_READ (R313). -/
def execFryRead (port : Nat) (words : List Word) (s : State) : Host.Outcome State Fault Refusal :=
  act (pairOk port && words8Ok words) s fun d => d.fryCmd 9 port words

/-- NH_ENTRY_WRITE (R314). -/
def execNhEntryWrite (quay index : Nat) (lo hi : Word) (s : State) : Host.Outcome State Fault Refusal :=
  act (quayOk quay && nhIndexOk index) s fun d =>
    d.written fryPage Reg.fry_NH_VALID.addr fun d =>
      (((d.set Reg.fry_NH_QUAY quay).set Reg.fry_NH_INDEX index).set Reg.fry_NH_MAC_LO lo.toNat).nhWrite hi

/-- TALLY_NODE_GO (R316). -/
def execTallyNodeGo (words : List Word) (s : State) : Host.Outcome State Fault Refusal :=
  act (words7Ok words) s fun d =>
    d.written tlyPage Reg.tly_NODE_GO.addr fun d => (d.fillWords tlyPage Reg.tly_NODE_SUB.addr words).nodeGo

/-- FERRY_QUEUE_ITEM (R294). -/
def execFerryQueueItem (queue : Nat) (fan : Option Nat) (s : State) : Host.Outcome State Fault Refusal :=
  act (queueOk queue && fanOptOk fan) s fun d => d.ferryItem queue fan

end Sys2Proof.Machine
end

