-- ==== Sys2Proof/Machine/CmdHold.lean ====
section
/-!
DEFINITION. The meanings of the commands of Hold (chapter 16).
-/

namespace Sys2Proof.Machine

/-- REFRESH_RATE_READ (R517). -/
def execRefreshRateRead (ch ind : Nat) (s : State) : Host.Outcome State Fault Refusal :=
  act (channelOk ch && refreshIndOk ind) s fun d => d.refreshRate ch ind

/-- RETRAIN (R518). -/
def execRetrain (ch : Nat) (ok : Bool) (s : State) : Host.Outcome State Fault Refusal :=
  act (channelOk ch) s fun d => d.retrain ch ok

/-- PATROL_SCRUB (R519). -/
def execPatrolScrub (addr : Nat) (flaw : ReadFlaw) (s : State) : Host.Outcome State Fault Refusal :=
  act (holdAddrOk addr && flawOk flaw) s fun d => (d.patrolScrub addr flaw).spotRows d

/-- SELF_REFRESH_ENTRY (R520). -/
def execSelfRefreshEntry (ch ph : Nat) (s : State) : Host.Outcome State Fault Refusal :=
  act (channelOk ch && phaseOk ph) s fun d => (d.atPhase ph).selfRefresh ch

/-- HOLD_READ (R509). -/
def execHoldReadBlock (addr : Nat) (flaw : ReadFlaw) (who : Page) (ph : Nat) (s : State) : Host.Outcome State Fault Refusal :=
  act (holdAddrOk addr && flawOk flaw && pageOk who && phaseOk ph) s fun d =>
    ((d.atPhase ph).holdReadOne addr flaw who).spotRows d

/-- HOLD_WRITE (R507). -/
def execHoldWriteBlock (addr : Nat) (data : Bytes) (who : Page) (ph : Nat) (s : State) : Host.Outcome State Fault Refusal :=
  act (holdAddrOk addr && blockDataOk data && pageOk who && phaseOk ph) s fun d => (d.atPhase ph).holdWriteOne addr data who

/-- HOLD_ENABLE (R513). -/
def execHoldEnable (s : State) : Host.Outcome State Fault Refusal :=
  always s fun d => d.written hldPage Reg.hld_EN.addr fun d => d.holdEnable

/-- INJ_ARM (R528). -/
def execInjArm (ctl lo hi : Word) (s : State) : Host.Outcome State Fault Refusal :=
  always s fun d => d.written hldPage Reg.hld_ARM.addr fun d => d.injCmd ctl lo hi 1

/-- INJ_POISON (R528). -/
def execInjPoison (ctl lo hi : Word) (s : State) : Host.Outcome State Fault Refusal :=
  always s fun d => d.written hldPage Reg.hld_ARM.addr fun d => d.injCmd ctl lo hi 2

/-- INJ_DISABLE (R528). -/
def execInjDisable (s : State) : Host.Outcome State Fault Refusal :=
  always s fun d => d.written hldPage Reg.hld_EN.addr fun d => d.injDisable

end Sys2Proof.Machine
end

