-- ==== Sys2Proof/Machine/CmdHost.lean ====
section
/-!
DEFINITION. The meanings of the commands of the Gangway and the registers (chapter 19).
-/

namespace Sys2Proof.Machine

/-- HOST_RING_DELIVER (R596). -/
def execHostRingDeliver (ring ph : Nat) (s : State) : Host.Outcome State Fault Refusal :=
  act (ringOk ring && phaseOk ph) s fun d => (d.atPhase ph).hostRingDeliver ring

/-- PCIE_LINK_CHANGE (R601). -/
def execPcieLinkChange (speed width : Nat) (s : State) : Host.Outcome State Fault Refusal :=
  act (laneMaskOk speed && linkWidthOk width) s fun d => d.pcieLinkChange speed width

/-- CNT_CLEAR (R188). -/
def execCntClear (addr : Nat) (s : State) : Host.Outcome State Fault Refusal :=
  act (cntClearOk addr) s fun d => Dev.registerWrite s.fuse d addr 1 0xF

/-- VF_TENANT_WRITE (R587). -/
def execVfTenantWrite (vf : Nat) (word : Word) (s : State) : Host.Outcome State Fault Refusal :=
  act (vfOk vf) s fun d => d.written gwyPage (Reg.gwy_VF_TENANT.addrAt [vf - 1]) fun d => d.vfTenantWrite vf word

/-- BAR2_ACCESS (R586). -/
def execBar2Access (offset length : Nat) (data : Option Bytes) (s : State) : Host.Outcome State Fault Refusal :=
  act (bar2Ok offset && bar2LengthOk length && bar2DataOk data) s fun d => d.bar2Access offset length data

/-- VEC_REARM (R594). -/
def execVecRearm (vector ph : Nat) (s : State) : Host.Outcome State Fault Refusal :=
  act (vectorOk vector && phaseOk ph) s fun d =>
    (d.atPhase ph).written gwyPage Reg.gwy_VEC_REARM.addr fun d => d.vecRearm vector

/-- VF_REARM (R602). -/
def execVfRearm (vf vector ph : Nat) (s : State) : Host.Outcome State Fault Refusal :=
  act (vfOk vf && entry5Ok vector && phaseOk ph) s fun d =>
    (d.atPhase ph).written gwyPage (Reg.gwy_VF_REARM.addrAt [vf - 1]) fun d => d.vfRearm vf vector

/-- MSIX_UNMASK (R594). -/
def execMsixUnmask (fn : Fn) (vector : Nat) (s : State) : Host.Outcome State Fault Refusal :=
  act (fnOk fn && vectorOk vector) s fun d => d.written gwyPage (msixEntry fn vector) fun d => d.msixUnmask fn vector

/-- HOST_RING_ENABLE (R596). -/
def execHostRingEnable (ring : Nat) (word : Word) (s : State) : Host.Outcome State Fault Refusal :=
  act (ringOk ring) s fun d => d.written gwyPage (Reg.gwy_RING_EN.addrAt [ring]) fun d => d.hostRingWrite ring word

/-- VF_FLR (R590). -/
def execVfFlr (vf : Nat) (s : State) : Host.Outcome State Fault Refusal :=
  act (vfOk vf) s fun d => d.vfFlr vf

/-- PF_FLR (R590). -/
def execPfFlr (s : State) : Host.Outcome State Fault Refusal :=
  always s fun d => d.pfFlr

/-- LOG_ENTRY (R598). -/
def execLogEntry (s : State) : Host.Outcome State Fault Refusal :=
  always s fun d => d.logEntry

/-- APPLY_ARM (R54). -/
def execApplyArm (page : Page) (applyTide : Nat) (s : State) : Host.Outcome State Fault Refusal :=
  act (pfPageOk page && tideOk applyTide) s fun d =>
    d.written page (pageBase page + 0x028) fun d => (d.setApplyTide page applyTide).applyArm page

/-- APPLY_CANCEL (R14). -/
def execApplyCancel (page : Page) (s : State) : Host.Outcome State Fault Refusal :=
  act (pfPageOk page) s fun d => d.written page (pageBase page + 0x028) fun d => d.applyCancelled page

/-- SOFT_RESET (R591). -/
def execSoftReset (page : Page) (s : State) : Host.Outcome State Fault Refusal :=
  act (pfPageOk page) s fun d => d.written page (pageBase page + 0x008) fun d => d.softReset page

/-- EVT_PEND_CLEAR (R592). -/
def execEvtPendClear (page : Page) (mask : Word) (s : State) : Host.Outcome State Fault Refusal :=
  act (pageOk page) s fun d => d.written page (pageBase page + 0x018) fun d => d.evtPendClear page mask.toNat

/-- EVT_FORCE (R591). -/
def execEvtForce (page : Page) (mask : Word) (s : State) : Host.Outcome State Fault Refusal :=
  act (pageOk page) s fun d => d.written page (pageBase page + 0x01C) fun d => d.evtForce page mask.toNat

/-- REGISTER_WRITE (R11). -/
def execRegisterWrite (addr : Nat) (word : Word) (enables ph : Nat) (s : State) : Host.Outcome State Fault Refusal :=
  act (busAddrOk addr && laneMaskOk enables && phaseOk ph) s fun d => Dev.registerWrite s.fuse (d.atPhase ph) addr word enables

/-- VEC_HOLDOFF_END (R594). -/
def execVecHoldoffEnd (fn : Fn) (vector ph : Nat) (s : State) : Host.Outcome State Fault Refusal :=
  act (fnOk fn && vectorOk vector && phaseOk ph) s fun d => (d.atPhase ph).vecHoldoffEnd fn vector

/-- LO_READ (R9). -/
def execLoRead (addr ph : Nat) (s : State) : Host.Outcome State Fault Refusal :=
  act (busAddrOk addr && phaseOk ph) s fun d => (d.atPhase ph).loRead addr

end Sys2Proof.Machine
end

