-- ==== Sys2Proof/Machine/CmdIngress.lean ====
section
/-!
DEFINITION. The meanings of the commands of frames received, consent, keyframe requests and policers (chapters 5 and 7).
-/

namespace Sys2Proof.Machine

/-- CONSENT_SWEEP (R233). -/
def execConsentSweep (berth ph : Nat) (s : State) : Host.Outcome State Fault Refusal :=
  act (berthOk berth && phaseOk ph) s fun d => (d.atPhase ph).consentSweep berth

/-- KFR_SEND (R241). -/
def execKfrSend (ph : Nat) (s : State) : Host.Outcome State Fault Refusal :=
  act (phaseOk ph) s fun d => (d.atPhase ph).kfrSend

/-- RX_FRAME (R166). -/
def execRxFrame (x : RxInput) (s : State) : Host.Outcome State Fault Refusal :=
  act (rxInOk x) s fun d => (d.atPhase x.phase).rxFrame x

/-- KFR_PLI (R240). -/
def execKfrPli (berth : Nat) (s : State) : Host.Outcome State Fault Refusal :=
  act (berthOk berth) s fun d => d.written bwrPage Reg.bwr_KFR_BERTH.addr fun d => d.kfrHost false berth

/-- KFR_FIR (R240). -/
def execKfrFir (berth : Nat) (s : State) : Host.Outcome State Fault Refusal :=
  act (berthOk berth) s fun d => d.written bwrPage Reg.bwr_KFR_BERTH.addr fun d => d.kfrHost true berth

/-- POL_BURST_WRITE (R223). -/
def execPolBurstWrite (policer rate burst : Nat) (s : State) : Host.Outcome State Fault Refusal :=
  act (halfOk policer && rate24Ok rate && halfOk burst) s fun d =>
    d.written bwrPage Reg.bwr_POL_BURST.addr fun d => ((d.set Reg.bwr_POL_SEL policer).set Reg.bwr_POL_RATE rate).polBurst burst

end Sys2Proof.Machine
end

