-- ==== Sys2Proof/Machine/CmdPower.lean ====
section
/-!
DEFINITION. The meanings of the commands of power, reset and start-up (chapter 20).
-/

namespace Sys2Proof.Machine

/-- THERMAL_SAMPLE (R614). -/
def execThermalSample (temp : Int) (s : State) : Host.Outcome State Fault Refusal :=
  always s fun d => Dev.thermalSample s.fuse d temp

/-- STEP6_TIMEOUT (R620). -/
def execStep6Timeout (ph : Nat) (s : State) : Host.Outcome State Fault Refusal :=
  act (phaseOk ph) s fun d => (d.atPhase ph).step6Timeout

/-- PWR_OK_LOW (R615). -/
def execPwrOkLow (s : State) : Host.Outcome State Fault Refusal :=
  always s fun d => d.pwrOkLow

/-- PWR_OK_RISE (R617). -/
def execPwrOkRise (straps : Nat) (s : State) : Host.Outcome State Fault Refusal :=
  act (laneMaskOk straps) s fun d => d.pwrOkRise straps

/-- FABRIC_PLL_LOCK (R619). -/
def execFabricPllLock (s : State) : Host.Outcome State Fault Refusal :=
  always s fun d => Dev.fabricPllLock s.fuse d

/-- PERST_N_ASSERT (R618). -/
def execPerstNAssert (s : State) : Host.Outcome State Fault Refusal :=
  always s fun d => Dev.perstAssert s.fuse d

/-- PERST_N_DEASSERT (R619). -/
def execPerstNDeassert (speed width : Nat) (s : State) : Host.Outcome State Fault Refusal :=
  act (laneMaskOk speed && linkWidthOk width) s fun d => d.perstDeassert speed width

/-- PLL_UNLOCK (R613). -/
def execPllUnlock (s : State) : Host.Outcome State Fault Refusal :=
  always s fun d => d.pllUnlock

/-- REFCLK_LOSS (R613). -/
def execRefclkLoss (pair : Nat) (s : State) : Host.Outcome State Fault Refusal :=
  act (pairOk pair) s fun d => d.refclkLoss pair

/-- HOLD_TRAIN_DONE (R619). -/
def execHoldTrainDone (ok : Bool) (s : State) : Host.Outcome State Fault Refusal :=
  always s fun d => d.holdTrainDone ok

/-- INIT_DONE (R516). -/
def execInitDone (s : State) : Host.Outcome State Fault Refusal :=
  always s fun d => d.initDone

/-- BOOT_SELFTEST_DONE (R557). -/
def execBootSelftestDone (report : BootReport) (s : State) : Host.Outcome State Fault Refusal :=
  act (bootReportOk report) s fun d => d.selftestDone report

/-- DOMAIN_ON_DONE (R606). -/
def execDomainOnDone (domain : Nat) (s : State) : Host.Outcome State Fault Refusal :=
  act (domainOk domain) s fun d => d.domainOnDone domain

/-- BOOT_GO (R619). -/
def execBootGo (ph : Nat) (s : State) : Host.Outcome State Fault Refusal :=
  act (phaseOk ph) s fun d => (d.atPhase ph).bootGo

/-- EBB_ENTER (R622). -/
def execEbbEnter (ph : Nat) (s : State) : Host.Outcome State Fault Refusal :=
  act (phaseOk ph) s fun d => (d.atPhase ph).ebbEnter

/-- EBB_WAKE (R624). -/
def execEbbWake (s : State) : Host.Outcome State Fault Refusal :=
  always s fun d => d.ebbWake

/-- DEVICE_RESET (R615). -/
def execDeviceReset (s : State) : Host.Outcome State Fault Refusal :=
  always s fun d => Dev.deviceReset s.fuse d

/-- PWR_DOM_EN_WRITE (R605). -/
def execPwrDomEnWrite (word : Word) (s : State) : Host.Outcome State Fault Refusal :=
  always s fun d => d.domEnWrite word

/-- EBB_ENTERED (R622). -/
def execEbbEntered (s : State) : Host.Outcome State Fault Refusal :=
  always s fun d => d.ebbEntered

/-- EBB_WOKEN (R624). -/
def execEbbWoken (s : State) : Host.Outcome State Fault Refusal :=
  always s fun d => d.ebbWoken

/-- REFCLK_RETURN (R613). -/
def execRefclkReturn (pair : Nat) (s : State) : Host.Outcome State Fault Refusal :=
  act (pairOk pair) s fun d => d.refclkReturn pair

end Sys2Proof.Machine
end

