-- ==== Sys2Proof/Machine/CmdQuay.lean ====
section
/-!
DEFINITION. The meanings of the commands of the Quays (chapter 5).
-/

namespace Sys2Proof.Machine

/-- PAUSE_EXPIRED (R128). -/
def execPauseExpired (lport prio ph : Nat) (s : State) : Host.Outcome State Fault Refusal :=
  act (lportOk lport && eightOk prio && phaseOk ph) s fun d => (d.atPhase ph).pauseExpired lport prio

/-- PFC_PAUSE_END (R175). -/
def execPfcPauseEnd (lport prio ph : Nat) (s : State) : Host.Outcome State Fault Refusal :=
  act (lportOk lport && eightOk prio && phaseOk ph) s fun d => (d.atPhase ph).pauseEnd lport prio

/-- PFC_REFRESH (R174). -/
def execPfcRefresh (lport ph : Nat) (s : State) : Host.Outcome State Fault Refusal :=
  act (lportOk lport && phaseOk ph) s fun d => (d.atPhase ph).pfcRefresh lport

/-- GATE_ENTRY (R182). -/
def execGateEntry (lport ph : Nat) (s : State) : Host.Outcome State Fault Refusal :=
  act (lportOk lport && phaseOk ph) s fun d => (d.atPhase ph).gateEntry lport

/-- GATE_LIST_START (R180). -/
def execGateListStart (lport ph : Nat) (s : State) : Host.Outcome State Fault Refusal :=
  act (lportOk lport && phaseOk ph) s fun d => (d.atPhase ph).gateListStart lport

/-- TX_FRAME_START (R170). -/
def execTxFrameStart (lport frac ph : Nat) (s : State) : Host.Outcome State Fault Refusal :=
  act (lportOk lport && fracOk frac && phaseOk ph) s fun d => (d.atPhase ph).txFrameStart lport frac

/-- PFC_TX (R171). -/
def execPfcTx (lport ph : Nat) (s : State) : Host.Outcome State Fault Refusal :=
  act (lportOk lport && phaseOk ph) s fun d => (d.atPhase ph).pfcTx lport

/-- LINK_CHANGE (R164). -/
def execLinkChange (lport : Nat) (locked localFault remoteFault : Bool) (signal : Nat) (s : State) :
    Host.Outcome State Fault Refusal :=
  act (lportOk lport && laneMaskOk signal) s fun d => d.linkChange lport locked localFault remoteFault signal

/-- QAY_MODE_WRITE (R160). -/
def execQayModeWrite (quay mode : Nat) (s : State) : Host.Outcome State Fault Refusal :=
  act (quayOk quay && quayOk mode) s fun d => d.written ⟨.qay, quay⟩ (Reg.qay_MODE.addrAt [quay]) fun d => d.modeWrite quay mode

/-- GATE_ARM (R179). -/
def execGateArm (lport bank ph : Nat) (s : State) : Host.Outcome State Fault Refusal :=
  act (lportOk lport && pairOk bank && phaseOk ph) s fun d =>
    (d.atPhase ph).written (qayPage lport) (Reg.qay_GATE_ARM.addrAt (portIx lport)) fun d =>
      (d.set Reg.qay_GATE_BANK bank (portIx lport)).gateArm lport

/-- TXTS_POP (R186). -/
def execTxtsPop (quay : Nat) (s : State) : Host.Outcome State Fault Refusal :=
  act (quayOk quay) s fun d => d.loRead (Reg.qay_TXTS_FRAC.addrAt [quay])

end Sys2Proof.Machine
end

