-- ==== Sys2Proof/Machine/CmdReckoner.lean ====
section
/-!
DEFINITION. The meanings of the commands of the instructions of a Reckoner core (R382–R402).
-/

namespace Sys2Proof.Machine

/-- ADD (R383). -/
def execRkAdd (core : Nat) (rd rs rt : BitVec 4) (sat : Bool) (s : State) : Host.Outcome State Fault Refusal :=
  act (coreOk core) s fun d => d.issue core (rkAddF rd rs rt sat)

/-- SUB (R383). -/
def execRkSub (core : Nat) (rd rs rt : BitVec 4) (sat : Bool) (s : State) : Host.Outcome State Fault Refusal :=
  act (coreOk core) s fun d => d.issueFree core (rkSubF rd rs rt sat)

/-- AND (R383). -/
def execRkAnd (core : Nat) (rd rs rt : BitVec 4) (s : State) : Host.Outcome State Fault Refusal :=
  act (coreOk core) s fun d => d.issue core (rkAndF rd rs rt)

/-- OR (R383). -/
def execRkOr (core : Nat) (rd rs rt : BitVec 4) (s : State) : Host.Outcome State Fault Refusal :=
  act (coreOk core) s fun d => d.issue core (rkOrF rd rs rt)

/-- XOR (R383). -/
def execRkXor (core : Nat) (rd rs rt : BitVec 4) (s : State) : Host.Outcome State Fault Refusal :=
  act (coreOk core) s fun d => d.issue core (rkXorF rd rs rt)

/-- SHL (R383). -/
def execRkShl (core : Nat) (rd rs rt : BitVec 4) (sat : Bool) (s : State) : Host.Outcome State Fault Refusal :=
  act (coreOk core) s fun d => d.issueFree core (rkShlF rd rs rt sat)

/-- SHRA (R383). -/
def execRkShra (core : Nat) (rd rs rt : BitVec 4) (s : State) : Host.Outcome State Fault Refusal :=
  act (coreOk core) s fun d => d.issueFree core (rkShraF rd rs rt)

/-- SHRL (R383). -/
def execRkShrl (core : Nat) (rd rs rt : BitVec 4) (s : State) : Host.Outcome State Fault Refusal :=
  act (coreOk core) s fun d => d.issueFree core (rkShrlF rd rs rt)

/-- MIN (R383). -/
def execRkMin (core : Nat) (rd rs rt : BitVec 4) (s : State) : Host.Outcome State Fault Refusal :=
  act (coreOk core) s fun d => d.issue core (rkMinF rd rs rt)

/-- MAX (R383). -/
def execRkMax (core : Nat) (rd rs rt : BitVec 4) (s : State) : Host.Outcome State Fault Refusal :=
  act (coreOk core) s fun d => d.issue core (rkMaxF rd rs rt)

/-- ABS (R383). -/
def execRkAbs (core : Nat) (rd rs : BitVec 4) (sat : Bool) (s : State) : Host.Outcome State Fault Refusal :=
  act (coreOk core) s fun d => d.issueFree core (rkAbsF rd rs sat)

/-- NEG (R383). -/
def execRkNeg (core : Nat) (rd rs : BitVec 4) (sat : Bool) (s : State) : Host.Outcome State Fault Refusal :=
  act (coreOk core) s fun d => d.issueFree core (rkNegF rd rs sat)

/-- MOV (R383). -/
def execRkMov (core : Nat) (rd rs : BitVec 4) (s : State) : Host.Outcome State Fault Refusal :=
  act (coreOk core) s fun d => d.issue core (rkMovF rd rs)

/-- CMP (R383). -/
def execRkCmp (core : Nat) (rs rt : BitVec 4) (s : State) : Host.Outcome State Fault Refusal :=
  act (coreOk core) s fun d => d.issueFree core (rkCmpF rs rt)

/-- ADDI (R383). -/
def execRkAddi (core : Nat) (rd rs : BitVec 4) (imm : BitVec 16) (s : State) : Host.Outcome State Fault Refusal :=
  act (coreOk core) s fun d => d.issue core (rkAddiF rd rs imm)

/-- ANDI (R383). -/
def execRkAndi (core : Nat) (rd rs : BitVec 4) (imm : BitVec 16) (s : State) : Host.Outcome State Fault Refusal :=
  act (coreOk core) s fun d => d.issue core (rkAndiF rd rs imm)

/-- ORI (R383). -/
def execRkOri (core : Nat) (rd rs : BitVec 4) (imm : BitVec 16) (s : State) : Host.Outcome State Fault Refusal :=
  act (coreOk core) s fun d => d.issue core (rkOriF rd rs imm)

/-- XORI (R383). -/
def execRkXori (core : Nat) (rd rs : BitVec 4) (imm : BitVec 16) (s : State) : Host.Outcome State Fault Refusal :=
  act (coreOk core) s fun d => d.issue core (rkXoriF rd rs imm)

/-- MOVI (R383). -/
def execRkMovi (core : Nat) (rd : BitVec 4) (imm : BitVec 16) (s : State) : Host.Outcome State Fault Refusal :=
  act (coreOk core) s fun d => d.issue core (rkMoviF rd imm)

/-- CMPI (R383). -/
def execRkCmpi (core : Nat) (rs : BitVec 4) (imm : BitVec 16) (s : State) : Host.Outcome State Fault Refusal :=
  act (coreOk core) s fun d => d.issueFree core (rkCmpiF rs imm)

/-- SHLI (R383). -/
def execRkShli (core : Nat) (rd rs : BitVec 4) (imm : BitVec 16) (s : State) : Host.Outcome State Fault Refusal :=
  act (coreOk core) s fun d => d.issueFree core (rkShliF rd rs imm)

/-- SHRAI (R383). -/
def execRkShrai (core : Nat) (rd rs : BitVec 4) (imm : BitVec 16) (s : State) : Host.Outcome State Fault Refusal :=
  act (coreOk core) s fun d => d.issueFree core (rkShraiF rd rs imm)

/-- SHRLI (R383). -/
def execRkShrli (core : Nat) (rd rs : BitVec 4) (imm : BitVec 16) (s : State) : Host.Outcome State Fault Refusal :=
  act (coreOk core) s fun d => d.issueFree core (rkShrliF rd rs imm)

/-- AMOVI (R383). -/
def execRkAmovi (core : Nat) (rd : BitVec 3) (imm : BitVec 16) (s : State) : Host.Outcome State Fault Refusal :=
  act (coreOk core) s fun d => d.issue core (rkAmoviF rd imm)

/-- MMOVI (R383). -/
def execRkMmovi (core : Nat) (rd : BitVec 3) (imm : BitVec 16) (s : State) : Host.Outcome State Fault Refusal :=
  act (coreOk core) s fun d => d.issue core (rkMmoviF rd imm)

/-- AADDI (R383). -/
def execRkAaddi (core : Nat) (rd : BitVec 3) (imm : BitVec 16) (s : State) : Host.Outcome State Fault Refusal :=
  act (coreOk core) s fun d => d.issue core (rkAaddiF rd imm)

/-- MUL (R384). -/
def execRkMul (core : Nat) (acc : Bool) (rs rt : BitVec 4) (fract sat : Bool) (par : Option RkPar) (s : State) :
    Host.Outcome State Fault Refusal :=
  act (coreOk core) s fun d => d.issueMem core (rkMulF acc rs rt fract sat par)

/-- MAC (R384). -/
def execRkMac (core : Nat) (acc : Bool) (rs rt : BitVec 4) (fract sat : Bool) (par : Option RkPar) (s : State) :
    Host.Outcome State Fault Refusal :=
  act (coreOk core) s fun d => d.issueMem core (rkMacF acc rs rt fract sat par)

/-- MSU (R384). -/
def execRkMsu (core : Nat) (acc : Bool) (rs rt : BitVec 4) (fract sat : Bool) (par : Option RkPar) (s : State) :
    Host.Outcome State Fault Refusal :=
  act (coreOk core) s fun d => d.issueMem core (rkMsuF acc rs rt fract sat par)

/-- CLR (R385). -/
def execRkClr (core : Nat) (acc : Bool) (s : State) : Host.Outcome State Fault Refusal :=
  act (coreOk core) s fun d => d.issue core (rkClrF acc)

/-- MVA (R385). -/
def execRkMva (core : Nat) (acc : Bool) (rd : BitVec 4) (sh : BitVec 6) (sat : Bool) (s : State) :
    Host.Outcome State Fault Refusal :=
  act (coreOk core) s fun d => d.issue core (rkMvaF acc rd sh sat)

/-- MVD (R385). -/
def execRkMvd (core : Nat) (acc : Bool) (rs : BitVec 4) (s : State) : Host.Outcome State Fault Refusal :=
  act (coreOk core) s fun d => d.issue core (rkMvdF acc rs)

/-- ADDA (R385). -/
def execRkAdda (core : Nat) (acc sat : Bool) (s : State) : Host.Outcome State Fault Refusal :=
  act (coreOk core) s fun d => d.issue core (rkAddaF acc sat)

/-- SHA (R385). -/
def execRkSha (core : Nat) (acc : Bool) (sh : BitVec 6) (sat : Bool) (s : State) : Host.Outcome State Fault Refusal :=
  act (coreOk core) s fun d => d.issue core (rkShaF acc sh sat)

/-- NEGA (R385). -/
def execRkNega (core : Nat) (acc sat : Bool) (s : State) : Host.Outcome State Fault Refusal :=
  act (coreOk core) s fun d => d.issue core (rkNegaF acc sat)

/-- LD (R386). -/
def execRkLd (core : Nat) (cls : BitVec 2) (reg : BitVec 4) (a m : BitVec 3) (pmod : Bool) (ofs : BitVec 11) (s : State) :
    Host.Outcome State Fault Refusal :=
  act (coreOk core) s fun d => d.issueMem core (rkLdF cls reg a m pmod ofs)

/-- ST (R386). -/
def execRkSt (core : Nat) (cls : BitVec 2) (reg : BitVec 4) (a m : BitVec 3) (pmod : Bool) (ofs : BitVec 11) (s : State) :
    Host.Outcome State Fault Refusal :=
  act (coreOk core) s fun d => d.issue core (rkStF cls reg a m pmod ofs)

/-- B (R389). -/
def execRkB (core : Nat) (target : BitVec 13) (s : State) : Host.Outcome State Fault Refusal :=
  act (coreOk core) s fun d => d.issue core (rkBF target)

/-- BEQ (R389). -/
def execRkBeq (core : Nat) (target : BitVec 13) (s : State) : Host.Outcome State Fault Refusal :=
  act (coreOk core) s fun d => d.issue core (rkBeqF target)

/-- BNE (R389). -/
def execRkBne (core : Nat) (target : BitVec 13) (s : State) : Host.Outcome State Fault Refusal :=
  act (coreOk core) s fun d => d.issue core (rkBneF target)

/-- BLT (R389). -/
def execRkBlt (core : Nat) (target : BitVec 13) (s : State) : Host.Outcome State Fault Refusal :=
  act (coreOk core) s fun d => d.issue core (rkBltF target)

/-- BGE (R389). -/
def execRkBge (core : Nat) (target : BitVec 13) (s : State) : Host.Outcome State Fault Refusal :=
  act (coreOk core) s fun d => d.issue core (rkBgeF target)

/-- BGT (R389). -/
def execRkBgt (core : Nat) (target : BitVec 13) (s : State) : Host.Outcome State Fault Refusal :=
  act (coreOk core) s fun d => d.issue core (rkBgtF target)

/-- BLE (R389). -/
def execRkBle (core : Nat) (target : BitVec 13) (s : State) : Host.Outcome State Fault Refusal :=
  act (coreOk core) s fun d => d.issue core (rkBleF target)

/-- BV (R389). -/
def execRkBv (core : Nat) (target : BitVec 13) (s : State) : Host.Outcome State Fault Refusal :=
  act (coreOk core) s fun d => d.issue core (rkBvF target)

/-- CALL (R389). -/
def execRkCall (core : Nat) (target : BitVec 13) (s : State) : Host.Outcome State Fault Refusal :=
  act (coreOk core) s fun d => d.issue core (rkCallF target)

/-- RET (R389). -/
def execRkRet (core : Nat) (s : State) : Host.Outcome State Fault Refusal :=
  act (coreOk core) s fun d => d.issue core rkRetF

/-- LOOP (R390). -/
def execRkLoop (core : Nat) (level : Bool) (count : RkCount) (last : BitVec 13) (s : State) : Host.Outcome State Fault Refusal :=
  act (coreOk core) s fun d => d.issue core (rkLoopF level count last)

/-- BREAK (R391). -/
def execRkBreak (core : Nat) (level : Bool) (s : State) : Host.Outcome State Fault Refusal :=
  act (coreOk core) s fun d => d.issue core (rkBreakF level)

/-- MOVX (R378). -/
def execRkMovx (core : Nat) (rd rs : BitVec 6) (s : State) : Host.Outcome State Fault Refusal :=
  act (coreOk core) s fun d => d.issue core (rkMovxF rd rs)

/-- PUSHX (R400). -/
def execRkPushx (core : Nat) (rs : BitVec 6) (s : State) : Host.Outcome State Fault Refusal :=
  act (coreOk core) s fun d => d.issue core (rkPushxF rs)

/-- POPX (R400). -/
def execRkPopx (core : Nat) (rd : BitVec 6) (s : State) : Host.Outcome State Fault Refusal :=
  act (coreOk core) s fun d => d.issueMem core (rkPopxF rd)

/-- NOP (R383). -/
def execRkNop (core : Nat) (s : State) : Host.Outcome State Fault Refusal :=
  act (coreOk core) s fun d => d.issue core rkNopF

/-- END (R393). -/
def execRkEnd (core : Nat) (s : State) : Host.Outcome State Fault Refusal :=
  act (coreOk core) s fun d => d.rkEnd core

/-- TAKE (R399); a ready event that came while IE was 0 is taken now (R397). -/
def execRkTake (core : Nat) (s : State) : Host.Outcome State Fault Refusal :=
  act (coreOk core) s fun d => (d.rkTake core).preemptScan

/-- RTI (R401); a ready event that came while IE was 0 is taken now (R397). -/
def execRkRti (core : Nat) (s : State) : Host.Outcome State Fault Refusal :=
  act (coreOk core) s fun d => (d.rkRti core).preemptScan

/-- DMA (R402). -/
def execRkDma (core : Nat) (ch : BitVec 2) (a : BitVec 3) (s : State) : Host.Outcome State Fault Refusal :=
  act (coreOk core) s fun d => d.rkDma core ch a

/-- DMAWAIT (R387). -/
def execRkDmawait (core : Nat) (ch : BitVec 2) (s : State) : Host.Outcome State Fault Refusal :=
  act (coreOk core) s fun d => d.rkDmaWait core ch

end Sys2Proof.Machine
end

