-- ==== Sys2Proof/Machine/CmdSlipway.lean ====
section
/-!
DEFINITION. The meanings of the commands of faults, audits, repair, gauges and fault injection (chapter 18).
-/

namespace Sys2Proof.Machine

/-- LFI_HOLD_TIMEOUT (R576). -/
def execLfiHoldTimeout (point lport ph : Nat) (s : State) : Host.Outcome State Fault Refusal :=
  act (lfiPointOk point && lportOk lport && phaseOk ph) s fun d => (d.atPhase ph).lfiHoldTimeout point lport

/-- AUDIT_SLICE (R559). -/
def execAuditSlice (kind index : Nat) (ok : Bool) (signature : Nat) (s : State) : Host.Outcome State Fault Refusal :=
  act (kindOk kind && unitIndexOk index && tideOk signature) s fun d => d.auditSlice kind index ok signature

/-- AUDIT_LATE (R564). -/
def execAuditLate (kind index : Nat) (s : State) : Host.Outcome State Fault Refusal :=
  act (kindOk kind && unitIndexOk index) s fun d => d.auditLate kind index

/-- ENGINE_FAULT (R81). -/
def execEngineFault (kind index : Nat) (s : State) : Host.Outcome State Fault Refusal :=
  act (kindOk kind && unitIndexOk index) s fun d => d.engineFault kind index

/-- CORE_FAULT (R396). -/
def execCoreFault (core : Nat) (s : State) : Host.Outcome State Fault Refusal :=
  act (coreOk core) s fun d => d.coreFault core

/-- BWR_PIPE_FAULT (R214). -/
def execBwrPipeFault (index lost : Nat) (s : State) : Host.Outcome State Fault Refusal :=
  act (unitIndexOk index) s fun d => d.bwrPipeFault index lost

/-- BND_PIPE_FAULT (R248). -/
def execBndPipeFault (sha : Bool) (index lost : Nat) (s : State) : Host.Outcome State Fault Refusal :=
  act (unitIndexOk index) s fun d => d.bndPipeFault sha index lost

/-- FRY_LANE_FAULT (R277). -/
def execFryLaneFault (index lost : Nat) (s : State) : Host.Outcome State Fault Refusal :=
  act (unitIndexOk index) s fun d => d.fryLaneFault index lost

/-- TLY_LANE_FAULT (R305). -/
def execTlyLaneFault (index lost : Nat) (s : State) : Host.Outcome State Fault Refusal :=
  act (unitIndexOk index) s fun d => d.tlyLaneFault index lost

/-- ABX_MAC_FAULT (R319). -/
def execAbxMacFault (index : Nat) (mixes : List Nat) (s : State) : Host.Outcome State Fault Refusal :=
  act (unitIndexOk index && mixesOk mixes) s fun d => d.macFault index mixes

/-- ABX_DRESS_FAULT (R320). -/
def execAbxDressFault (index : Nat) (s : State) : Host.Outcome State Fault Refusal :=
  act (unitIndexOk index) s fun d => d.dressFault index

/-- CTRL_FAULT (R526). -/
def execCtrlFault (index : Nat) (s : State) : Host.Outcome State Fault Refusal :=
  act (unitIndexOk index) s fun d => d.ctrlFault index

/-- RETIRE (R566). -/
def execRetire (kind index : Nat) (s : State) : Host.Outcome State Fault Refusal :=
  act (kindOk kind && unitIndexOk index) s fun d =>
    d.written slwPage Reg.slw_CMD_GO.addr fun d => Dev.slwCmd s.fuse d 1 kind index 0 0 (d.flag Reg.slw_FSOURCE_OK)

/-- AUDIT_NOW (R577). -/
def execAuditNow (kind index : Nat) (s : State) : Host.Outcome State Fault Refusal :=
  act (kindOk kind && unitIndexOk index) s fun d =>
    d.written slwPage Reg.slw_CMD_GO.addr fun d => Dev.slwCmd s.fuse d 2 kind index 0 0 (d.flag Reg.slw_FSOURCE_OK)

/-- FUSE_BURN_REPAIRS (R568). -/
def execFuseBurnRepairs (fsource : Bool) (s : State) : Host.Outcome State Fault Refusal :=
  always s fun d => d.written slwPage Reg.slw_CMD_GO.addr fun d => Dev.slwCmd s.fuse d 3 0 0 0 0 fsource

/-- FUSE_BURN_RETIRE (R568). -/
def execFuseBurnRetire (fsource : Bool) (s : State) : Host.Outcome State Fault Refusal :=
  always s fun d => d.written slwPage Reg.slw_CMD_GO.addr fun d => Dev.slwCmd s.fuse d 4 0 0 0 0 fsource

/-- FUSE_WRITE_USER (R568). -/
def execFuseWriteUser (word : Nat) (data : Word) (fsource : Bool) (s : State) : Host.Outcome State Fault Refusal :=
  act (fuseWordOk word) s fun d =>
    d.written slwPage Reg.slw_CMD_GO.addr fun d => Dev.slwCmd s.fuse d 5 0 0 word data.toNat fsource

/-- FUSE_READ_USER (R577). -/
def execFuseReadUser (word : Nat) (s : State) : Host.Outcome State Fault Refusal :=
  act (fuseWordOk word) s fun d =>
    d.written slwPage Reg.slw_CMD_GO.addr fun d => Dev.slwCmd s.fuse d 6 0 0 word 0 (d.flag Reg.slw_FSOURCE_OK)

/-- CAPTURE (R571). -/
def execCapture (gauge : Nat) (snap : Bool) (s : State) : Host.Outcome State Fault Refusal :=
  act (byteOk gauge) s fun d => d.written tggPage Reg.tgg_CAPTURE.addr fun d => (d.set Reg.tgg_SEL gauge).capture snap

/-- GAUGE_CLEAR (R579). -/
def execGaugeClear (gauge : Nat) (s : State) : Host.Outcome State Fault Refusal :=
  act (byteOk gauge) s fun d => d.written tggPage Reg.tgg_CLEAR.addr fun d => (d.set Reg.tgg_SEL gauge).gaugeClear

/-- GAUGE_ENABLE (R579). -/
def execGaugeEnable (gauge : Nat) (word : Word) (s : State) : Host.Outcome State Fault Refusal :=
  act (byteOk gauge) s fun d => d.written tggPage (Reg.tgg_G_EN.addrAt [gauge]) fun d => d.gaugeWrite gauge 0 word

/-- GAUGE_SAMPLE (R570). -/
def execGaugeSample (gauge : Nat) (value : Word) (again : Bool) (s : State) : Host.Outcome State Fault Refusal :=
  act (byteOk gauge) s fun d => d.gaugeSample gauge value again

/-- LFSR_SEED_WRITE (R573). -/
def execLfsrSeedWrite (word : Word) (s : State) : Host.Outcome State Fault Refusal :=
  always s fun d => d.written lfiPage Reg.lfi_LFSR_SEED.addr fun d => d.lfsrSeed word

/-- FUSE_DONE (R568). -/
def execFuseDone (wrong : List Nat) (s : State) : Host.Outcome State Fault Refusal :=
  actFuse (fuseWordsOk wrong) s fun f d => Dev.fuseDone f d wrong

/-- QAY_PCS_FAULT (R565). -/
def execQayPcsFault (index : Nat) (s : State) : Host.Outcome State Fault Refusal :=
  act (unitIndexOk index) s fun d => d.qayPcsFault index

end Sys2Proof.Machine
end

