-- ==== Sys2Proof/Machine/CmdTide.lean ====
section
/-!
DEFINITION. The meanings of the commands of the Tide and device time (chapters 2 and 6).
-/

namespace Sys2Proof.Machine

/-- TIDE_BOUNDARY (R50). -/
def execTideBoundary (x : TideInput) (s : State) : Host.Outcome State Fault Refusal :=
  act (tideInOk x) s fun d => d.tideBoundary x

/-- SYNC_LOSS (R202). -/
def execSyncLoss (ph : Nat) (s : State) : Host.Outcome State Fault Refusal :=
  act (phaseOk ph) s fun d => (d.atPhase ph).syncLoss

/-- EDGE_LOSS (R203). -/
def execEdgeLoss (input ph : Nat) (s : State) : Host.Outcome State Fault Refusal :=
  act (refInputOk input && phaseOk ph) s fun d => (d.atPhase ph).edgeLoss input

/-- PPS_WIDTH_END (R209). -/
def execPpsWidthEnd (ph : Nat) (s : State) : Host.Outcome State Fault Refusal :=
  act (phaseOk ph) s fun d => (d.atPhase ph).ppsWidthEnd

/-- SYNC_TX (R192). -/
def execSyncTx (lport ph : Nat) (s : State) : Host.Outcome State Fault Refusal :=
  act (lportOk lport && phaseOk ph) s fun d => (d.atPhase ph).syncTx lport

/-- FOLLOW_UP_TX (R195). -/
def execFollowUpTx (lport ph : Nat) (s : State) : Host.Outcome State Fault Refusal :=
  act (lportOk lport && phaseOk ph) s fun d => (d.atPhase ph).followUpTx lport

/-- DELAY_REQ_TX (R192). -/
def execDelayReqTx (lport ph : Nat) (s : State) : Host.Outcome State Fault Refusal :=
  act (lportOk lport && phaseOk ph) s fun d => (d.atPhase ph).delayReqTx lport

/-- PDELAY_REQ_TX (R192). -/
def execPdelayReqTx (lport ph : Nat) (s : State) : Host.Outcome State Fault Refusal :=
  act (lportOk lport && phaseOk ph) s fun d => (d.atPhase ph).pdelayReqTx lport

/-- ANNOUNCE_TX (R192). -/
def execAnnounceTx (lport ph : Nat) (s : State) : Host.Outcome State Fault Refusal :=
  act (lportOk lport && phaseOk ph) s fun d => (d.atPhase ph).announceTx lport

/-- PPS_IN_EDGE (R196). -/
def execPpsInEdge (frac ph : Nat) (s : State) : Host.Outcome State Fault Refusal :=
  act (fracOk frac && phaseOk ph) s fun d => (d.atPhase ph).ppsEdge frac

/-- TEVT_EDGE (R211). -/
def execTevtEdge (input : Nat) (falling : Bool) (width frac ph : Nat) (s : State) : Host.Outcome State Fault Refusal :=
  act (tevtInputOk input && fracOk frac && phaseOk ph) s fun d =>
    (d.atPhase ph).tevtEdge input falling width frac |>.tevtWake input falling width

/-- ANCHOR (R198). -/
def execAnchor (ph : Nat) (s : State) : Host.Outcome State Fault Refusal :=
  act (phaseOk ph) s fun d => (d.atPhase ph).anchor_

/-- TIDE_BREAK (R206). -/
def execTideBreak (breakAt newTide breakPhase : Nat) (s : State) : Host.Outcome State Fault Refusal :=
  act (tideOk breakAt && tideOk newTide && phase20Ok breakPhase) s fun d => d.breakCmd breakAt newTide breakPhase

/-- CANCEL_BREAK (R206). -/
def execCancelBreak (s : State) : Host.Outcome State Fault Refusal :=
  always s fun d => d.cancelBreak

/-- SRC_SEL_WRITE (R197). -/
def execSrcSelWrite (word : Word) (s : State) : Host.Outcome State Fault Refusal :=
  always s fun d => d.srcSelWrite word

/-- PTP_ROLE_WRITE (R192). -/
def execPtpRoleWrite (lport : Nat) (word : Word) (s : State) : Host.Outcome State Fault Refusal :=
  act (lportOk lport) s fun d => d.ptpRoleWrite lport word

/-- TEVT_POP (R211). -/
def execTevtPop (s : State) : Host.Outcome State Fault Refusal :=
  always s fun d => d.loRead Reg.tkp_TEVT_FRAC.addr

/-- REF10M_IN_EDGE (R203). -/
def execRef10mInEdge (frac ph : Nat) (s : State) : Host.Outcome State Fault Refusal :=
  act (fracOk frac && phaseOk ph) s fun d => (d.atPhase ph).refEdge frac

end Sys2Proof.Machine
end

