-- ==== Sys2Proof/Machine/CmdTwin.lean ====
section
/-!
DEFINITION. The meanings of the commands of the Mooring (chapter 17).
-/

namespace Sys2Proof.Machine

/-- TAKEOVER (R549). -/
def execTakeover (s : State) : Host.Outcome State Fault Refusal :=
  always s fun d => d.takeover

/-- HB_WIRE_RX (R533). -/
def execHbWireRx (frame : BitVec 54) (ph : Nat) (s : State) : Host.Outcome State Fault Refusal :=
  act (phaseOk ph) s fun d => (d.atPhase ph).hbWireRx frame.toNat

/-- HEARTBEAT (R532). -/
def execHeartbeat (head : MrgHead) (beat : MrgBeat) (ph : Nat) (s : State) : Host.Outcome State Fault Refusal :=
  act (mrgHeadOk head && mrgBeatOk beat && phaseOk ph) s fun d => (d.atPhase ph).mrgFrameRx ⟨head, .heartbeat beat⟩

/-- DELTA (R541). -/
def execDelta (head : MrgHead) (records : List MrgRecord) (ph : Nat) (s : State) : Host.Outcome State Fault Refusal :=
  act (mrgHeadOk head && phaseOk ph) s fun d => (d.atPhase ph).mrgFrameRx ⟨head, .delta records⟩

/-- DELTA_END (R543). -/
def execDeltaEnd (head : MrgHead) (ph : Nat) (s : State) : Host.Outcome State Fault Refusal :=
  act (mrgHeadOk head && phaseOk ph) s fun d => (d.atPhase ph).mrgFrameRx ⟨head, .deltaEnd⟩

/-- BULK (R551). -/
def execBulk (head : MrgHead) (records : List MrgRecord) (ph : Nat) (s : State) : Host.Outcome State Fault Refusal :=
  act (mrgHeadOk head && phaseOk ph) s fun d => (d.atPhase ph).mrgFrameRx ⟨head, .bulk records⟩

/-- BULK_END (R551). -/
def execBulkEnd (head : MrgHead) (ph : Nat) (s : State) : Host.Outcome State Fault Refusal :=
  act (mrgHeadOk head && phaseOk ph) s fun d => (d.atPhase ph).mrgFrameRx ⟨head, .bulkEnd⟩

/-- ROW_REQ (R552). -/
def execRowReq (head : MrgHead) (records : List MrgRecord) (ph : Nat) (s : State) : Host.Outcome State Fault Refusal :=
  act (mrgHeadOk head && phaseOk ph) s fun d => (d.atPhase ph).mrgFrameRx ⟨head, .rowReq records⟩

/-- JOIN_REQ (R551). -/
def execJoinReq (head : MrgHead) (kcvs : List Nat) (ph : Nat) (s : State) : Host.Outcome State Fault Refusal :=
  act (mrgHeadOk head && kcvsOk kcvs && phaseOk ph) s fun d => (d.atPhase ph).mrgFrameRx ⟨head, .joinReq kcvs⟩

/-- MRG_LINK_CHANGE (R553). -/
def execMrgLinkChange (up : Bool) (s : State) : Host.Outcome State Fault Refusal :=
  always s fun d => d.mrgLinkChange up

/-- START_ACTIVE (R536). -/
def execStartActive (s : State) : Host.Outcome State Fault Refusal :=
  always s fun d => d.written mrgPage Reg.mrg_OP.addr fun d => d.mrgOp 1

/-- JOIN (R551). -/
def execJoin (s : State) : Host.Outcome State Fault Refusal :=
  always s fun d => d.written mrgPage Reg.mrg_OP.addr fun d => d.mrgOp 2

/-- FORCE_TAKEOVER (R548). -/
def execForceTakeover (s : State) : Host.Outcome State Fault Refusal :=
  always s fun d => d.written mrgPage Reg.mrg_OP.addr fun d => d.mrgOp 3

/-- LEAVE (R553). -/
def execLeave (s : State) : Host.Outcome State Fault Refusal :=
  always s fun d => d.written mrgPage Reg.mrg_OP.addr fun d => d.mrgOp 4

end Sys2Proof.Machine
end

