-- ==== Sys2Proof/Machine/CmdVideo.lean ====
section
/-!
DEFINITION. The meanings of the commands of decode, encode, compose and essence video (chapters 13 to 15).
-/

namespace Sys2Proof.Machine

/-- ASM_TIMEOUT (R422). -/
def execAsmTimeout (ctx : Nat) (s : State) : Host.Outcome State Fault Refusal :=
  act (ctxOk ctx) s fun d => d.asmTimeout ctx

/-- ESS_VIDEO_FRAME_TX (R499). -/
def execEssVideoFrameTx (flow ph : Nat) (s : State) : Host.Outcome State Fault Refusal :=
  act (videoFlowOk flow && phaseOk ph) s fun d => (d.atPhase ph).essVideoFrameTx flow

/-- ESS_VIDEO_PKT_TX (R501). -/
def execEssVideoPktTx (flow ph : Nat) (s : State) : Host.Outcome State Fault Refusal :=
  act (videoFlowOk flow && phaseOk ph) s fun d => (d.atPhase ph).essVideoPktTx flow

/-- ENC_FB_ITEM (R460). -/
def execEncFbItem (ph : Nat) (s : State) : Host.Outcome State Fault Refusal :=
  act (phaseOk ph) s fun d => (d.atPhase ph).encFbItem

/-- ESS_VIDEO_FLOW_EN (R500). -/
def execEssVideoFlowEn (tx : Bool) (flow : Nat) (word : Word) (s : State) : Host.Outcome State Fault Refusal :=
  act (videoFlowOk flow) s fun d =>
    d.written essPage ((if tx then Reg.ess_VTX_EN else Reg.ess_VRX_EN).addrAt [flow]) fun d => d.essVideoFlowEn tx flow word

/-- CTX_SET (R419). -/
def execCtxSet (ctx addr : Nat) (s : State) : Host.Outcome State Fault Refusal :=
  act (ctxOk ctx && word32Ok addr) s fun d => d.written decPage Reg.decCtl_CMD_GO.addr fun d => d.decCmd 1 ctx addr

/-- CTX_MOD (R419). -/
def execCtxMod (ctx addr : Nat) (s : State) : Host.Outcome State Fault Refusal :=
  act (ctxOk ctx && word32Ok addr) s fun d => d.written decPage Reg.decCtl_CMD_GO.addr fun d => d.decCmd 2 ctx addr

/-- CTX_RESET (R419). -/
def execCtxReset (ctx addr : Nat) (s : State) : Host.Outcome State Fault Refusal :=
  act (ctxOk ctx && word32Ok addr) s fun d => d.written decPage Reg.decCtl_CMD_GO.addr fun d => d.decCmd 3 ctx addr

/-- CTX_READ (R419). -/
def execCtxRead (ctx addr : Nat) (s : State) : Host.Outcome State Fault Refusal :=
  act (ctxOk ctx && word32Ok addr) s fun d => d.written decPage Reg.decCtl_CMD_GO.addr fun d => d.decCmd 4 ctx addr

/-- CTX_CLEAR (R419). -/
def execCtxClear (ctx addr : Nat) (s : State) : Host.Outcome State Fault Refusal :=
  act (ctxOk ctx && word32Ok addr) s fun d => d.written decPage Reg.decCtl_CMD_GO.addr fun d => d.decCmd 5 ctx addr

/-- SVY_SET (R468). -/
def execSvySet (ctx addr : Nat) (staged : Bool) (applyTide : Nat) (s : State) : Host.Outcome State Fault Refusal :=
  act (ctxOk ctx && word32Ok addr && tideOk applyTide) s fun d =>
    d.written encPage Reg.encCtl_CMD_GO.addr fun d => d.encCmd 1 ctx addr staged applyTide

/-- SVY_MOD (R469). -/
def execSvyMod (ctx addr : Nat) (staged : Bool) (applyTide : Nat) (s : State) : Host.Outcome State Fault Refusal :=
  act (ctxOk ctx && word32Ok addr && tideOk applyTide) s fun d =>
    d.written encPage Reg.encCtl_CMD_GO.addr fun d => d.encCmd 2 ctx addr staged applyTide

/-- SVY_CLEAR (R468). -/
def execSvyClear (ctx addr : Nat) (staged : Bool) (applyTide : Nat) (s : State) : Host.Outcome State Fault Refusal :=
  act (ctxOk ctx && word32Ok addr && tideOk applyTide) s fun d =>
    d.written encPage Reg.encCtl_CMD_GO.addr fun d => d.encCmd 3 ctx addr staged applyTide

/-- LTR_SET (R468). -/
def execLtrSet (ctx addr : Nat) (staged : Bool) (applyTide : Nat) (s : State) : Host.Outcome State Fault Refusal :=
  act (ctxOk ctx && word32Ok addr && tideOk applyTide) s fun d =>
    d.written encPage Reg.encCtl_CMD_GO.addr fun d => d.encCmd 4 ctx addr staged applyTide

/-- LTR_MOD (R469). -/
def execLtrMod (ctx addr : Nat) (staged : Bool) (applyTide : Nat) (s : State) : Host.Outcome State Fault Refusal :=
  act (ctxOk ctx && word32Ok addr && tideOk applyTide) s fun d =>
    d.written encPage Reg.encCtl_CMD_GO.addr fun d => d.encCmd 5 ctx addr staged applyTide

/-- LTR_CLEAR (R468). -/
def execLtrClear (ctx addr : Nat) (staged : Bool) (applyTide : Nat) (s : State) : Host.Outcome State Fault Refusal :=
  act (ctxOk ctx && word32Ok addr && tideOk applyTide) s fun d =>
    d.written encPage Reg.encCtl_CMD_GO.addr fun d => d.encCmd 6 ctx addr staged applyTide

/-- KEY (R459). -/
def execKey (ctx addr : Nat) (staged : Bool) (applyTide : Nat) (s : State) : Host.Outcome State Fault Refusal :=
  act (ctxOk ctx && word32Ok addr && tideOk applyTide) s fun d =>
    d.written encPage Reg.encCtl_CMD_GO.addr fun d => d.encCmd 7 ctx addr staged applyTide

/-- SVY_READ (R468). -/
def execSvyRead (ctx addr : Nat) (staged : Bool) (applyTide : Nat) (s : State) : Host.Outcome State Fault Refusal :=
  act (ctxOk ctx && word32Ok addr && tideOk applyTide) s fun d =>
    d.written encPage Reg.encCtl_CMD_GO.addr fun d => d.encCmd 8 ctx addr staged applyTide

/-- LTR_READ (R468). -/
def execLtrRead (ctx addr : Nat) (staged : Bool) (applyTide : Nat) (s : State) : Host.Outcome State Fault Refusal :=
  act (ctxOk ctx && word32Ok addr && tideOk applyTide) s fun d =>
    d.written encPage Reg.encCtl_CMD_GO.addr fun d => d.encCmd 9 ctx addr staged applyTide

/-- VIEW_SET (R476). -/
def execViewSet (view addr : Nat) (staged : Bool) (applyTide : Nat) (s : State) : Host.Outcome State Fault Refusal :=
  act (viewNumOk view && word32Ok addr && tideOk applyTide) s fun d =>
    d.written cmpPage Reg.cmpCtl_CMD_GO.addr fun d => d.viewCmd 1 view addr staged applyTide

/-- VIEW_MOD (R476). -/
def execViewMod (view addr : Nat) (staged : Bool) (applyTide : Nat) (s : State) : Host.Outcome State Fault Refusal :=
  act (viewNumOk view && word32Ok addr && tideOk applyTide) s fun d =>
    d.written cmpPage Reg.cmpCtl_CMD_GO.addr fun d => d.viewCmd 2 view addr staged applyTide

/-- LAYOUT (R489). -/
def execLayout (view addr : Nat) (staged : Bool) (applyTide : Nat) (s : State) : Host.Outcome State Fault Refusal :=
  act (viewNumOk view && word32Ok addr && tideOk applyTide) s fun d =>
    d.written cmpPage Reg.cmpCtl_CMD_GO.addr fun d => d.viewCmd 3 view addr staged applyTide

/-- VIEW_CLEAR (R476). -/
def execViewClear (view addr : Nat) (staged : Bool) (applyTide : Nat) (s : State) : Host.Outcome State Fault Refusal :=
  act (viewNumOk view && word32Ok addr && tideOk applyTide) s fun d =>
    d.written cmpPage Reg.cmpCtl_CMD_GO.addr fun d => d.viewCmd 4 view addr staged applyTide

/-- VIEW_READ (R476). -/
def execViewRead (view addr : Nat) (staged : Bool) (applyTide : Nat) (s : State) : Host.Outcome State Fault Refusal :=
  act (viewNumOk view && word32Ok addr && tideOk applyTide) s fun d =>
    d.written cmpPage Reg.cmpCtl_CMD_GO.addr fun d => d.viewCmd 5 view addr staged applyTide

end Sys2Proof.Machine
end

