-- ==== Sys2Proof/Machine/CmdWharf.lean ====
section
/-!
DEFINITION. The meanings of the commands of the Ledger and the Wharfinger (chapters 2 and 3).
-/

namespace Sys2Proof.Machine

/-- UNBOOKED_TIMEOUT (R103). -/
def execUnbookedTimeout (slot : Nat) (s : State) : Host.Outcome State Fault Refusal :=
  act (slotOk slot) s fun d => d.unbookedTimeout slot

/-- OP_START (R106). -/
def execOpStart (kind index ph : Nat) (s : State) : Host.Outcome State Fault Refusal :=
  act (kindOk kind && unitIndexOk index && phaseOk ph) s fun d => (d.atPhase ph).opStart ⟨kind, index⟩ ph

/-- OP_COMPLETE (R109). -/
def execOpComplete (slot : Nat) (report : OpReport) (ph : Nat) (s : State) : Host.Outcome State Fault Refusal :=
  act (slotOk slot && phaseOk ph) s fun d => (d.atPhase ph).opComplete slot report ph

/-- QUEUE_STALL_RESUME (R124). -/
def execQueueStallResume (queue : Nat) (s : State) : Host.Outcome State Fault Refusal :=
  act (queueOk queue) s fun d => d.stallResume queue

/-- ADMIT_STANDING (R60). -/
def execAdmitStanding (port : Nat) (words : List Word) (s : State) : Host.Outcome State Fault Refusal :=
  act (port4Ok port && words8Ok words) s fun d =>
    d.written ldgPage (Reg.ldg_ADMIT_GO.addrAt [port]) fun d => d.ldgCmd 1 port words

/-- ADMIT_ONESHOT (R73). -/
def execAdmitOneshot (port : Nat) (words : List Word) (s : State) : Host.Outcome State Fault Refusal :=
  act (port4Ok port && words8Ok words) s fun d =>
    d.written ldgPage (Reg.ldg_ADMIT_GO.addrAt [port]) fun d => d.ldgCmd 2 port words

/-- RESERVE_FWD (R76). -/
def execReserveFwd (port : Nat) (words : List Word) (s : State) : Host.Outcome State Fault Refusal :=
  act (port4Ok port && words8Ok words) s fun d =>
    d.written ldgPage (Reg.ldg_ADMIT_GO.addrAt [port]) fun d => d.ldgCmd 3 port words

/-- LDG_WITHDRAW (R65). -/
def execWithdraw (handle : Nat) (s : State) : Host.Outcome State Fault Refusal :=
  act (handleOk handle) s fun d => d.written ldgPage Reg.ldg_WITHDRAW_HANDLE.addr fun d => d.ldgWithdraw handle

/-- LDG_QUERY (R92). -/
def execQuery (word : Word) (s : State) : Host.Outcome State Fault Refusal :=
  always s fun d => d.written ldgPage Reg.ldg_QUERY_KIND.addr fun d => d.ldgQuery word.toNat

/-- UNBOOKED_SUBMIT (R102). -/
def execUnbookedSubmit (port : BtcPort) (addr : Nat) (s : State) : Host.Outcome State Fault Refusal :=
  act (btcPortOk port && descAddrOk addr) s fun d =>
    d.asked port.fn wfgPage (submitGoAddr port) fun d => d.submitCmd port (addr % 2 ^ 32) (addr / 2 ^ 32)

/-- WFG_CANCEL (R103). -/
def execWfgCancel (slot : Nat) (s : State) : Host.Outcome State Fault Refusal :=
  act (slotOk slot) s fun d => d.written wfgPage Reg.wfg_CANCEL_SLOT.addr fun d => d.wfgCancel slot

/-- FLOW_SKIP (R112). -/
def execFlowSkip (id seq : Nat) (s : State) : Host.Outcome State Fault Refusal :=
  act (halfOk id && halfOk seq) s fun d => d.written wfgPage Reg.wfg_FLOW_ID.addr fun d => d.flowSkip id seq

/-- DROP_REST (R123). -/
def execDropRest (queue lane : Nat) (s : State) : Host.Outcome State Fault Refusal :=
  act (queueOk queue && eightOk lane) s fun d => d.written wfgPage (queueAddr queue 7) fun d => d.dropRest queue lane

/-- FLUSH (R129). -/
def execFlush (queue : Nat) (s : State) : Host.Outcome State Fault Refusal :=
  act (queueOk queue) s fun d => d.written wfgPage (queueAddr queue 7) fun d => d.flushQueue queue

/-- CLEAR_DROP (R129). -/
def execClearDrop (queue : Nat) (s : State) : Host.Outcome State Fault Refusal :=
  act (queueOk queue) s fun d => d.written wfgPage (queueAddr queue 7) fun d => d.clearDrop queue

/-- QCFG_WRITE (R130). -/
def execQcfgWrite (queue : Nat) (word : Word) (s : State) : Host.Outcome State Fault Refusal :=
  act (queueOk queue) s fun d => d.written wfgPage (queueAddr queue 0) fun d => d.qcfgWrite queue word

end Sys2Proof.Machine
end

