-- ==== Sys2Proof/Machine/Dispatch.lean ====
section
/-!
DEFINITION. The dispatch: each command to its meaning.
-/

namespace Sys2Proof.Machine

def exec (i : Instr) (s : State) : Host.Outcome State Fault Refusal :=
  match i with
  | .tideBoundary x => Sys2Proof.Machine.execTideBoundary x s
  | .takeover => Sys2Proof.Machine.execTakeover s
  | .drainExpire berth => Sys2Proof.Machine.execDrainExpire berth s
  | .unbookedTimeout slot => Sys2Proof.Machine.execUnbookedTimeout slot s
  | .asmTimeout ctx => Sys2Proof.Machine.execAsmTimeout ctx s
  | .pauseExpired lport prio ph => Sys2Proof.Machine.execPauseExpired lport prio ph s
  | .pfcPauseEnd lport prio ph => Sys2Proof.Machine.execPfcPauseEnd lport prio ph s
  | .pfcRefresh lport ph => Sys2Proof.Machine.execPfcRefresh lport ph s
  | .syncLoss ph => Sys2Proof.Machine.execSyncLoss ph s
  | .edgeLoss input ph => Sys2Proof.Machine.execEdgeLoss input ph s
  | .ppsWidthEnd ph => Sys2Proof.Machine.execPpsWidthEnd ph s
  | .talkFadeOut basin => Sys2Proof.Machine.execTalkFadeOut basin s
  | .talkFadeIn basin => Sys2Proof.Machine.execTalkFadeIn basin s
  | .xpRampEnd mix entry => Sys2Proof.Machine.execXpRampEnd mix entry s
  | .tallyAgeDrop sub svc => Sys2Proof.Machine.execTallyAgeDrop sub svc s
  | .overrun core ph => Sys2Proof.Machine.execOverrun core ph s
  | .lfiHoldTimeout point lport ph => Sys2Proof.Machine.execLfiHoldTimeout point lport ph s
  | .thermalSample temp => Sys2Proof.Machine.execThermalSample temp s
  | .refreshRateRead ch ind => Sys2Proof.Machine.execRefreshRateRead ch ind s
  | .retrain ch ok => Sys2Proof.Machine.execRetrain ch ok s
  | .patrolScrub addr flaw => Sys2Proof.Machine.execPatrolScrub addr flaw s
  | .selfRefreshEntry ch ph => Sys2Proof.Machine.execSelfRefreshEntry ch ph s
  | .gateEntry lport ph => Sys2Proof.Machine.execGateEntry lport ph s
  | .gateListStart lport ph => Sys2Proof.Machine.execGateListStart lport ph s
  | .fanLaunch fan ph => Sys2Proof.Machine.execFanLaunch fan ph s
  | .fanCopy fan lport slot ph => Sys2Proof.Machine.execFanCopy fan lport slot ph s
  | .consentSweep berth ph => Sys2Proof.Machine.execConsentSweep berth ph s
  | .srSweep berth ph => Sys2Proof.Machine.execSrSweep berth ph s
  | .kfrSend ph => Sys2Proof.Machine.execKfrSend ph s
  | .essAudioTx flow ph => Sys2Proof.Machine.execEssAudioTx flow ph s
  | .essVideoFrameTx flow ph => Sys2Proof.Machine.execEssVideoFrameTx flow ph s
  | .essVideoPktTx flow ph => Sys2Proof.Machine.execEssVideoPktTx flow ph s
  | .step6Timeout ph => Sys2Proof.Machine.execStep6Timeout ph s
  | .auditSlice kind index ok signature => Sys2Proof.Machine.execAuditSlice kind index ok signature s
  | .auditLate kind index => Sys2Proof.Machine.execAuditLate kind index s
  | .syncTx lport ph => Sys2Proof.Machine.execSyncTx lport ph s
  | .followUpTx lport ph => Sys2Proof.Machine.execFollowUpTx lport ph s
  | .delayReqTx lport ph => Sys2Proof.Machine.execDelayReqTx lport ph s
  | .pdelayReqTx lport ph => Sys2Proof.Machine.execPdelayReqTx lport ph s
  | .announceTx lport ph => Sys2Proof.Machine.execAnnounceTx lport ph s
  | .opStart kind index ph => Sys2Proof.Machine.execOpStart kind index ph s
  | .opComplete slot report ph => Sys2Proof.Machine.execOpComplete slot report ph s
  | .dmaDone core ch ph => Sys2Proof.Machine.execDmaDone core ch ph s
  | .queueStallResume queue => Sys2Proof.Machine.execQueueStallResume queue s
  | .tallyHandover lport => Sys2Proof.Machine.execTallyHandover lport s
  | .txFrameStart lport frac ph => Sys2Proof.Machine.execTxFrameStart lport frac ph s
  | .pfcTx lport ph => Sys2Proof.Machine.execPfcTx lport ph s
  | .hostRingDeliver ring ph => Sys2Proof.Machine.execHostRingDeliver ring ph s
  | .holdReadBlock addr flaw who ph => Sys2Proof.Machine.execHoldReadBlock addr flaw who ph s
  | .holdWriteBlock addr data who ph => Sys2Proof.Machine.execHoldWriteBlock addr data who ph s
  | .fryFbItem ph => Sys2Proof.Machine.execFryFbItem ph s
  | .encFbItem ph => Sys2Proof.Machine.execEncFbItem ph s
  | .rxFrame x => Sys2Proof.Machine.execRxFrame x s
  | .ppsInEdge frac ph => Sys2Proof.Machine.execPpsInEdge frac ph s
  | .tevtEdge input falling width frac ph => Sys2Proof.Machine.execTevtEdge input falling width frac ph s
  | .hbWireRx frame ph => Sys2Proof.Machine.execHbWireRx frame ph s
  | .heartbeat head beat ph => Sys2Proof.Machine.execHeartbeat head beat ph s
  | .delta head records ph => Sys2Proof.Machine.execDelta head records ph s
  | .deltaEnd head ph => Sys2Proof.Machine.execDeltaEnd head ph s
  | .bulk head records ph => Sys2Proof.Machine.execBulk head records ph s
  | .bulkEnd head ph => Sys2Proof.Machine.execBulkEnd head ph s
  | .rowReq head records ph => Sys2Proof.Machine.execRowReq head records ph s
  | .joinReq head kcvs ph => Sys2Proof.Machine.execJoinReq head kcvs ph s
  | .aes3BlockRx k status user rate clean => Sys2Proof.Machine.execAes3BlockRx k status user rate clean s
  | .tdmMaskApply port => Sys2Proof.Machine.execTdmMaskApply port s
  | .aes3CsApply k => Sys2Proof.Machine.execAes3CsApply k s
  | .clkLost mon ph => Sys2Proof.Machine.execClkLost mon ph s
  | .clkLocked mon ph => Sys2Proof.Machine.execClkLocked mon ph s
  | .linkChange lport locked localFault remoteFault signal => Sys2Proof.Machine.execLinkChange lport locked localFault remoteFault signal s
  | .mrgLinkChange up => Sys2Proof.Machine.execMrgLinkChange up s
  | .pcieLinkChange speed width => Sys2Proof.Machine.execPcieLinkChange speed width s
  | .pwrOkLow => Sys2Proof.Machine.execPwrOkLow s
  | .pwrOkRise straps => Sys2Proof.Machine.execPwrOkRise straps s
  | .fabricPllLock => Sys2Proof.Machine.execFabricPllLock s
  | .perstNAssert => Sys2Proof.Machine.execPerstNAssert s
  | .perstNDeassert speed width => Sys2Proof.Machine.execPerstNDeassert speed width s
  | .pllUnlock => Sys2Proof.Machine.execPllUnlock s
  | .refclkLoss pair => Sys2Proof.Machine.execRefclkLoss pair s
  | .holdTrainDone ok => Sys2Proof.Machine.execHoldTrainDone ok s
  | .initDone => Sys2Proof.Machine.execInitDone s
  | .bootSelftestDone report => Sys2Proof.Machine.execBootSelftestDone report s
  | .domainOnDone domain => Sys2Proof.Machine.execDomainOnDone domain s
  | .engineFault kind index => Sys2Proof.Machine.execEngineFault kind index s
  | .coreFault core => Sys2Proof.Machine.execCoreFault core s
  | .bwrPipeFault index lost => Sys2Proof.Machine.execBwrPipeFault index lost s
  | .bndPipeFault sha index lost => Sys2Proof.Machine.execBndPipeFault sha index lost s
  | .fryLaneFault index lost => Sys2Proof.Machine.execFryLaneFault index lost s
  | .tlyLaneFault index lost => Sys2Proof.Machine.execTlyLaneFault index lost s
  | .abxMacFault index mixes => Sys2Proof.Machine.execAbxMacFault index mixes s
  | .abxDressFault index => Sys2Proof.Machine.execAbxDressFault index s
  | .ctrlFault index => Sys2Proof.Machine.execCtrlFault index s
  | .admitStanding port words => Sys2Proof.Machine.execAdmitStanding port words s
  | .admitOneshot port words => Sys2Proof.Machine.execAdmitOneshot port words s
  | .reserveFwd port words => Sys2Proof.Machine.execReserveFwd port words s
  | .withdraw handle => Sys2Proof.Machine.execWithdraw handle s
  | .query word => Sys2Proof.Machine.execQuery word s
  | .unbookedSubmit port addr => Sys2Proof.Machine.execUnbookedSubmit port addr s
  | .wfgCancel slot => Sys2Proof.Machine.execWfgCancel slot s
  | .flowSkip id seq => Sys2Proof.Machine.execFlowSkip id seq s
  | .dropRest queue lane => Sys2Proof.Machine.execDropRest queue lane s
  | .flush queue => Sys2Proof.Machine.execFlush queue s
  | .clearDrop queue => Sys2Proof.Machine.execClearDrop queue s
  | .qcfgWrite queue word => Sys2Proof.Machine.execQcfgWrite queue word s
  | .berthOpen port words image => Sys2Proof.Machine.execBerthOpen port words image s
  | .modify port words image => Sys2Proof.Machine.execModify port words image s
  | .activate port words => Sys2Proof.Machine.execActivate port words s
  | .drain port words => Sys2Proof.Machine.execDrain port words s
  | .quarantine port words => Sys2Proof.Machine.execQuarantine port words s
  | .resume port words => Sys2Proof.Machine.execResume port words s
  | .berthClose port words => Sys2Proof.Machine.execBerthClose port words s
  | .release port words => Sys2Proof.Machine.execRelease port words s
  | .btcRead port words => Sys2Proof.Machine.execBtcRead port words s
  | .pin port words => Sys2Proof.Machine.execPin port words s
  | .unpin port words => Sys2Proof.Machine.execUnpin port words s
  | .clearCounters port words => Sys2Proof.Machine.execClearCounters port words s
  | .findFree port words => Sys2Proof.Machine.execFindFree port words s
  | .cancelStaged port words => Sys2Proof.Machine.execCancelStaged port words s
  | .btcPinRowsWrite value => Sys2Proof.Machine.execBtcPinRowsWrite value s
  | .btcTrangeWrite tenant value => Sys2Proof.Machine.execBtcTrangeWrite tenant value s
  | .qayModeWrite quay mode => Sys2Proof.Machine.execQayModeWrite quay mode s
  | .gateArm lport bank ph => Sys2Proof.Machine.execGateArm lport bank ph s
  | .txtsPop quay => Sys2Proof.Machine.execTxtsPop quay s
  | .cntClear addr => Sys2Proof.Machine.execCntClear addr s
  | .anchor ph => Sys2Proof.Machine.execAnchor ph s
  | .tideBreak breakAt newTide breakPhase => Sys2Proof.Machine.execTideBreak breakAt newTide breakPhase s
  | .cancelBreak => Sys2Proof.Machine.execCancelBreak s
  | .srcSelWrite word => Sys2Proof.Machine.execSrcSelWrite word s
  | .ptpRoleWrite lport word => Sys2Proof.Machine.execPtpRoleWrite lport word s
  | .tevtPop => Sys2Proof.Machine.execTevtPop s
  | .kfrPli berth => Sys2Proof.Machine.execKfrPli berth s
  | .kfrFir berth => Sys2Proof.Machine.execKfrFir berth s
  | .polBurstWrite policer rate burst => Sys2Proof.Machine.execPolBurstWrite policer rate burst s
  | .setSend fn words data => Sys2Proof.Machine.execSetSend fn words data s
  | .setRecv fn words data => Sys2Proof.Machine.execSetRecv fn words data s
  | .setPair fn words data => Sys2Proof.Machine.execSetPair fn words data s
  | .setIcePwd fn words data => Sys2Proof.Machine.execSetIcePwd fn words data s
  | .wrap fn words data => Sys2Proof.Machine.execWrap fn words data s
  | .wrapSet fn tenant keyWords => Sys2Proof.Machine.execWrapSet fn tenant keyWords s
  | .wrapLock fn tenant => Sys2Proof.Machine.execWrapLock fn tenant s
  | .wrapZeroize fn tenant => Sys2Proof.Machine.execWrapZeroize fn tenant s
  | .fanSet port words => Sys2Proof.Machine.execFanSet port words s
  | .fanClear port words => Sys2Proof.Machine.execFanClear port words s
  | .groupStream port words => Sys2Proof.Machine.execGroupStream port words s
  | .routeSet port words => Sys2Proof.Machine.execRouteSet port words s
  | .routeClear port words => Sys2Proof.Machine.execRouteClear port words s
  | .rxAdd port words => Sys2Proof.Machine.execRxAdd port words s
  | .rxMod port words => Sys2Proof.Machine.execRxMod port words s
  | .rxDel port words => Sys2Proof.Machine.execRxDel port words s
  | .fryRead port words => Sys2Proof.Machine.execFryRead port words s
  | .nhEntryWrite quay index lo hi => Sys2Proof.Machine.execNhEntryWrite quay index lo hi s
  | .tallyNodeGo words => Sys2Proof.Machine.execTallyNodeGo words s
  | .basinSet port words => Sys2Proof.Machine.execBasinSet port words s
  | .inputSet port words => Sys2Proof.Machine.execInputSet port words s
  | .mixSet port words => Sys2Proof.Machine.execMixSet port words s
  | .xpSet port words => Sys2Proof.Machine.execXpSet port words s
  | .xpClear port words => Sys2Proof.Machine.execXpClear port words s
  | .dressSet port words => Sys2Proof.Machine.execDressSet port words s
  | .abxRead port words => Sys2Proof.Machine.execAbxRead port words s
  | .essAudioFlowEn flow word => Sys2Proof.Machine.execEssAudioFlowEn flow word s
  | .essVideoFlowEn tx flow word => Sys2Proof.Machine.execEssVideoFlowEn tx flow word s
  | .rknLoad pier image => Sys2Proof.Machine.execRknLoad pier image s
  | .ctxSet ctx addr => Sys2Proof.Machine.execCtxSet ctx addr s
  | .ctxMod ctx addr => Sys2Proof.Machine.execCtxMod ctx addr s
  | .ctxReset ctx addr => Sys2Proof.Machine.execCtxReset ctx addr s
  | .ctxRead ctx addr => Sys2Proof.Machine.execCtxRead ctx addr s
  | .ctxClear ctx addr => Sys2Proof.Machine.execCtxClear ctx addr s
  | .svySet ctx addr staged applyTide => Sys2Proof.Machine.execSvySet ctx addr staged applyTide s
  | .svyMod ctx addr staged applyTide => Sys2Proof.Machine.execSvyMod ctx addr staged applyTide s
  | .svyClear ctx addr staged applyTide => Sys2Proof.Machine.execSvyClear ctx addr staged applyTide s
  | .ltrSet ctx addr staged applyTide => Sys2Proof.Machine.execLtrSet ctx addr staged applyTide s
  | .ltrMod ctx addr staged applyTide => Sys2Proof.Machine.execLtrMod ctx addr staged applyTide s
  | .ltrClear ctx addr staged applyTide => Sys2Proof.Machine.execLtrClear ctx addr staged applyTide s
  | .key ctx addr staged applyTide => Sys2Proof.Machine.execKey ctx addr staged applyTide s
  | .svyRead ctx addr staged applyTide => Sys2Proof.Machine.execSvyRead ctx addr staged applyTide s
  | .ltrRead ctx addr staged applyTide => Sys2Proof.Machine.execLtrRead ctx addr staged applyTide s
  | .viewSet view addr staged applyTide => Sys2Proof.Machine.execViewSet view addr staged applyTide s
  | .viewMod view addr staged applyTide => Sys2Proof.Machine.execViewMod view addr staged applyTide s
  | .layout view addr staged applyTide => Sys2Proof.Machine.execLayout view addr staged applyTide s
  | .viewClear view addr staged applyTide => Sys2Proof.Machine.execViewClear view addr staged applyTide s
  | .viewRead view addr staged applyTide => Sys2Proof.Machine.execViewRead view addr staged applyTide s
  | .holdEnable => Sys2Proof.Machine.execHoldEnable s
  | .injArm ctl lo hi => Sys2Proof.Machine.execInjArm ctl lo hi s
  | .injPoison ctl lo hi => Sys2Proof.Machine.execInjPoison ctl lo hi s
  | .injDisable => Sys2Proof.Machine.execInjDisable s
  | .startActive => Sys2Proof.Machine.execStartActive s
  | .join => Sys2Proof.Machine.execJoin s
  | .forceTakeover => Sys2Proof.Machine.execForceTakeover s
  | .leave => Sys2Proof.Machine.execLeave s
  | .retire kind index => Sys2Proof.Machine.execRetire kind index s
  | .auditNow kind index => Sys2Proof.Machine.execAuditNow kind index s
  | .fuseBurnRepairs fsource => Sys2Proof.Machine.execFuseBurnRepairs fsource s
  | .fuseBurnRetire fsource => Sys2Proof.Machine.execFuseBurnRetire fsource s
  | .fuseWriteUser word data fsource => Sys2Proof.Machine.execFuseWriteUser word data fsource s
  | .fuseReadUser word => Sys2Proof.Machine.execFuseReadUser word s
  | .capture gauge snap => Sys2Proof.Machine.execCapture gauge snap s
  | .gaugeClear gauge => Sys2Proof.Machine.execGaugeClear gauge s
  | .gaugeEnable gauge word => Sys2Proof.Machine.execGaugeEnable gauge word s
  | .gaugeSample gauge value again => Sys2Proof.Machine.execGaugeSample gauge value again s
  | .lfsrSeedWrite word => Sys2Proof.Machine.execLfsrSeedWrite word s
  | .vfTenantWrite vf word => Sys2Proof.Machine.execVfTenantWrite vf word s
  | .bar2Access offset length data => Sys2Proof.Machine.execBar2Access offset length data s
  | .vecRearm vector ph => Sys2Proof.Machine.execVecRearm vector ph s
  | .vfRearm vf vector ph => Sys2Proof.Machine.execVfRearm vf vector ph s
  | .msixUnmask fn vector => Sys2Proof.Machine.execMsixUnmask fn vector s
  | .hostRingEnable ring word => Sys2Proof.Machine.execHostRingEnable ring word s
  | .vfFlr vf => Sys2Proof.Machine.execVfFlr vf s
  | .pfFlr => Sys2Proof.Machine.execPfFlr s
  | .logEntry => Sys2Proof.Machine.execLogEntry s
  | .applyArm page applyTide => Sys2Proof.Machine.execApplyArm page applyTide s
  | .applyCancel page => Sys2Proof.Machine.execApplyCancel page s
  | .softReset page => Sys2Proof.Machine.execSoftReset page s
  | .evtPendClear page mask => Sys2Proof.Machine.execEvtPendClear page mask s
  | .evtForce page mask => Sys2Proof.Machine.execEvtForce page mask s
  | .registerWrite addr word enables ph => Sys2Proof.Machine.execRegisterWrite addr word enables ph s
  | .bootGo ph => Sys2Proof.Machine.execBootGo ph s
  | .ebbEnter ph => Sys2Proof.Machine.execEbbEnter ph s
  | .ebbWake => Sys2Proof.Machine.execEbbWake s
  | .deviceReset => Sys2Proof.Machine.execDeviceReset s
  | .pwrDomEnWrite word => Sys2Proof.Machine.execPwrDomEnWrite word s
  | .rkAdd core rd rs rt sat => Sys2Proof.Machine.execRkAdd core rd rs rt sat s
  | .rkSub core rd rs rt sat => Sys2Proof.Machine.execRkSub core rd rs rt sat s
  | .rkAnd core rd rs rt => Sys2Proof.Machine.execRkAnd core rd rs rt s
  | .rkOr core rd rs rt => Sys2Proof.Machine.execRkOr core rd rs rt s
  | .rkXor core rd rs rt => Sys2Proof.Machine.execRkXor core rd rs rt s
  | .rkShl core rd rs rt sat => Sys2Proof.Machine.execRkShl core rd rs rt sat s
  | .rkShra core rd rs rt => Sys2Proof.Machine.execRkShra core rd rs rt s
  | .rkShrl core rd rs rt => Sys2Proof.Machine.execRkShrl core rd rs rt s
  | .rkMin core rd rs rt => Sys2Proof.Machine.execRkMin core rd rs rt s
  | .rkMax core rd rs rt => Sys2Proof.Machine.execRkMax core rd rs rt s
  | .rkAbs core rd rs sat => Sys2Proof.Machine.execRkAbs core rd rs sat s
  | .rkNeg core rd rs sat => Sys2Proof.Machine.execRkNeg core rd rs sat s
  | .rkMov core rd rs => Sys2Proof.Machine.execRkMov core rd rs s
  | .rkCmp core rs rt => Sys2Proof.Machine.execRkCmp core rs rt s
  | .rkAddi core rd rs imm => Sys2Proof.Machine.execRkAddi core rd rs imm s
  | .rkAndi core rd rs imm => Sys2Proof.Machine.execRkAndi core rd rs imm s
  | .rkOri core rd rs imm => Sys2Proof.Machine.execRkOri core rd rs imm s
  | .rkXori core rd rs imm => Sys2Proof.Machine.execRkXori core rd rs imm s
  | .rkMovi core rd imm => Sys2Proof.Machine.execRkMovi core rd imm s
  | .rkCmpi core rs imm => Sys2Proof.Machine.execRkCmpi core rs imm s
  | .rkShli core rd rs imm => Sys2Proof.Machine.execRkShli core rd rs imm s
  | .rkShrai core rd rs imm => Sys2Proof.Machine.execRkShrai core rd rs imm s
  | .rkShrli core rd rs imm => Sys2Proof.Machine.execRkShrli core rd rs imm s
  | .rkAmovi core rd imm => Sys2Proof.Machine.execRkAmovi core rd imm s
  | .rkMmovi core rd imm => Sys2Proof.Machine.execRkMmovi core rd imm s
  | .rkAaddi core rd imm => Sys2Proof.Machine.execRkAaddi core rd imm s
  | .rkMul core acc rs rt fract sat par => Sys2Proof.Machine.execRkMul core acc rs rt fract sat par s
  | .rkMac core acc rs rt fract sat par => Sys2Proof.Machine.execRkMac core acc rs rt fract sat par s
  | .rkMsu core acc rs rt fract sat par => Sys2Proof.Machine.execRkMsu core acc rs rt fract sat par s
  | .rkClr core acc => Sys2Proof.Machine.execRkClr core acc s
  | .rkMva core acc rd sh sat => Sys2Proof.Machine.execRkMva core acc rd sh sat s
  | .rkMvd core acc rs => Sys2Proof.Machine.execRkMvd core acc rs s
  | .rkAdda core acc sat => Sys2Proof.Machine.execRkAdda core acc sat s
  | .rkSha core acc sh sat => Sys2Proof.Machine.execRkSha core acc sh sat s
  | .rkNega core acc sat => Sys2Proof.Machine.execRkNega core acc sat s
  | .rkLd core cls reg a m pmod ofs => Sys2Proof.Machine.execRkLd core cls reg a m pmod ofs s
  | .rkSt core cls reg a m pmod ofs => Sys2Proof.Machine.execRkSt core cls reg a m pmod ofs s
  | .rkB core target => Sys2Proof.Machine.execRkB core target s
  | .rkBeq core target => Sys2Proof.Machine.execRkBeq core target s
  | .rkBne core target => Sys2Proof.Machine.execRkBne core target s
  | .rkBlt core target => Sys2Proof.Machine.execRkBlt core target s
  | .rkBge core target => Sys2Proof.Machine.execRkBge core target s
  | .rkBgt core target => Sys2Proof.Machine.execRkBgt core target s
  | .rkBle core target => Sys2Proof.Machine.execRkBle core target s
  | .rkBv core target => Sys2Proof.Machine.execRkBv core target s
  | .rkCall core target => Sys2Proof.Machine.execRkCall core target s
  | .rkRet core => Sys2Proof.Machine.execRkRet core s
  | .rkLoop core level count last => Sys2Proof.Machine.execRkLoop core level count last s
  | .rkBreak core level => Sys2Proof.Machine.execRkBreak core level s
  | .rkMovx core rd rs => Sys2Proof.Machine.execRkMovx core rd rs s
  | .rkPushx core rs => Sys2Proof.Machine.execRkPushx core rs s
  | .rkPopx core rd => Sys2Proof.Machine.execRkPopx core rd s
  | .rkNop core => Sys2Proof.Machine.execRkNop core s
  | .rkEnd core => Sys2Proof.Machine.execRkEnd core s
  | .rkTake core => Sys2Proof.Machine.execRkTake core s
  | .rkRti core => Sys2Proof.Machine.execRkRti core s
  | .rkDma core ch a => Sys2Proof.Machine.execRkDma core ch a s
  | .rkDmawait core ch => Sys2Proof.Machine.execRkDmawait core ch s
  | .loadDone pier failed inits => Sys2Proof.Machine.execLoadDone pier failed inits s
  | .fuseDone wrong => Sys2Proof.Machine.execFuseDone wrong s
  | .ebbEntered => Sys2Proof.Machine.execEbbEntered s
  | .ebbWoken => Sys2Proof.Machine.execEbbWoken s
  | .refclkReturn pair => Sys2Proof.Machine.execRefclkReturn pair s
  | .ref10mInEdge frac ph => Sys2Proof.Machine.execRef10mInEdge frac ph s
  | .clkEdge mon frac ph => Sys2Proof.Machine.execClkEdge mon frac ph s
  | .vecHoldoffEnd fn vector ph => Sys2Proof.Machine.execVecHoldoffEnd fn vector ph s
  | .loRead addr ph => Sys2Proof.Machine.execLoRead addr ph s
  | .ferryQueueItem queue fan => Sys2Proof.Machine.execFerryQueueItem queue fan s
  | .qayPcsFault index => Sys2Proof.Machine.execQayPcsFault index s

end Sys2Proof.Machine
end

