-- ==== Sys2Proof/Safety.lean ====
section
/-!
DEFINITION. The terms the statements are made in: what it is for a command to complete, which parts of the device a command
leaves alone, and the invariant of the fuses.
-/

namespace Sys2Proof

open Machine

/-! ### Completion -/

/-- A command completes: `exec` answers a next state, the queue and the fuses stand as they were, and the device before and
the device after are as `post` says. -/
def Completes (i : Instr) (s : State) (post : Dev → Dev → Prop) : Prop :=
  ∃ t, exec i s = .next t ∧ t.pending = s.pending ∧ t.fuse = s.fuse ∧ post s.dev t.dev

/-! ### What a command leaves alone -/

namespace Machine

/-- The parts of the device. -/
inductive Part where
  | variant | regs | staged | applied | lo | hi | tk | ldg | wfg | btc | qay | bwr | bnd | fry | tly | abx | apu | ess | rkn | dec | enc
  | cmp | mrg | hold | slw | tgg | lfi | gwy | pwr | free | out
  deriving DecidableEq, Repr

/-- A part is the same in both. -/
def Part.same (d e : Dev) : Part → Prop
  | .variant => e.variant = d.variant | .regs => e.regs = d.regs | .staged => e.staged = d.staged
  | .applied => e.applied = d.applied | .lo => e.loHeld = d.loHeld | .hi => e.hiCaptured = d.hiCaptured | .tk => e.tk = d.tk | .ldg => e.ldg = d.ldg
  | .wfg => e.wfg = d.wfg | .btc => e.btc = d.btc | .qay => e.qay = d.qay | .bwr => e.bwr = d.bwr | .bnd => e.bnd = d.bnd
  | .fry => e.fry = d.fry | .tly => e.tly = d.tly | .abx => e.abx = d.abx | .apu => e.apu = d.apu | .ess => e.ess = d.ess
  | .rkn => e.rkn = d.rkn | .dec => e.dec = d.dec | .enc => e.enc = d.enc | .cmp => e.cmp = d.cmp | .mrg => e.mrg = d.mrg
  | .hold => e.hold = d.hold | .slw => e.slw = d.slw | .tgg => e.tgg = d.tgg | .lfi => e.lfi = d.lfi | .gwy => e.gwy = d.gwy
  | .pwr => e.pwr = d.pwr | .free => e.free = d.free | .out => e.out = d.out

/-- Every part not named is the same in both. -/
def onlyParts (ps : List Part) (d e : Dev) : Prop := ∀ q, q ∉ ps → q.same d e

/-- Every register not named reads the same in both. -/
def onlyWords (as : List Nat) (d e : Dev) : Prop := ∀ a, a ∉ as → e.word a = d.word a

/-- What an event of a page may change besides the page's EVT_PEND: the Gangway's vectors, what is sent to the host. -/
def eventParts : List Part := [.regs, .gwy, .out]

/-- EVT_PEND of a page (R591). -/
def evtPend (p : Page) : Nat := pageBase p + 0x018

/-- Event `bit` of a page is pending. -/
def Dev.pends (d : Dev) (p : Page) (bit : Nat) : Bool := bitAt (d.hdr p 0x018 31 0) bit

end Machine

/-! ### Admission (chapter 2) -/

namespace Machine

/-- The start Tide of a Manifest's command (R90): the one it names, or the second from now. -/
def Dev.manifestStart (d : Dev) (w : List Word) : Nat :=
  let given := wfld w 4 31 0 + 2 ^ 32 * wfld w 5 31 0
  if given = 0 then d.tide + 2 else given

/-- A Manifest named by the words `w` of an admission port passes the checks of R60 and fits the budget: it is read whole (the
device is then `c`), its descriptors `m` pass, the search finds the bookings `bs`, and a handle is free. -/
structure ManifestFits (d : Dev) (w : List Word) (standing : Bool) (c : Dev) (m : Checked) (bs : List Booking) : Prop where
  read : ∃ a ws ls, d.holdWords (wfld w 1 31 8 * 256 + 2 ^ 32 * wfld w 2 7 0) (16 * (min 256 (wfld w 3 8 0) + 1)) ldgPage =
      (a, .ok ws) ∧ a.readLayouts m.ops = (c, ls) ∧
    m.ops = ((List.range (min 256 (wfld w 3 8 0))).map fun i => slice ws (16 * (i + 1)) 16) ∧ m.layouts = ls ∧
    m.basin = (if wfld ws 3 12 12 = 1 then some (wfld ws 3 11 0) else none) ∧
    (wfld w 7 7 0 = 0 ∨ ∃ n, n < 8 ∧ bitAt (wfld w 7 7 0) n = true ∧ d.pierPresent n = true) ∧
    (∀ o ∈ m.ops, a.noUnit o = false) ∧
    c.headerBad w (ws.take 16) (wfld w 3 8 0) (c.manifestStart w) (c.manifestStart w + wfld w 6 6 0) standing = false
  names : m.tenant = wfld w 0 5 0 ∧ m.manifest = true ∧ m.standing = standing ∧ m.mask = wfld w 7 7 0
  basin : ∀ b t, m.basin = some b → c.basinTenant b = some t → t = m.tenant
  passes : c.checkOps m = none
  slots : m.ops.length ≤ c.freeGeneral
  flows : c.wfg.flows.length + (m.ops.filter Desc.ordered).length ≤ 4096
  found : c.search m (c.manifestStart w) (c.manifestStart w + wfld w 6 6 0) = .ok bs
  handle : c.ldg.adms.length < 65535

/-- A reservation that RESERVE_FWD's words describe may be made (R60, R76, R296). -/
structure ReserveFits (d : Dev) (w : List Word) : Prop where
  units : d.live (qayPage (reserveOf w).lport) = true ∧ ∀ k ∈ [0x7, 0x8, 0x9, 0xA], d.serving k ≠ []
  mine : if (reserveOf w).fan then ∀ f, d.fan? (reserveOf w).target = some f → f.tenant = wfld w 0 5 0
    else (reserveOf w).target < d.rowCount → d.rowState (reserveOf w).target = stFree ∨
      d.rowGet (reserveOf w).target RowF.TENANT = wfld w 0 5 0
  good : d.reserveBad w (reserveOf w) = false
  pools : d.poolShort (reserveOf w) = none
  wheel : (reserveOf w).fan = true →
    d.wheelShort (reserveOf w) (((d.fan? (reserveOf w).target).map (·.pi)).getD 1) = false
  handle : d.ldg.adms.length < 65535

/-- A descriptor that an unbooked submission names passes the checks of R102 and finds a slot; the device is then `c`. -/
structure SubmitFits (d : Dev) (addr tenant : Nat) (w : List Word) (c : Dev) : Prop where
  aligned : addr % 64 = 0
  read : ∃ a ls, d.holdWords addr 16 wfgPage = (a, .ok w) ∧ a.readLayouts [w] = (c, ls) ∧ c.noUnit w = false ∧
    c.checkOps ⟨[w], ls, tenant, none, false, false, 0⟩ = none
  slot : c.unbookedUse < c.get Reg.wfg_UNBOOKED_MAX ∧ 0 < c.freeGeneral
  flow : c.wfg.flows.length < 4096

end Machine

/-! ### Rows (chapter 4) -/

namespace Machine

/-- A row has its 64 words and its annex entry 32. -/
def Row.whole (r : Row) : Prop := r.words.length = 64 ∧ r.annex.length = 32

/-- The Berth Table lists its rows by rising index, each whole. -/
def Dev.rowsWf (d : Dev) : Prop := keysRise d.btc.rows = true ∧ ∀ x ∈ d.btc.rows, x.2.whole

/-- A function may give commands to a page: the page is live, and a VF has a tenant (R583, R587). -/
def Dev.grants (d : Dev) (fn : Fn) (p : Page) : Prop := d.live p = true ∧ ∀ v, fn = .vf v → d.vfTenant v ≠ 0

/-- The BTC's commands on a port, each with its opcode and its image (R147). -/
def btcRows (port : BtcPort) (ws img : List Word) : List (Instr × Nat × Option (List Word)) :=
  [(.berthOpen port ws img, 1, some img), (.modify port ws img, 2, some img), (.activate port ws, 3, none),
   (.drain port ws, 4, none), (.quarantine port ws, 5, none), (.resume port ws, 6, none), (.berthClose port ws, 7, none),
   (.release port ws, 8, none), (.btcRead port ws, 9, none), (.pin port ws, 10, none), (.unpin port ws, 11, none),
   (.clearCounters port ws, 12, none), (.findFree port ws, 13, none), (.cancelStaged port ws, 14, none)]

/-- The image in a port's registers. -/
def Dev.btcImage (d : Dev) (port : BtcPort) : List Word := d.wordsAt (btcImageAddr port) 64

/-- A command whose words are on its port, accepted and executed at once (R147–R151). -/
def Dev.btcTakes (d : Dev) (op : Nat) (port : BtcPort) (ws : List Word) : Prop :=
  btcStaged ws = false ∧ d.btcRefusal port (opWords op ws) (d.btcImage port) = none ∧
    d.btcShared port (opWords op ws) (d.btcImage port) = none

/-- What a port reports of its last command: VALID, APPLY, FOUND_STATE and STATUS (R156). -/
def Dev.btcReports (d : Dev) (port : BtcPort) (apply found status : Nat) : Prop :=
  d.word (btcPortAddr port + 0x24) = BitVec.ofNat 32 (2 ^ 30 + apply * 2 ^ 27 + found * 2 ^ 24 + status)

/-- No row but `b` changes its state. -/
def otherRows (b : Nat) (d e : Dev) : Prop := ∀ x, x ≠ b → e.rowState x = d.rowState x

end Machine

/-! ### A Reckoner core (chapter 12) -/

namespace Machine

/-- A core between instructions with nothing under way: no delay slot, no load in flight, no loop active, no operation named
by a PREEMPT. -/
def RkCore.calm (c : RkCore) : Prop :=
  c.branch = none ∧ c.loads = [] ∧ c.request = none ∧ c.srBit (srLA 0) = false ∧ c.srBit (srLA 1) = false

/-- The core is one of the device, it executes, and it is calm. -/
def Dev.ready (d : Dev) (n : Nat) : Prop := coreOk n = true ∧ d.executes n = true ∧ (d.core n).calm

/-- Nothing but core `n` and the count of free values drawn differs. -/
def onlyCore (n : Nat) (d e : Dev) : Prop :=
  { e with rkn := d.rkn, free := d.free } = d ∧ { e.rkn with cores := d.rkn.cores } = d.rkn ∧
    ∀ m, m ≠ n → e.core m = d.core m

/-- A row of a table of ALU instructions (R383): the instruction, the register it writes, its result before SAT, whether the
exact result leaves 16 bits, the carry where the spec states one, and what SAT puts in the result's place. -/
structure AluRow where
  instr : Instr
  dst : Nat
  res : Half
  excess : Bool
  carry : Option Bool
  clamp : Option Half

/-- The result a row leaves in its register. -/
def AluRow.final (r : AluRow) : Half := if r.excess then r.clamp.getD r.res else r.res

/-- What SAT puts in the place of a result that leaves 16 bits downwards or upwards. -/
def rkClamp (sat down : Bool) : Option Half := if sat then some (if down then 0x8000 else 0x7FFF) else none

/-- The three-operand and two-operand ALU instructions on a = d[rs] and b = d[rt] (R383). -/
def aluRows (n : Nat) (rd rs rt : BitVec 4) (sat : Bool) (a b : Half) : List AluRow :=
  let k := b.toNat % 16
  [⟨.rkAdd n rd rs rt sat, rd.toNat, a + b, a.saddOverflow b, some (decide (65536 ≤ a.toNat + b.toNat)), rkClamp sat a.msb⟩,
   ⟨.rkSub n rd rs rt sat, rd.toNat, a - b, a.ssubOverflow b, none, rkClamp sat a.msb⟩,
   ⟨.rkAnd n rd rs rt, rd.toNat, a &&& b, false, none, none⟩,
   ⟨.rkOr n rd rs rt, rd.toNat, a ||| b, false, none, none⟩,
   ⟨.rkXor n rd rs rt, rd.toNat, a ^^^ b, false, none, none⟩,
   ⟨.rkShl n rd rs rt sat, rd.toNat, a <<< k, (a <<< k).sshiftRight k != a, none, rkClamp sat a.msb⟩,
   ⟨.rkShra n rd rs rt, rd.toNat, a.sshiftRight k, false, none, none⟩,
   ⟨.rkShrl n rd rs rt, rd.toNat, a >>> k, false, none, none⟩,
   ⟨.rkMin n rd rs rt, rd.toNat, if b.slt a then b else a, false, none, none⟩,
   ⟨.rkMax n rd rs rt, rd.toNat, if a.slt b then b else a, false, none, none⟩,
   ⟨.rkAbs n rd rs sat, rd.toNat, if a.msb then -a else a, a == 0x8000, none, rkClamp sat false⟩,
   ⟨.rkNeg n rd rs sat, rd.toNat, -a, a == 0x8000, none, rkClamp sat false⟩,
   ⟨.rkMov n rd rs, rd.toNat, a, false, none, none⟩]

/-- The instructions with an immediate on a = d[rs] and x = a[rx] (R383). -/
def immRows (n : Nat) (rd rs : BitVec 4) (rx : BitVec 3) (imm a x : Half) : List AluRow :=
  let k := imm.toNat % 16
  [⟨.rkAddi n rd rs imm, rd.toNat, a + imm, a.saddOverflow imm, some (decide (65536 ≤ a.toNat + imm.toNat)), none⟩,
   ⟨.rkAndi n rd rs imm, rd.toNat, a &&& imm, false, none, none⟩,
   ⟨.rkOri n rd rs imm, rd.toNat, a ||| imm, false, none, none⟩,
   ⟨.rkXori n rd rs imm, rd.toNat, a ^^^ imm, false, none, none⟩,
   ⟨.rkMovi n rd imm, rd.toNat, imm, false, none, none⟩,
   ⟨.rkShli n rd rs imm, rd.toNat, a <<< k, (a <<< k).sshiftRight k != a, none, none⟩,
   ⟨.rkShrai n rd rs imm, rd.toNat, a.sshiftRight k, false, none, none⟩,
   ⟨.rkShrli n rd rs imm, rd.toNat, a >>> k, false, none, none⟩,
   ⟨.rkAmovi n rx imm, 16 + rx.toNat, imm, false, none, none⟩,
   ⟨.rkMmovi n rx imm, 24 + rx.toNat, imm, false, none, none⟩,
   ⟨.rkAaddi n rx imm, 16 + rx.toNat, x + imm, x.saddOverflow imm, some (decide (65536 ≤ x.toNat + imm.toNat)), none⟩]

/-- The bits of sr that no ALU instruction writes: AV, LA0, LA1 and IE (R379). -/
def srKept : Half := 0x1320

/-- Core `n` goes on to the next instruction (R380), its data RAM as before, its registers as before but those that `p`
holds of. -/
def keepsCore (n : Nat) (p : Nat → Prop) (d e : Dev) : Prop :=
  onlyCore n d e ∧ (e.core n).pc = ((d.core n).pc + 1) % 8192 ∧ (e.core n).ram = (d.core n).ram ∧
    ∀ q, q < 52 → ¬ p q → (e.core n).get q = (d.core n).get q

/-- The registers of an accumulator's three parts (R378). -/
def accParts (acc : Bool) : List Nat := if acc then [35, 36, 37] else [32, 33, 34]

/-- What a register takes of a value moved into it (R378, R379): the guard part of an accumulator its low byte, sign-extended,
sr the bits it has. -/
def rkWritten (reg : Nat) (v : Half) : Half :=
  if reg = 34 ∨ reg = 37 then (v.setWidth 8).signExtend 16 else if reg = 38 then v &&& 0x133F else v

/-- The transfer that a DMA of channel `ch` with its descriptor at `a` asks of core `n` (R402). -/
def dmaOf (d : Dev) (n ch : Nat) (a : Half) : RkDma :=
  let slot := ((d.core n).ops.head?.map (·.order)).bind d.slotByOrder
  ⟨ch, a, (List.range 8).map fun i => d.coreRead (d.core n) (a + BitVec.ofNat 16 (2 * i)), (d.core n).ops.head?.map (·.order),
    (slot.map (·.tenant)).getD 0, (slot.map Slot.admitted).getD false, true⟩

/-- A core that may execute a control instruction here (R389, R391). -/
def RkCore.atEase (c : RkCore) : Prop := c.branch = none ∧ c.atLoopEnd = false

/-- Instructions that trap on a core, when they do, and the cause (R395). -/
def trapRows (n : Nat) (c : RkCore) : List (Instr × Prop × Nat) :=
  let a1 := c.get 17
  [(.rkMovx n 54 0, True, 1), (.rkPushx n 63, True, 1), (.rkLd n 3 0 1 0 true 0, True, 1), (.rkSt n 1 8 1 0 true 0, True, 1),
   (.rkLd n 0 0 1 0 true 0, a1.getLsbD 0 = true, 2), (.rkSt n 2 0 1 0 true 0, a1.getLsbD 0 = true, 2),
   (.rkMac n false 0 0 false false (some ⟨0, 1, 0⟩), a1.getLsbD 0 = true, 2),
   (.rkB n 0, c.branch.isSome = true, 3), (.rkRti n, c.branch.isSome = true, 3), (.rkEnd n, c.branch.isSome = true, 3),
   (.rkLoop n false (.imm 1) 5, c.atEase ∧ c.srBit 8 = true, 4), (.rkBreak n true, c.branch = none ∧ c.atLoopEnd = true, 4),
   (.rkTake n, c.atEase, 5), (.rkSt n 0 3 1 0 true 0, a1.getLsbD 0 = false ∧ 0xFFC0 ≤ a1.toNat, 6),
   (.rkEnd n, c.atEase ∧ (c.get 0).toNat % 256 ∉ [0x00, 0x01, 0x02, 0x22, 0x24], 7), (.rkMva n true 2 25 false, True, 8)]

end Machine

/-! ### Hold (chapter 16) -/

namespace Machine

/-- Hold serves requests (R515, R527): its page is live and enabled, it was initialised, and the device is not in Ebb mode. -/
def Dev.holdServes (d : Dev) : Prop :=
  d.live hldPage = true ∧ d.flag Reg.hld_EN = true ∧ d.flag Reg.hld_INIT_DONE = true ∧ d.get Reg.dev_DEV_STATE ≠ 3

/-- The errors a read of a block meets on its channel: what an armed injection adds, what the block was stored with, and what
its lines bring (R509, R528). -/
def Dev.errsAt (d : Dev) (ch blk : Nat) (flaw : ReadFlaw) : List (Nat × Nat) :=
  let inj := match d.hold.injection with
    | some i => if i.ch = ch ∧ i.block = blk ∧ i.onWrite = false then i.symbols else 0
    | none => 0
  let stored := (assoc? blk d.hold.bad).getD 0
  (if inj = 0 then [] else [(16, inj)]) ++ (if stored = 0 then [] else [(17, stored)]) ++ flaw.errs

end Machine

/-! ### Vectors (chapter 19) -/

namespace Machine

/-- VEC_HOLDOFF has passed since a vector's last message, or it has sent none (R594). -/
def Dev.vecDue (d : Dev) (f : Fn) (v : Nat) : Bool :=
  match d.gwy.lastMsg.find? fun x => x.1 == f && x.2.1 == v with
  | some x => decide (x.2.2 + 1000 * min 1000 (d.get Reg.gwy_VEC_HOLDOFF) ≤ d.ns)
  | none => true

end Machine

/-! ### Fuses (chapter 18) -/

namespace Machine

/-- The fuses are within their array (R567): records and provider words in use, the words by rising number. -/
def Fuse.wf (f : Fuse) : Prop :=
  f.repairs.length ≤ 128 ∧ f.retires.length ≤ 32 ∧ keysRise f.user = true ∧ ∀ x ∈ f.user, x.1 < 32

/-- Fuses `g` hold all that `f` does: what is burnt stays (R567). -/
def Fuse.grownTo (f g : Fuse) : Prop :=
  g.variant = f.variant ∧ g.dieId = f.dieId ∧ g.trims = f.trims ∧ f.repairs <+: g.repairs ∧ f.retires <+: g.retires ∧
    ∀ k w, assoc? k f.user = some w → assoc? k g.user = some w

end Machine

end Sys2Proof
end

