-- ==== Sys2Proof/Certificates/Slice0/Obligations.lean ====
section
/-!
DEFINITION. The statements about the model, each a proposition for the provers.
-/

section

open Sys2Proof Sys2Proof.Machine

/-! ### Reckoner cores (chapter 12) -/

/-- The ALU instructions of groups 0x0 and 0x1 that write a register (R379, R383): on every calm core each completes, its register
takes its result, clamped where SAT is set, and nothing else of the core changes but sr and the pc. The flags of the same
instructions (R379, R383): Z and N from the result, V where the exact result leaves 16 bits, C where the spec states a carry, SV
set by a clamp and never cleared, every other bit of sr kept. That V does not depend on SAT, and that logic and moves clear C
and V, is the model's reading (log entry 40). -/
def Obligations.ReckonerAlu : Prop :=
  (∀ (s : State) (n : Nat) (rd rs rt : BitVec 4) (rx : BitVec 3) (sat : Bool) (imm : BitVec 16), s.dev.ready n →
    ∀ r ∈ aluRows n rd rs rt sat ((s.dev.core n).get rs.toNat) ((s.dev.core n).get rt.toNat) ++
        immRows n rd rs rx imm ((s.dev.core n).get rs.toNat) ((s.dev.core n).get (16 + rx.toNat)),
      Completes r.instr s fun d e => keepsCore n (fun q => q = r.dst ∨ q = 38) d e ∧ (e.core n).get r.dst = r.final) ∧
  (∀ (s : State) (n : Nat) (rd rs rt : BitVec 4) (rx : BitVec 3) (sat : Bool) (imm : BitVec 16), s.dev.ready n →
    ∀ r ∈ aluRows n rd rs rt sat ((s.dev.core n).get rs.toNat) ((s.dev.core n).get rt.toNat) ++
        immRows n rd rs rx imm ((s.dev.core n).get rs.toNat) ((s.dev.core n).get (16 + rx.toNat)),
      Completes r.instr s fun d e =>
        let c := d.core n
        let x := e.core n
        x.srBit srZ = (r.final == 0) ∧ x.srBit srN = r.final.msb ∧ x.srBit srV = r.excess ∧
          (∀ b, r.carry = some b → x.srBit srC = b) ∧ x.srBit srSV = (c.srBit srSV || (r.excess && r.clamp.isSome)) ∧
          x.get 38 &&& srKept = c.get 38 &&& srKept)

/-- MUL, MAC and MSU (R384): the accumulator takes the product, or itself plus or minus the product, modulo 2⁴⁰ or clamped under
SAT; AV and SV say so; a parallel load is in flight to its register and the address register is post-modified (R386). -/
def Obligations.ReckonerMac : Prop :=
  ∀ (s : State) (n : Nat) (acc : Bool) (rs rt : BitVec 4) (fract sat : Bool) (par : Option RkPar), s.dev.ready n →
    (∀ p, par = some p → ((s.dev.core n).get (16 + p.pa.toNat)).getLsbD 0 = false) →
    let c := s.dev.core n
    let product := (if fract then 2 else 1) * ((c.get rs.toNat).toInt * (c.get rt.toNat).toInt)
    ∀ r ∈ [(Instr.rkMul n acc rs rt fract sat par, product), (Instr.rkMac n acc rs rt fract sat par, c.acc acc + product),
        (Instr.rkMsu n acc rs rt fract sat par, c.acc acc - product)],
      Completes r.1 s fun d e =>
        let x := e.core n
        let clamped := max (-2147483648) (min 2147483647 r.2)
        keepsCore n (fun q => q ∈ accParts acc ∨ q = 38 ∨ ∃ p, par = some p ∧ q = 16 + p.pa.toNat) d e ∧
          x.acc acc = (if sat then clamped else r.2.bmod (2 ^ 40)) ∧ x.acc (!acc) = c.acc (!acc) ∧
          x.srBit srSV = (c.srBit srSV || (sat && decide (clamped ≠ r.2))) ∧
          x.srBit srAV = (c.srBit srAV || (!sat && decide (r.2.bmod (2 ^ 40) ≠ r.2))) ∧
          x.get 38 &&& 0x130F = c.get 38 &&& 0x130F ∧
          match par with
          | none => x.loads = []
          | some p =>
            x.loads = [⟨p.prd.toNat, s.dev.coreRead c (c.get (16 + p.pa.toNat)), 2⟩] ∧
              x.get (16 + p.pa.toNat) = c.get (16 + p.pa.toNat) + c.get (24 + p.pm.toNat)

/-- CMP and CMPI write no register but sr: the flags are those of the difference (R383). The accumulator instructions (R385): CLR,
MVD, ADDA, SHA and NEGA on an accumulator, MVA with SH up to 24 into a d register. That ADDA and NEGA follow the SAT rules with
their own SAT bit is the model's reading (log entry 40). -/
def Obligations.ReckonerCompareAndAccumulators : Prop :=
  (∀ (s : State) (n : Nat) (rs rt : BitVec 4) (imm : BitVec 16), s.dev.ready n →
    ∀ p ∈ [(Instr.rkCmp n rs rt, (s.dev.core n).get rt.toNat), (Instr.rkCmpi n rs imm, imm)],
      Completes p.1 s fun d e =>
        let a := (d.core n).get rs.toNat
        keepsCore n (fun q => q = 38) d e ∧ (e.core n).srBit srZ = (a == p.2) ∧ (e.core n).srBit srN = (a - p.2).msb ∧
          (e.core n).srBit srV = a.ssubOverflow p.2 ∧ ((e.core n).srBit srN != (e.core n).srBit srV) = a.slt p.2) ∧
  (∀ (s : State) (n : Nat) (acc : Bool) (r : BitVec 4) (sh : BitVec 6) (sat : Bool), s.dev.ready n →
    let c := s.dev.core n
    let a := c.acc acc
    (∀ p ∈ [(Instr.rkClr n acc, 0, false), (Instr.rkMvd n acc r, 65536 * (c.get r.toNat).toInt, false),
        (Instr.rkAdda n acc sat, a + c.acc (!acc), sat), (Instr.rkNega n acc sat, -a, sat),
        (Instr.rkSha n acc sh sat, if 0 < sh.toInt then a * 2 ^ sh.toInt.toNat else a / 2 ^ (-sh.toInt).toNat,
          sat && decide (0 < sh.toInt))],
      Completes p.1 s fun d e =>
        keepsCore n (fun q => q ∈ accParts acc ∨ q = 38) d e ∧
          (e.core n).acc acc = (if p.2.2 then max (-2147483648) (min 2147483647 p.2.1) else p.2.1.bmod (2 ^ 40))) ∧
    (sh.toNat ≤ 24 →
      Completes (.rkMva n acc r sh sat) s fun d e =>
        let v := a / 2 ^ sh.toNat
        keepsCore n (fun q => q = r.toNat ∨ q = 38) d e ∧
          (e.core n).get r.toNat = BitVec.ofInt 16 (if sat then max (-32768) (min 32767 v) else v) ∧
          (e.core n).srBit srSV = (c.srBit srSV || (sat && decide (v < -32768 ∨ 32767 < v)))))

/-- LD and POPX (R386, R388, R400): the loaded half-word reaches its register at the end of the second instruction after the load;
the two instructions in between read the old value. POPX loads from xsp and then increases it by 2 (R400): the load is in
flight, as LD's is. ST and PUSHX store one half-word and no other byte (R386, R400). ST writes the register of its CLASS at the
address it computes; PUSHX decreases xsp by 2 and then stores there. -/
def Obligations.ReckonerLoadsAndStores : Prop :=
  (∀ (s : State) (n : Nat) (reg : BitVec 4) (a m : BitVec 3) (pmod : Bool) (ofs : BitVec 11), s.dev.ready n →
    let c := s.dev.core n
    let base := c.get (16 + a.toNat)
    let ea := if pmod then base else base + ofs.signExtend 16
    ea.getLsbD 0 = false → (∀ o ∈ c.ops, o.cyc + 3 ≤ o.limit) →
    ∃ t1 t2 t3, exec (.rkLd n 0 reg a m pmod ofs) s = .next t1 ∧ exec (.rkNop n) t1 = .next t2 ∧ exec (.rkNop n) t2 = .next t3 ∧
      (t1.dev.core n).get reg.toNat = c.get reg.toNat ∧ (t2.dev.core n).get reg.toNat = c.get reg.toNat ∧
      (t3.dev.core n).get reg.toNat = s.dev.coreRead c ea ∧
      (t1.dev.core n).get (16 + a.toNat) = (if pmod then base + c.get (24 + m.toNat) else base) ∧
      (t3.dev.core n).ram = c.ram ∧ (t3.dev.core n).loads = []) ∧
  (∀ (s : State) (n : Nat) (r : BitVec 6), s.dev.ready n → r.toNat < 54 → ((s.dev.core n).get 51).getLsbD 0 = false →
    Completes (.rkPopx n r) s fun d e =>
      keepsCore n (fun q => q = 51) d e ∧ (e.core n).get 51 = (d.core n).get 51 + 2 ∧
        (e.core n).loads = [⟨r.toNat, d.coreRead (d.core n) ((d.core n).get 51), 2⟩]) ∧
  (∀ (s : State) (n : Nat), s.dev.ready n →
    let c := s.dev.core n
    (∀ (cls : BitVec 2) (reg : BitVec 4) (a m : BitVec 3) (pmod : Bool) (ofs : BitVec 11) (r : Nat),
      rkClassReg cls reg = some r →
      let base := c.get (16 + a.toNat)
      let ea := if pmod then base else base + ofs.signExtend 16
      ea.getLsbD 0 = false → ea.toNat < 0xFFC0 →
      Completes (.rkSt n cls reg a m pmod ofs) s fun d e =>
        onlyCore n d e ∧ (e.core n).half ea = c.get r ∧
          (∀ x, x ≠ ea.toNat → x ≠ ea.toNat + 1 → Memory.read (e.core n).ram x = Memory.read c.ram x) ∧
          ∀ q, q < 52 → (e.core n).get q = if pmod ∧ q = 16 + a.toNat then base + c.get (24 + m.toNat) else c.get q) ∧
    ∀ r : BitVec 6, r.toNat < 54 →
      let sp := c.get 51 - 2
      sp.getLsbD 0 = false → sp.toNat < 0xFFC0 →
      Completes (.rkPushx n r) s fun d e =>
        onlyCore n d e ∧ (e.core n).half sp = c.get r.toNat ∧
          (∀ x, x ≠ sp.toNat → x ≠ sp.toNat + 1 → Memory.read (e.core n).ram x = Memory.read c.ram x) ∧
          ∀ q, q < 52 → (e.core n).get q = if q = 51 then sp else c.get q)

/-- Branches, CALL and RET (R389): the instruction after them executes, and the one after that is at the target if the branch is
taken, or the next in sequence. CALL sets lr to its own index + 2. END, TAKE and RTI (R393, R399, R401): END leaves the core
idle with one operation less; TAKE starts the operation that PREEMPT named, one level up; RTI goes on where xpc says, with sr
from xsr; after both, an operation of a higher class that became ready while IE was 0 pre-empts (R397). -/
def Obligations.ReckonerControlFlow : Prop :=
  (∀ (s : State) (n : Nat) (target : BitVec 13), s.dev.ready n → (∀ o ∈ (s.dev.core n).ops, o.cyc + 2 ≤ o.limit) →
    let c := s.dev.core n
    let z := c.srBit srZ
    let less := c.srBit srN != c.srBit srV
    ∀ p ∈ [(Instr.rkB n target, true, target.toNat), (Instr.rkBeq n target, z, target.toNat),
        (Instr.rkBne n target, !z, target.toNat), (Instr.rkBlt n target, less, target.toNat),
        (Instr.rkBge n target, !less, target.toNat), (Instr.rkBgt n target, !less && !z, target.toNat),
        (Instr.rkBle n target, less || z, target.toNat), (Instr.rkBv n target, c.srBit srV, target.toNat),
        (Instr.rkCall n target, true, target.toNat), (Instr.rkRet n, true, (c.get 45).toNat % 8192)],
      ∃ t1 t2, exec p.1 s = .next t1 ∧ exec (.rkNop n) t1 = .next t2 ∧
        (t1.dev.core n).pc = (c.pc + 1) % 8192 ∧
        (t2.dev.core n).pc = (if p.2.1 then p.2.2 else (c.pc + 2) % 8192) ∧
        (t2.dev.core n).get 45 = (if p.1 = .rkCall n target then BitVec.ofNat 16 ((c.pc + 2) % 8192) else c.get 45) ∧
        ∀ q, q < 52 → q ≠ 45 → (t2.dev.core n).get q = c.get q) ∧
  (∀ (s : State) (n : Nat) (o : RkOp) (rest : List RkOp), coreOk n = true → s.dev.executes n = true →
    let c := s.dev.core n
    c.ops = o :: rest → c.branch = none → c.atLoopEnd = false →
    (c.mode = .run → c.request = none → ((c.get 0).toNat % 256) ∈ [0x00, 0x01, 0x02, 0x22, 0x24] →
      Completes (.rkEnd n) s fun _ e => (e.core n).mode = .idle ∧ (e.core n).ops = rest) ∧
    (∀ (w : Slot) (t : RkTask) (k : Nat), c.request = some k → s.dev.slotByOrder k = some w →
      s.dev.slotTask w n = some t → rest.length < 2 →
      Completes (.rkTake n) s fun d e => ∃ f : Dev, e = f.preemptScan ∧
        let x := f.core n
        x.mode = .run ∧ x.pc = t.entry % 8192 ∧ x.ops = ⟨w.order, w.num, t.cycles, d.tide % 2 ^ 32, 0⟩ :: c.ops ∧
          x.get 16 = BitVec.ofNat 16 (0xFF00 + 0x40 * c.ops.length) ∧ x.get 38 = 0x1000 ∧
          (Memory.readN x.ram (0xFF00 + 0x40 * c.ops.length) 64 = padTo 64 (bytesOfWords w.desc)) ∧
          ∀ q, q < 52 → q ≠ 16 → q ≠ 38 → x.get q = c.get q) ∧
    (c.mode = .resume → c.loads = [] → (c.get 48).toNat % 4 = 0 → (c.get 48).toNat / 256 % 4 = 0 →
      Completes (.rkRti n) s fun _ e => ∃ f : Dev, e = f.preemptScan ∧
        (f.core n).mode = .run ∧ (f.core n).pc = (c.get 46).toNat % 8192 ∧ (f.core n).get 38 = c.get 47 &&& srMask ∧
          ∀ q, q < 52 → q ≠ 38 → (f.core n).get q = c.get q))

/-- LOOP (R390): ls, le and lc are set and LA with them; a count of 0 leaves LA clear and goes on at END + 1. MOVX copies a register
as its target takes it (R378), BREAK clears LA, NOP does nothing. A loop of more than one turn left goes back to its start with
one turn less; the last turn leaves it (R391). -/
def Obligations.ReckonerLoopsAndMoves : Prop :=
  (∀ (s : State) (n : Nat), coreOk n = true → s.dev.executes n = true →
    let c := s.dev.core n
    c.branch = none → c.loads = [] → c.request = none →
    (∀ (level : Bool) (count : RkCount) (last : BitVec 13), c.calm →
      let l := bitOf level
      Completes (.rkLoop n level count last) s fun d e =>
        onlyCore n d e ∧ ((e.core n).get (39 + 3 * l)).toNat = c.countOf count ∧
          ((e.core n).get (40 + 3 * l)).toNat = (c.pc + 1) % 8192 ∧ ((e.core n).get (41 + 3 * l)).toNat = last.toNat ∧
          (e.core n).srBit (8 + l) = decide (c.countOf count ≠ 0) ∧
          (e.core n).pc = (if c.countOf count = 0 then last.toNat + 1 else c.pc + 1) % 8192) ∧
    (∀ level : Bool, c.atLoopEnd = false →
      Completes (.rkBreak n level) s fun d e => keepsCore n (fun q => q = 38) d e ∧ (e.core n).srBit (8 + bitOf level) = false ∧
        (e.core n).srBit (9 - bitOf level) = c.srBit (9 - bitOf level)) ∧
    (c.calm → Completes (.rkNop n) s fun d e => keepsCore n (fun _ => False) d e) ∧
    (∀ rd rs : BitVec 6, c.calm → rd.toNat < 52 → rs.toNat < 54 →
      Completes (.rkMovx n rd rs) s fun d e =>
        keepsCore n (fun q => q = rd.toNat) d e ∧ (e.core n).get rd.toNat = rkWritten rd.toNat (c.get rs.toNat))) ∧
  (∀ (s : State) (n : Nat), coreOk n = true → s.dev.executes n = true →
    let c := s.dev.core n
    c.branch = none → c.loads = [] → c.request = none → c.srBit 8 = true → c.srBit 9 = false → (c.get 41).toNat = c.pc →
    Completes (.rkNop n) s fun d e =>
      onlyCore n d e ∧
        (e.core n).pc = (if 1 < (c.get 39).toNat then (c.get 40).toNat else c.pc + 1) % 8192 ∧
        (e.core n).get 39 = (if 1 < (c.get 39).toNat then c.get 39 - 1 else c.get 39) ∧
        (e.core n).srBit 8 = decide (1 < (c.get 39).toNat))

/-- The causes of R395: a reserved register, a misaligned address, a control instruction in a delay slot, a LOOP of an active level
or at a loop's end, a TAKE without a PREEMPT, a store to the information area, an END with another code, an MVA beyond 24. The
trap is recorded with its cause and the pc, and then the operation ends with FAILED_UNIT_FAULT: the core idles. After a TAKE or
an RTI the cores look again for an operation that pre-empts (R397). -/
def Obligations.ReckonerTraps : Prop :=
  ∀ (s : State) (n : Nat) (o : RkOp), coreOk n = true → s.dev.executes n = true →
    let c := s.dev.core n
    c.ops = [o] → c.mode = .run → c.request = none →
    ∀ p ∈ trapRows n c, p.2.1 →
      Completes p.1 s fun _ e =>
        (e.core n).mode = .idle ∧ (e.core n).ops = [] ∧
          ∃ d : Dev, (let x := d.coreEnd n .failedUnitFault
              e = if p.1 = .rkTake n ∨ p.1 = .rkRti n then x.preemptScan else x) ∧ d.core n = c ∧
            d.get Reg.rkn_CORE_TRAP_CAUSE (rknIx n ++ [coreLocal n]) = p.2.2 ∧
            d.get Reg.rkn_CORE_LAST_TRAP_PC (rknIx n ++ [coreLocal n]) = c.pc % 2 ^ 13

/-- DMA starts the transfer its descriptor asks for (R402): BUSY is set in the descriptor, the channel is busy; DMAWAIT then waits,
staying at its own instruction, and goes on once the channel is idle (R387). A refused transfer moves nothing, has its status in
the descriptor and is counted (R403). -/
def Obligations.ReckonerDma : Prop :=
  ∀ (s : State) (n : Nat) (ch : BitVec 2) (a : BitVec 3), s.dev.ready n →
    let c := s.dev.core n
    let desc := c.get (16 + a.toNat)
    (c.dmaBusy ch.toNat = false → desc.getLsbD 0 = false → (desc + 14).toNat < 0xFFC0 →
      Completes (.rkDma n ch a) s fun d e =>
        (e.core n).pc = (c.pc + 1) % 8192 ∧
          match d.dmaRefusal (dmaOf d n ch.toNat desc) with
          | none => (e.core n).dmaBusy ch.toNat = true ∧ ((e.core n).half (desc + 14)).toNat = 0x8000
          | some st => (e.core n).dma = c.dma ∧ ((e.core n).half (desc + 14)).toNat = st.code ∧
            e.get Reg.rkn_DMA_REFUSED (rknIx n) = satAdd 32 (d.get Reg.rkn_DMA_REFUSED (rknIx n)) 1) ∧
    Completes (.rkDmawait n ch) s fun _ e =>
      (e.core n).pc = (if c.dmaBusy ch.toNat then c.pc else (c.pc + 1) % 8192) ∧
        ∀ q, q < 52 → (e.core n).get q = c.get q

/-! ### The Tide and device time (chapters 2 and 6) -/

/-- TIDE_BOUNDARY (R16, R50, R206): whatever else the pages do at the boundary, it begins with the next Tide: its number is the one
that follows, or NEW_TIDE where a break ends with the Tide, its phase is 0 and its device time its own start. -/
def Obligations.TideTurns : Prop :=
  ∀ (s : State) (x : TideInput), tideInOk x = true →
    Completes (.tideBoundary x) s fun d e =>
      let m := { d with ldg := { d.ldg with busy := [] } }.mrgClose d.tide
      let a := m.1
      let b := a.turnTide
      e = b.afterTurn d.tide x m.2.1 m.2.2 ∧
        b.phase = 0 ∧ b.ns = b.tide * 1000000 ∧ b.tk.anchoring = false ∧
        match a.tk.brk with
        | some k => if k.last = a.tide then b.tide = k.next ∧ b.tk.brk = none
          else b.tide = a.tk.nextTide.getD (a.tide + 1) ∧ b.tk.brk = some k
        | none => b.tide = a.tk.nextTide.getD (a.tide + 1) ∧ b.tk.brk = none

/-- ANCHOR, TIDE_BREAK and CANCEL_BREAK (R198, R206): STATUS says whether the command was taken; one that was refused changes
nothing but STATUS (and the registers that TIDE_BREAK's values are written to); no other part of the device changes. Sources and
roles (R192, R196, R197, R209): SRC_SEL 0 returns the Tidekeeper to FREERUN; PPS_OUT is low from then on if it is squelched and
Tides are not anchored; a write that would make a second SLAVE port is ignored and logged, any other takes EN, ROLE, P2P,
ONE_STEP and TRANSPORT from the word. -/
def Obligations.TideCommandsAndRoles : Prop :=
  (∀ (s : State),
    (∀ ph, phaseOk ph = true → Completes (.anchor ph) s fun d e =>
      let c := d.atPhase ph
      onlyParts [.regs, .tk] c e ∧ onlyWords [Reg.tkp_ANCHORED.addr, Reg.tkp_CMD_STATUS.addr] c e ∧
        e.anchored = true ∧ e.tide = c.tide ∧ e.ns = c.ns ∧
        if c.anchored then e.get Reg.tkp_CMD_STATUS = Status.refusedParam.code ∧ e.tk = c.tk
        else e.get Reg.tkp_CMD_STATUS = Status.done.code ∧ e.tk = { c.tk with anchoring := true }) ∧
    (∀ at_ new phase, tideOk at_ = true → tideOk new = true → phase20Ok phase = true →
      Completes (.tideBreak at_ new phase) s fun d e =>
        onlyParts [.regs, .tk] d e ∧ e.get64 Reg.tkp_BREAK_AT_LO Reg.tkp_BREAK_AT_HI = at_ ∧
          e.get64 Reg.tkp_NEW_TIDE_LO Reg.tkp_NEW_TIDE_HI = new ∧ e.get Reg.tkp_BREAK_PHASE = phase ∧
          if at_ < d.tide + 2 ∨ 999999 < phase ∨ d.anchored = false ∨ d.tk.brk ≠ none then
            e.get Reg.tkp_CMD_STATUS = Status.refusedParam.code ∧ e.tk = d.tk
          else e.get Reg.tkp_CMD_STATUS = Status.done.code ∧ e.get Reg.tkp_BREAK_PENDING = 1 ∧
            e.tk = { d.tk with brk := some ⟨at_, new, phase⟩ }) ∧
    Completes .cancelBreak s fun d e =>
      onlyParts [.regs, .tk] d e ∧ onlyWords [Reg.tkp_CMD_STATUS.addr] d e ∧
        if (d.tk.brk.any fun b => decide (d.tide < b.last)) = true then
          e.get Reg.tkp_CMD_STATUS = Status.done.code ∧ e.get Reg.tkp_BREAK_PENDING = 0 ∧ e.tk = { d.tk with brk := none }
        else e.get Reg.tkp_CMD_STATUS = Status.refusedParam.code ∧ e.tk = d.tk) ∧
  (∀ (s : State) (w : Word),
    (Completes (.srcSelWrite w) s fun d e =>
      onlyParts [.regs, .tk, .out] d e ∧ onlyWords [Reg.tkp_SRC_SEL.addr, Reg.tkp_TK_STATE.addr] d e ∧
        (e.flag Reg.tkp_PPS_SQUELCH = true → d.anchored = false → e.tk.ppsHigh = none) ∧
        e.get Reg.tkp_SRC_SEL = w.toNat % 4 ∧ e.get Reg.tkp_DOMAIN = w.toNat / 256 % 256 ∧
        e.tkState = (if w.toNat % 4 = 0 then tkFreerun else d.tkState) ∧ e.tide = d.tide ∧ e.anchored = d.anchored) ∧
    ∀ l, l < 16 → Completes (.ptpRoleWrite l w) s fun d e =>
      if w.toNat / 2 ^ 28 % 4 = roleSlave ∧ ∃ m ∈ List.range 16, m ≠ l ∧ d.get Reg.tkp_PTP_ROLE [m] = roleSlave then
        e = d.logIgnored tkpPage (Reg.tkp_PTP_ROLE.addrAt [l])
      else
        onlyParts [.regs] d e ∧ onlyWords [Reg.tkp_PTP_ROLE.addrAt [l]] d e ∧
          e.get Reg.tkp_PTP_ROLE [l] = w.toNat / 2 ^ 28 % 4 ∧ e.get Reg.tkp_PTP_EN [l] = w.toNat / 2 ^ 31 ∧
          e.get Reg.tkp_PTP_P2P [l] = w.toNat / 2 ^ 27 % 2 ∧ e.get Reg.tkp_PTP_ONE_STEP [l] = w.toNat / 2 ^ 26 % 2 ∧
          e.get Reg.tkp_PTP_TRANSPORT [l] = w.toNat / 2 ^ 24 % 4)

/-- Edges of the reference inputs (R196, R203, R204): one in its window is taken and the next is expected a period later, the edges
missed before it are counted; one outside is counted in EDGE_EXTRA and ignored, unless it shows a rate jump. The first REF10M_IN
edge after a loss ends HOLDOVER of a source that needs it, if PPS_IN is good. An accepted PPS_IN edge of a source that uses it
counts PPS_TOD on and is a sample against it, of the combined source only while REF10M_IN is good. The loss of an input (R197,
R202, R203): after SYNC_LOSS Sync intervals without a Sync, or three successive expected edges that did not come, its bit of
SRC_OK is 0, SRC_LOST is pending, and a Tidekeeper in ACQUIRE or LOCKED on that source is in HOLDOVER. -/
def Obligations.ReferenceInputs : Prop :=
  (∀ (s : State) (frac ph : Nat), fracOk frac = true → phaseOk ph = true →
    let c := s.dev.atPhase ph
    let t := c.ns * 65536 + frac
    (Completes (.ref10mInEdge frac ph) s fun _ e =>
      match c.tk.ref10m.expect with
      | none => e.tk.ref10m.expect = some (t + refPeriod) ∧ e.srcOk 1 = true ∧
        e.get Reg.tkp_EDGE_EXTRA = c.get Reg.tkp_EDGE_EXTRA ∧
        e.tkState = (if c.selects 1 && c.srcOk 2 && !c.srcOk 1 && c.tkState == tkHoldover then tkAcquire else c.tkState)
      | some x => match edgeFits x refPeriod c.refWindow t with
        | some k => e.tk.ref10m.expect = some (t + refPeriod) ∧ e.srcOk 1 = true ∧
          e.get Reg.tkp_EDGE_MISS = satAdd 16 (c.get Reg.tkp_EDGE_MISS) k
        | none => e.tk.ref10m.expect = some x ∧ e.srcOk 1 = c.srcOk 1 ∧
          e.get Reg.tkp_EDGE_EXTRA = satAdd 16 (c.get Reg.tkp_EDGE_EXTRA) 1) ∧
    Completes (.ppsInEdge frac ph) s fun _ e =>
      let taken (b : Dev) : Prop := b.tk.pps.expect = some (t + ppsPeriod) ∧ b.srcOk 2 = true ∧
        (let tod := c.get64 Reg.tkp_PPS_TOD_LO Reg.tkp_PPS_TOD_HI
         if c.selects 2 = true then
          b.get64 Reg.tkp_PPS_TOD_LO Reg.tkp_PPS_TOD_HI = (tod + 1) % 2 ^ 64 ∧
            if c.get Reg.tkp_SRC_SEL = 2 ∨ b.srcOk 1 = true then e = b.tkSample 2 (((t : Int) - tod * ppsPeriod) / 65536)
            else e = b
         else b.get64 Reg.tkp_PPS_TOD_LO Reg.tkp_PPS_TOD_HI = tod ∧ e = b)
      match c.tk.pps.expect with
      | none => ∃ b, taken b ∧ b.get Reg.tkp_EDGE_MISS = c.get Reg.tkp_EDGE_MISS
      | some x => match edgeFits x ppsPeriod c.ppsWindow t with
        | some k => ∃ b, taken b ∧ b.get Reg.tkp_EDGE_MISS = satAdd 16 (c.get Reg.tkp_EDGE_MISS) k
        | none => e.get Reg.tkp_EDGE_EXTRA = satAdd 16 (c.get Reg.tkp_EDGE_EXTRA) 1 ∧
          (c.ppsJumped x t = false →
            e.tk = { c.tk with pps := ⟨some x, some t, true⟩ } ∧ onlyWords [Reg.tkp_EDGE_EXTRA.addr] c e) ∧
          (c.ppsJumped x t = true → c.selects 2 = true → e.pends tkpPage 4 = true ∧ e.tk.pps.expect = some (t + ppsPeriod) ∧
            e.tkState = (if c.tkState = tkLocked then tkAcquire else c.tkState))) ∧
  (∀ (s : State) (ph : Nat), phaseOk ph = true →
    let c := s.dev.atPhase ph
    let lost (i : Nat) (e : Dev) : Prop := e.srcOk i = false ∧ e.pends tkpPage 3 = true ∧ e.tide = c.tide ∧
      e.tkState = (if c.selects i = true ∧ (c.tkState = tkAcquire ∨ c.tkState = tkLocked) then tkHoldover else c.tkState)
    (∀ t v, c.tk.lastSync = some (t, v) → t + atLeast1 (c.get Reg.tkp_SYNC_LOSS) * v ≤ c.ns →
      Completes (.syncLoss ph) s fun _ e => lost 0 e ∧ e.tk.lastSync = none) ∧
    (∀ x, c.tk.ref10m.expect = some x → x + 2 * refPeriod + c.refWindow < c.ns * 65536 → c.srcOk 1 = true →
      Completes (.edgeLoss 1 ph) s fun _ e =>
        lost 1 e ∧ e.tk.ref10m.expect = none ∧ e.get Reg.tkp_EDGE_MISS = satAdd 16 (c.get Reg.tkp_EDGE_MISS) 3) ∧
    ∀ x, c.tk.pps.expect = some x → x + 2 * ppsPeriod + c.ppsWindow < c.ns * 65536 → c.srcOk 2 = true →
      Completes (.edgeLoss 2 ph) s fun _ e =>
        lost 2 e ∧ e.tk.pps.expect = none ∧ e.get Reg.tkp_EDGE_MISS = satAdd 16 (c.get Reg.tkp_EDGE_MISS) 3)

/-- Time events and PPS_OUT (R209, R211): an enabled edge between levels of at least 20 ns enters the FIFO of 16, or is counted in
TEVT_OVF when that is full; reading TEVT_FRAC answers it and removes the head; PPS_OUT falls after PPS_WIDTH µs. PTP messages
that ports send (R192, R195): when it is due, the message goes to the port's transmit queues with its type, its length and its
sequence number, with the majorSdoId of its profile, and the port counts on. The layout of the messages is IEEE 1588's (log
entry 41). -/
def Obligations.TimeEventsAndPtp : Prop :=
  (∀ (s : State),
    (∀ input falling width frac ph, tevtInputOk input = true → fracOk frac = true → phaseOk ph = true →
      s.dev.get Reg.dev_DEV_STATE ≠ devEbb → 20 ≤ width →
      bitAt (s.dev.get Reg.tkp_TEVT_EN) (2 * input + bitOf falling) = true →
      Completes (.tevtEdge input falling width frac ph) s fun d e =>
        let c := d.atPhase ph
        let x : TimeEvent := ⟨2 * input + bitOf falling, c.ns / 1000000000, c.ns % 1000000000, frac⟩
        if c.tk.events.length < 16 then onlyParts [.tk] c e ∧ e.tk = { c.tk with events := c.tk.events ++ [x] }
        else onlyParts eventParts c e ∧ (c.get Reg.tkp_TEVT_OVF < 2 ^ 32 - 1 → e.pends tkpPage 7 = true) ∧
          e.get Reg.tkp_TEVT_OVF = satAdd 32 (c.get Reg.tkp_TEVT_OVF) 1) ∧
    ((∀ x ∈ s.dev.hiCaptured, x.1 ≠ Reg.tkp_TEVT_FRAC.addr) →
      Completes .tevtPop s fun d e =>
        onlyParts [.tk, .out] d e ∧ e.tk = { d.tk with events := d.tk.events.drop 1 } ∧
          ∃ w, e.out = .completion (bytesOfWords [w]) false :: d.out ∧
            ∀ x, d.tk.events.head? = some x → w.toNat % 65536 = x.frac % 65536) ∧
    ∀ ph t, phaseOk ph = true → (s.dev.atPhase ph).tk.ppsHigh = some t →
      t + clampN 1 999999 (s.dev.get Reg.tkp_PPS_WIDTH) * 1000 ≤ (s.dev.atPhase ph).ns →
      Completes (.ppsWidthEnd ph) s fun d e =>
        let c := d.atPhase ph
        onlyParts [.tk, .out] c e ∧ e.tk = { c.tk with ppsHigh := none } ∧ e.out = .ppsOut false :: c.out) ∧
  (∀ (s : State) (l ph : Nat), l < 16 → phaseOk ph = true →
    let c := s.dev.atPhase ph
    let x := c.ptpPort l
    let sent (type len seq : Nat) (after : PtpPort) (e : Dev) : Prop :=
      ∃ b m, e = b.ptpSend l m ∧ onlyParts [.tk] c b ∧ b.tide = c.tide ∧ b.ptpPort l = after ∧
        byteAt m 0 = 16 * bitOf (c.isGptp l) + type ∧ byteAt m 1 = 2 ∧ beAt m 2 2 = len ∧ byteAt m 4 = c.get Reg.tkp_DOMAIN ∧
        slice m 20 10 = c.portIdentity l ∧ beAt m 30 2 = seq % 65536
    (c.ptpIs l roleMaster = true → c.ptpDue x.lastSync (c.get Reg.tkp_PTP_LOG_SYNC [l]) = true →
      Completes (.syncTx l ph) s fun _ e =>
        sent 0x0 44 x.seqSync { x with lastSync := some c.ns, seqSync := (x.seqSync + 1) % 65536 } e) ∧
    (c.ptpIs l roleMaster = true → c.ptpDue x.lastAnnounce (c.get Reg.tkp_PTP_LOG_ANNOUNCE [l]) = true →
      Completes (.announceTx l ph) s fun _ e =>
        sent 0xB 64 x.seqAnnounce { x with lastAnnounce := some c.ns, seqAnnounce := (x.seqAnnounce + 1) % 65536 } e) ∧
    (c.ptpIs l roleSlave = true → c.flag Reg.tkp_PTP_P2P [l] = false →
      c.ptpDue x.lastDelay (c.get Reg.tkp_PTP_LOG_DELAY [l]) = true →
      Completes (.delayReqTx l ph) s fun _ e =>
        sent 0x1 44 x.seqDelay { x with lastDelay := some c.ns, seqDelay := (x.seqDelay + 1) % 65536, request := none } e) ∧
    (c.flag Reg.tkp_PTP_EN [l] = true → c.flag Reg.tkp_PTP_P2P [l] = true → c.get Reg.tkp_PTP_ROLE [l] ≠ 0 →
      c.ptpDue x.lastDelay (c.get Reg.tkp_PTP_LOG_DELAY [l]) = true →
      Completes (.pdelayReqTx l ph) s fun _ e =>
        sent 0x2 54 x.seqDelay
          { x with lastDelay := some c.ns, seqDelay := (x.seqDelay + 1) % 65536, request := none, respWait := none } e) ∧
    ∀ f t, x.followUps.find? (·.ts.isSome) = some f → f.ts = some t →
      Completes (.followUpTx l ph) s fun _ e =>
        sent (if f.type = 0x8 then 0x8 else 0xA) (if f.type = 0x8 then (if c.isGptp l then 76 else 44) else 54) f.seq
          { x with followUps := x.followUps.erase f } e)

/-! ### The Quays (chapter 5) -/

/-- GATE_ARM (R179, R180): a list that meets the checks is pending, its start the first cycle at least 2 µs after the arm; one that
fails sets CFG_BAD and raises GATE_CFG_BAD. The operational list is as before either way. On a port that the mode does not have
ARM has no effect (R187). GATE_LIST_START and GATE_ENTRY (R180–R183): at its start a pending list becomes operational with the
entries its bank holds then, LATE says whether its base had passed, LONGEST_WIN_t reports W_t; an entry's end changes nothing
but the time. -/
def Obligations.GateLists : Prop :=
  (∀ (s : State) (l bank ph : Nat), l < 16 → bank < 2 → phaseOk ph = true → s.dev.live (qayPage l) = true →
    Completes (.gateArm l bank ph) s fun d e =>
      let c := d.atPhase ph
      let ix := portIx l
      let count := c.get Reg.qay_GATE_COUNT ix
      let cycle := c.get Reg.qay_GATE_CYCLE ix
      let es := c.gateEntries l bank count
      let base := c.get64 Reg.qay_GATE_BASE_TIDE_LO Reg.qay_GATE_BASE_TIDE_HI ix * 1000000 + c.get Reg.qay_GATE_BASE_PHASE ix
      (e.port l).oper = (c.port l).oper ∧ e.get Reg.qay_GATE_OPER_BANK ix = c.get Reg.qay_GATE_OPER_BANK ix ∧
        (∀ m, m ≠ l → e.port m = c.port m) ∧ onlyParts (.qay :: eventParts) c e ∧
        if c.portExists l = false then
          e.port l = c.port l ∧ e.get Reg.qay_GATE_PENDING ix = c.get Reg.qay_GATE_PENDING ix ∧
            e.get Reg.qay_GATE_CFG_BAD ix = c.get Reg.qay_GATE_CFG_BAD ix
        else if 1 ≤ count ∧ count ≤ 256 ∧ (∀ x ∈ es, 32 ≤ x.2 ∧ x.2 ≤ 1000000000) ∧ (es.map (·.2)).sum = cycle ∧
            ((1000 ≤ cycle ∧ 1000000 % cycle = 0) ∨ (0 < cycle ∧ cycle % 1000000 = 0 ∧ cycle ≤ 1000000000)) then
          e.get Reg.qay_GATE_PENDING ix = 1 ∧ e.get Reg.qay_GATE_CFG_BAD ix = 0 ∧
            ∃ k, (e.port l).pend = some (⟨bank, cycle, base, es⟩, base + k * cycle) ∧ c.ns + 2000 ≤ base + k * cycle ∧
              (k = 0 ∨ base + k * cycle < c.ns + 2000 + cycle)
        else e.get Reg.qay_GATE_CFG_BAD ix = 1 ∧ e.pends (qayPage l) 5 = true ∧ (e.port l).pend = (c.port l).pend) ∧
  (∀ (s : State) (l ph : Nat), l < 16 → phaseOk ph = true →
    (∀ g start, ((s.dev.atPhase ph).port l).pend = some (g, start) → start ≤ (s.dev.atPhase ph).ns →
      Completes (.gateListStart l ph) s fun d e =>
        let c := d.atPhase ph
        let ix := portIx l
        let now := c.listNow l g
        (e.port l).oper = some now ∧ now.entries = c.gateEntries l g.bank g.entries.length ∧ now.base = g.base ∧ now.cycle = g.cycle ∧ (e.port l).pend = none ∧ e.get Reg.qay_GATE_PENDING ix = 0 ∧
          e.get Reg.qay_GATE_OPER_BANK ix = g.bank % 2 ∧ e.get Reg.qay_GATE_LATE ix = (if g.base < start then 1 else 0) ∧
          (∀ t, t < 8 → e.get Reg.qay_LONGEST_WIN (ix ++ [t]) = ((now.longest t).getD 0xFFFFFFFF) % 2 ^ 32) ∧
          (g.base < start → e.pends (qayPage l) 4 = true) ∧ onlyParts (.qay :: eventParts) c e) ∧
      Completes (.gateEntry l ph) s fun d e => e = d.atPhase ph)

/-- Priority flow control (R128, R171, R173–R175): a port repeats its quanta for each priority in XOFF when half a pause time has
passed since that priority's last frame; the frame due leaves ahead of every queue and is counted, and while PFC_TX_EN is 0 none
does; a pause ends when its time has passed; one held for PAUSE_LIMIT Tides is no longer honoured. QAY_MODE_WRITE, LINK_CHANGE
and TXTS_POP (R160, R164, R186): MODE takes effect while the Quay is quiesced or off; a change takes the links down and drops
what no port sends, and is ignored and logged otherwise; LINK_UP needs the locks and no fault; reading TXTS_FRAC answers and
removes the Quay's oldest timestamp. -/
def Obligations.PortsAndFlowControl : Prop :=
  (∀ (s : State) (l ph : Nat), l < 16 → phaseOk ph = true →
    let c := s.dev.atPhase ph
    let b := c.rxDrained l
    let ix := portIx l
    onlyParts [.qay] c b ∧ (b.port l).txq = (c.port l).txq ∧
    (Completes (.pfcRefresh l ph) s fun _ e =>
      onlyParts [.qay] c e ∧ (e.port l).txq = (c.port l).txq ∧ (e.port l).xoff = (b.port l).xoff ∧
        (c.flag Reg.qay_PFC_TX_EN ix = true →
          ∀ y ∈ (b.port l).xoff, y.2 ≤ c.ns → (y.1, c.get Reg.qay_PFC_QUANTA ix) ∈ (e.port l).pfcDue) ∧
        (c.flag Reg.qay_PFC_TX_EN ix = false → e = b)) ∧
    (c.flag Reg.qay_PFC_TX_EN ix = false → Completes (.pfcTx l ph) s fun _ e => e = b) ∧
    ((b.port l).pfcDue ≠ [] → c.portExists l = true → c.flag Reg.qay_PORT_EN ix = true → c.flag Reg.qay_PFC_TX_EN ix = true →
      c.linkUp l = true → c.flag Reg.lfi_EN = false →
      Completes (.pfcTx l ph) s fun _ e =>
        onlyParts [.regs, .qay, .out] c e ∧ onlyWords [Reg.qay_TX_PFC.addrAt ix] c e ∧
          e.out = .frame l (withFcs (pfcFrame (c.lmac l) (b.port l).pfcDue)) :: c.out ∧ (e.port l).pfcDue = [] ∧
          (∀ y ∈ (b.port l).xoff, y ∉ (e.port l).xoff → (y.1, c.ns + c.halfPause l) ∈ (e.port l).xoff) ∧
          (∀ y ∈ (e.port l).xoff, (∃ z ∈ (b.port l).pfcDue, z.1 = y.1) → y.2 = c.ns + c.halfPause l) ∧
          e.get Reg.qay_TX_PFC ix = satAdd 32 (c.get Reg.qay_TX_PFC ix) 1) ∧
    ∀ p, p < 8 →
      (Completes (.pfcPauseEnd l p ph) s fun _ e =>
        onlyParts [.qay] c e ∧ ∀ y, y ∈ (e.port l).pauses ↔ y ∈ (c.port l).pauses ∧ (y.prio = p → c.ns < y.until_)) ∧
      ∀ y, c.pauseOf l p = some y → y.expired = false → atLeast1 (c.get Reg.wfg_PAUSE_LIMIT) * 1000000 ≤ c.ns - y.since →
        Completes (.pauseExpired l p ph) s fun _ e =>
          onlyParts (.qay :: eventParts) c e ∧ e.pauseOf l p = some { y with expired := true } ∧ e.pends wfgPage 3 = true ∧
            (e.port l).txq = (c.port l).txq) ∧
  (∀ (s : State) (q : Nat), q < 4 → s.dev.live ⟨.qay, q⟩ = true →
    (∀ mode, mode < 4 → Completes (.qayModeWrite q mode) s fun d e =>
      if d.pageState ⟨.qay, q⟩ = 3 ∨ d.pageState ⟨.qay, q⟩ = 0 then
        if d.get Reg.qay_MODE [q] = mode then e = d else
        onlyParts (.qay :: eventParts) d e ∧ e.get Reg.qay_MODE [q] = mode ∧ e.get Reg.qay_LINK_UP [q] = 0 ∧
          ∀ f, f < 4 → e.portExists (4 * q + f) = false → ∀ x ∈ (e.port (4 * q + f)).txq, x = []
      else e = d.logIgnored ⟨.qay, q⟩ (Reg.qay_MODE.addrAt [q])) ∧
    (∀ f locked loc rem signal, f < 4 → signal < 16 → Completes (.linkChange (4 * q + f) locked loc rem signal) s fun d e =>
      let l := 4 * q + f
      onlyParts eventParts d e ∧ e.get Reg.qay_SIGNAL [q] = signal ∧ bitAt (e.get Reg.qay_LOCAL_FAULT [q]) f = loc ∧
        bitAt (e.get Reg.qay_REMOTE_FAULT [q]) f = rem ∧
        e.linkUp l = (locked && !loc && !rem && d.pcsOk q && d.portExists l && d.clkOk (1 + q / 2)) ∧
        (∀ m, m < 16 → m ≠ l → e.linkUp m = d.linkUp m) ∧ (e.linkUp l ≠ d.linkUp l → e.pends ⟨.qay, q⟩ 0 = true)) ∧
    ((∀ x ∈ s.dev.hiCaptured, x.1 ≠ Reg.qay_TXTS_FRAC.addrAt [q]) →
      Completes (.txtsPop q) s fun d e =>
        onlyParts [.qay, .out] d e ∧ e.qay.ports = d.qay.ports ∧
          match d.qay.stamps.find? fun x => x.1 == q with
          | none => e.qay.stamps = d.qay.stamps
          | some x => e.qay.stamps = d.qay.stamps.erase x ∧
            ∃ w, e.out = .completion (bytesOfWords [w]) false :: d.out ∧ w.toNat % 65536 = x.2.frac % 65536))

/-- TX_FRAME_START (R128, R164, R170, R172): the head of the highest eligible queue starts, padded to 64 bytes with its FCS, and is
counted; while its pause is no longer honoured or its link is down it is dropped and counted; so it is, but for PTP, while the
outputs are closed (R538). -/
def Obligations.FrameStart : Prop :=
  ∀ (s : State) (l frac ph q : Nat) (f : TxFrame) (t : List TxFrame), l < 16 → fracOk frac = true → phaseOk ph = true →
    let c := (s.dev.atPhase ph).rxDrained l
    let ix := portIx l
    c.portExists l = true → c.flag Reg.qay_PORT_EN ix = true → c.pfcReady l = false → q < 8 → c.eligible l q frac = true →
    (∀ p, q < p → p < 8 → c.eligible l p frac = false) → (c.port l).txq.getD q [] = f :: t →
    Completes (.txFrameStart l frac ph) s fun _ e =>
      (∃ k, (e.port l).txq.getD q [] = t.drop k) ∧
        (∀ p, p ≠ q → (e.port l).txq.getD p [] = (c.port l).txq.getD p []) ∧
        if (c.pauseOf l (c.txqPrio l q)).isSome then
          e.get Reg.qay_TX_PAUSE_DROP ix = satAdd 32 (c.get Reg.qay_TX_PAUSE_DROP ix) 1
        else if c.linkUp l = false then e.get Reg.qay_TX_LINK_DOWN ix = satAdd 32 (c.get Reg.qay_TX_LINK_DOWN ix) 1
        else (c.outputsOpen = false → f.note ≠ .ptp →
            e.get Reg.mrg_GATED_DROP = satAdd 32 (c.get Reg.mrg_GATED_DROP) 1) ∧
          (f.note = .plain → c.outputsOpen = true → c.flag Reg.lfi_EN = false →
          .frame l (withFcs f.bytes) ∈ e.out ∧ e.get Reg.qay_TX_FRAMES ix = satAdd 32 (c.get Reg.qay_TX_FRAMES ix) 1 ∧
            e.get64 Reg.qay_TX_OCTETS_LO Reg.qay_TX_OCTETS_HI ix =
              (c.get64 Reg.qay_TX_OCTETS_LO Reg.qay_TX_OCTETS_HI ix + max 64 (f.bytes.length + 4)) % 2 ^ 64 ∧
            ∀ tag, f.tsReq = some tag → (c.qay.stamps.filter fun x => x.1 == l / 4).length < 64 →
              ∃ x, e.qay.stamps = c.qay.stamps ++ [(l / 4, x)] ∧ x.lport = l ∧ x.tag = tag ∧ x.ns < 1000000000 ∧ x.frac < 65536)

/-! ### The Ledger and the Wharfinger (chapters 2 and 3) -/

/-- ADMIT_STANDING and ADMIT_ONESHOT (R58–R60, R90): a Manifest that passes its checks and fits is given a handle that nothing held,
its STATUS is DONE, its operations hold as many slots. With ADMIT_EN or ANCHORED 0 it is refused with REFUSED_NO_UNIT and admits
nothing (R88, R198). A GO written to a port that is BUSY is ignored and logged (R90, R93). -/
def Obligations.LedgerAdmits : Prop :=
  ∀ (s : State) (p : Nat) (words : List Word) (standing : Bool), p < 4 → words8Ok words = true → s.dev.live ldgPage = true →
    let i := if standing then Instr.admitStanding p words else Instr.admitOneshot p words
    let a := s.dev.ldgPosted (if standing then 1 else 2) p words
    let b := { a with ldg := { a.ldg with busy := p :: a.ldg.busy } }.wakeChannels
    let w := b.admitWords p
    (∀ c m bs, p ∉ s.dev.ldg.busy → s.dev.flag Reg.ldg_ADMIT_EN = true → s.dev.anchored = true → ManifestFits b w standing c m bs →
      Completes i s fun _ e =>
        ∃ h, 1 ≤ h ∧ h ≤ 65535 ∧ (∀ a ∈ c.ldg.adms, a.handle ≠ h) ∧
          e.get Reg.ldg_ADMIT_STATUS [p] = Status.done.code ∧ e.get Reg.ldg_ADMIT_VALID [p] = 1 ∧
          e.get Reg.ldg_ADMIT_HANDLE [p] = h ∧
          e.get64 Reg.ldg_ADMIT_FIRST_TIDE_LO Reg.ldg_ADMIT_FIRST_TIDE_HI [p] = c.manifestStart w % 2 ^ 64 ∧
          e.pends ldgPage 0 = true ∧
          (let kind : AdmKind := if standing then .standing else .oneshot (c.manifestStart w + wfld w 6 6 0)
           e.ldg.adms = c.ldg.adms ++ [{ handle := h, tenant := m.tenant, kind := kind, start := c.manifestStart w, basin := m.basin }]) ∧
          e.wfg.slots.length = c.wfg.slots.length + m.ops.length ∧ ∀ x ∈ c.wfg.slots, x ∈ e.wfg.slots) ∧
    (p ∉ s.dev.ldg.busy → s.dev.flag Reg.ldg_ADMIT_EN = false ∨ s.dev.anchored = false →
      Completes i s fun d e =>
        onlyParts (.ldg :: eventParts) d e ∧ e.ldg.adms = d.ldg.adms ∧
          e.get Reg.ldg_ADMIT_STATUS [p] = Status.refusedNoUnit.code ∧ e.pends ldgPage 1 = true) ∧
    (p ∈ s.dev.ldg.busy → Completes i s fun d e =>
      onlyParts eventParts d e ∧ e.pends ldgPage 6 = true ∧ e.get Reg.ldg_ADMIT_STATUS [p] = d.get Reg.ldg_ADMIT_STATUS [p])

/-- RESERVE_FWD, LDG_WITHDRAW and LDG_QUERY (R65, R76, R91, R92, R295): a reservation that fits has a handle, and a fan's segment
the lowest free lanes of its port; a withdrawal marks its admission to end at the next boundary; a query selects its figures. -/
def Obligations.LedgerCommands : Prop :=
  ∀ (s : State), s.dev.live ldgPage = true →
    (∀ (p : Nat) (words : List Word), p < 4 → words8Ok words = true → p ∉ s.dev.ldg.busy →
      s.dev.flag Reg.ldg_ADMIT_EN = true → s.dev.anchored = true →
      let a := s.dev.ldgPosted 3 p words
      let b := { a with ldg := { a.ldg with busy := p :: a.ldg.busy } }.wakeChannels
      let r := reserveOf (b.admitWords p)
      ReserveFits b (b.admitWords p) →
      Completes (.reserveFwd p words) s fun d e =>
        ∃ h, (∀ a ∈ d.ldg.adms, a.handle ≠ h) ∧ e.get Reg.ldg_ADMIT_STATUS [p] = Status.done.code ∧
          e.get Reg.ldg_ADMIT_HANDLE [p] = h ∧
          e.ldg.adms = d.ldg.adms ++
            [{ handle := h, tenant := wfld (b.admitWords p) 0 5 0, kind := .reserve r, start := d.tide, basin := none }] ∧
          (r.fan = false → e.fry = d.fry) ∧
          (r.fan = true → ∃ g, e.fry.segs = d.fry.segs ++ [g] ∧ g.fan = r.target ∧ g.lport = r.lport ∧ g.handle = h ∧
            g.lanes = (b.lanesFree r.lport).take (b.wheelN r g.pi))) ∧
    (∀ h, handleOk h = true → Completes (.withdraw h) s fun d e =>
      onlyParts [.regs, .ldg] d e ∧
        if ∃ a ∈ d.ldg.adms, a.handle = h then
          e.get Reg.ldg_WITHDRAW_BUSY = 1 ∧ onlyWords [Reg.ldg_WITHDRAW_BUSY.addr] d e ∧
            e.ldg.adms = d.ldg.adms.map fun a => if a.handle = h then { a with ending := true, withdrawn := true } else a
        else e.get Reg.ldg_WITHDRAW_STATUS = Status.refusedParam.code ∧ e.ldg = d.ldg) ∧
    ∀ w : Word, Completes (.query w) s fun d e =>
      onlyParts [.regs] d e ∧ onlyWords [Reg.ldg_QUERY_KIND.addr] d e ∧ e.get Reg.ldg_QUERY_KIND = w.toNat / 2 ^ 28 ∧
        e.get Reg.ldg_QUERY_INDEX = w.toNat / 2 ^ 16 % 2 ^ 11 ∧ e.get Reg.ldg_QUERY_TIDE_OFS = w.toNat % 128

/-- UNBOOKED_SUBMIT (R101–R103): a descriptor that passes its checks takes a slot nothing held, its instance is ready at once, and
the port's result is 0 with the slot's number; an address that is not a multiple of 64 is refused with REFUSED_PARAM. WFG_CANCEL
and UNBOOKED_TIMEOUT end an unbooked operation that has not started with CANCELLED; of one that has, WFG_CANCEL has no effect. -/
def Obligations.UnbookedOperations : Prop :=
  ∀ (s : State), s.dev.live wfgPage = true →
    (∀ p addr, p < 4 → descAddrOk addr = true →
      let b := (s.dev.set Reg.wfg_SUBMIT_DESC_LO (addr % 2 ^ 32) [p]).set Reg.wfg_SUBMIT_DESC_HI (addr / 2 ^ 32) [p]
      (addr % 64 ≠ 0 → Completes (.unbookedSubmit (.pf p) addr) s fun d e =>
        onlyParts [.regs] d e ∧ e.get Reg.wfg_SUBMIT_VALID [p] = 1 ∧ e.get Reg.wfg_SUBMIT_RESULT [p] = Status.refusedParam.code) ∧
      ∀ w c, SubmitFits b addr 0 w c → (∀ y ∈ c.wfg.slots, y.order < c.wfg.order) →
        (∀ y ∈ c.wfg.stalled, y.frees ≠ some c.wfg.order) →
        Completes (.unbookedSubmit (.pf p) addr) s fun d e =>
          ∃ n, n ∉ c.usedSlots ∧ n < 32768 ∧ e.get Reg.wfg_SUBMIT_VALID [p] = 1 ∧ e.get Reg.wfg_SUBMIT_RESULT [p] = 0 ∧
            e.get Reg.wfg_SUBMIT_SLOT [p] = n ∧ e.wfg.order = c.wfg.order + 1 ∧
            ∃ x ∈ e.wfg.slots, x.num = n ∧ x.order = c.wfg.order ∧ x.desc = w ∧ x.owner = .tenant 0 ∧ x.submitTide = d.tide ∧
              ∃ i, x.inst = some i ∧ i.count = 1 ∧ i.seq = Desc.flowSeq w) ∧
    (∀ n x i, slotOk n = true → s.dev.slotNow? n = some x → x.admitted = false → x.inst = some i → i.state ≠ .ready →
      Completes (.wfgCancel n) s fun d e => e = d) ∧
    ∀ n x i, slotOk n = true → s.dev.slotNow? n = some x → x.admitted = false → x.inst = some i → i.state = .ready →
      ∀ c ∈ [Instr.wfgCancel n, .unbookedTimeout n],
        (c = .unbookedTimeout n → x.submitTide + 16 * atLeast1 (s.dev.get Reg.wfg_UNBOOKED_TIMEOUT) ≤ s.dev.tide) →
        Completes c s fun d e =>
          e.get Reg.wfg_STATUS_COUNT [Status.cancelled.code] = satAdd 32 (d.get Reg.wfg_STATUS_COUNT [Status.cancelled.code]) 1 ∧
            (∀ y ∈ e.wfg.slots, y.order = x.order → y.inst = none) ∧
            (Desc.complQueue x.desc = none → Desc.ordered x.desc = false → ∀ y ∈ e.wfg.slots, y.order ≠ x.order) ∧
            ∀ y ∈ e.wfg.slots, y.order ≠ x.order → y ∈ d.wfg.slots

/-- OP_START and OP_COMPLETE (R104–R106, R109): an idle engine takes the next operation for it, whose instance runs from then on; an
instance that its engine ends is counted under its status, and its slot holds no instance any more. -/
def Obligations.EngineRuns : Prop :=
  ∀ (s : State) (ph : Nat), phaseOk ph = true →
    let c := s.dev.atPhase ph
    (∀ (u home : UnitId) (x : Slot) (i : Inst), u.kind = 6 ∨ u.kind = 7 → unitIndexOk u.idx = true → c.unitTakes u = true →
      c.runningOn u = none → c.home u = some home → c.nextFor home = some x → x.inst = some i → Desc.inQueue x.desc = none →
      Desc.kind x.desc ∈ [0x9, 0xA] → x ∈ c.wfg.slots →
      Completes (.opStart u.kind u.idx ph) s fun _ e =>
        onlyParts [.regs, .wfg, .free] c e ∧
          (∃ lane, (Desc.kind x.desc = 0x9 ∨ cryMode x.desc < 5 → lane = i.lane) ∧
           (∀ l, lane = some l → lane = i.lane ∨ l ∈ c.shaLanes (cryMode x.desc)) ∧
           let run : Inst := { i with
             state := .running, engine := some u, startTide := c.tide, startPhase := c.phase, taken := [],
             claim := (c.keptFor x).1, claimOpn := (c.keptFor x).2, lane := lane }
           { x with inst := some run } ∈ e.wfg.slots) ∧
          (Desc.kind x.desc = 0x9 → u.idx < 16 → e.get Reg.gwy_DMA_BUSY [u.idx] = 1)) ∧
    ∀ (n : Nat) (x : Slot) (i : Inst) (u : UnitId) (rep : OpReport) (b : Dev) (st : Status) (items : List Item) (pic : Nat),
      slotOk n = true → c.slot? n = some x → x.inst = some i → i.state = .running → i.engine = some u →
      c.opResult u x i rep = some (b, st, items, pic) →
      Completes (.opComplete n rep ph) s fun _ e =>
        ∃ f : Dev, e = f.preemptScan ∧
          f.get Reg.wfg_STATUS_COUNT [st.code] = satAdd 32 (b.get Reg.wfg_STATUS_COUNT [st.code]) 1 ∧
          ∀ y ∈ f.wfg.slots, y.order = x.order → y.inst = none

/-- Commands to queues (R123, R124, R129), of a queue that no producer waits at: FLUSH discards and counts every item; CLEAR_DROP
clears the count; DROP_REST discards the lane up to its first item with LAST, or, where it holds none, all of it and what comes
until that item; a lane that is empty between packets is left alone. QCFG_WRITE, QUEUE_STALL_RESUME and FLOW_SKIP (R112, R122,
R124, R129, R130): EN of a queue that holds items is not changed; an enable that the queue's area forbids leaves EN at 0 and
raises QCFG_BAD; the producer that has waited longest pushes once there is room; a flow expects the number it is told to. -/
def Obligations.QueueCommands : Prop :=
  (∀ (s : State) (q : Nat), q < 4096 → s.dev.live wfgPage = true → (∀ x ∈ s.dev.wfg.stalled, x.queue ≠ q) →
    (Completes (.flush q) s fun d e =>
      (e.queue q).lanes = List.replicate 8 [] ∧ (e.queue q).reading = none ∧
        e.get Reg.wfg_QDROP [q] = satAdd 32 (d.get Reg.wfg_QDROP [q]) (d.queue q).depth ∧
        (∀ r, r ≠ q → e.queue r = d.queue r) ∧ e.wfg.slots = d.wfg.slots) ∧
    (Completes (.clearDrop q) s fun d e =>
      onlyParts [.regs] d e ∧ onlyWords [Reg.wfg_QDROP.addrAt [q]] d e ∧ e.get Reg.wfg_QDROP [q] = 0) ∧
    ∀ p, p < 8 → Completes (.dropRest q p) s fun d e =>
      let lane := (d.queue q).lanes.getD p []
      let rest := (lane.dropWhile fun i => !i.last).drop 1
      let inside := (d.queue q).reading = some p ∨ ∃ i, lane.head? = some i ∧ i.first = false
      (∀ r, r ≠ q → e.queue r = d.queue r) ∧ (∀ l, l ≠ p → (e.queue q).lanes.getD l [] = (d.queue q).lanes.getD l []) ∧
        (lane = [] → ¬inside → e = d) ∧
        (lane ≠ [] ∨ inside → (e.queue q).lanes.getD p [] = rest ∧ (e.queue q).reading ≠ some p ∧
          e.get Reg.wfg_QDROP [q] = satAdd 32 (d.get Reg.wfg_QDROP [q]) (lane.length - rest.length) ∧
          ((∀ i ∈ lane, i.last = false) → p ∈ (e.queue q).dropping))) ∧
  (∀ (s : State) (q : Nat), q < 4096 → s.dev.live wfgPage = true →
    (∀ w : Word, (∀ x ∈ s.dev.wfg.stalled, x.queue ≠ q) → Completes (.qcfgWrite q w) s fun d e =>
      let en := w.toNat / 2 ^ 31
      if en ≠ d.get Reg.wfg_Q_EN [q] ∧ (d.queue q).depth ≠ 0 then e = d.logIgnored wfgPage (queueAddr q 0)
      else
        let bad := en = 1 ∧ d.get Reg.wfg_Q_EN [q] = 0 ∧ d.queueBad q = true
        (bad → e.get Reg.wfg_Q_EN [q] = 0 ∧ e.get Reg.wfg_QCFG_BAD [q] = 1 ∧ e.pends wfgPage 6 = true) ∧
          (¬bad → e.get Reg.wfg_Q_EN [q] = en ∧ e.get Reg.wfg_Q_HOST_BOUND [q] = w.toNat / 2 ^ 30 % 2) ∧
          e.get Reg.wfg_Q_TENANT [q] = w.toNat / 2 ^ 12 % 64 ∧ e.wfg = d.wfg) ∧
    (∀ x, s.dev.wfg.stalled = [x] → x.queue = q → x.egress = false → x.frees = none → x.item.type ≠ 1 → x.item.prio < 8 →
      (s.dev.queue q).lanes.length = 8 → x.item.prio ∉ (s.dev.queue q).dropping → s.dev.flag Reg.wfg_Q_EN [q] = true →
      s.dev.openRoom q 1 = true →
      Completes (.queueStallResume q) s fun d e =>
        e.wfg.stalled = [] ∧ ∃ i : Item, i.data = x.item.data ∧ i.opn = true ∧ wfld i.words 0 31 0 = wfld x.item.words 0 31 0 ∧
          (e.queue q).lanes.getD x.item.prio [] = (d.queue q).lanes.getD x.item.prio [] ++ [i]) ∧
    ∀ id seq f h, halfOk id = true → halfOk seq = true → s.dev.flow? id = some f → f.owner = .adm h → f.ending = false →
      (∀ x ∈ f.held, seqAhead f.next seq < seqAhead f.next x.seq) →
      Completes (.flowSkip id seq) s fun d e =>
        onlyParts [.wfg] d e ∧ e.flow? id = some { f with next := seq } ∧ (∀ j, j ≠ id → e.flow? j = d.flow? j) ∧
          e.wfg.slots = d.wfg.slots ∧ e.wfg.queues = d.wfg.queues)

/-! ### The Berth Table (chapter 4) -/

/-- ACTIVATE, DRAIN, QUARANTINE, RESUME and CLOSE (R133, R134, R142, R147): an accepted command puts its row into its state and no
other row into another; QUARANTINE and RESUME set QCAUSE, ACTIVATE the consent Tide and the estimate, CLOSE unpins the row. -/
def Obligations.RowStates : Prop :=
  ∀ (s : State) (port : BtcPort) (ws : List Word), btcPortOk port = true → words8Ok ws = true →
    s.dev.grants port.fn btcPage → s.dev.rowsWf →
    let b := btcBerth ws
    ∀ r ∈ [(Instr.activate port ws, 3, stLive), (.drain port ws, 4, stDraining), (.quarantine port ws, 5, stQuarantine),
        (.resume port ws, 6, stLive), (.berthClose port ws, 7, stClosed)],
      (s.dev.btcPosted r.2.1 port ws none).btcTakes r.2.1 port ws →
      Completes r.1 s fun d e =>
        e.btcReports port 0 (d.rowState b) Status.done.code ∧ e.rowState b = r.2.2 ∧ otherRows b d e ∧
          (r.2.1 = 3 → e.rowGet b RowF.CONSENT_TIDE = d.tide % 2 ^ 32 ∧ e.rowGet b RowF.EST_BPS = d.get Reg.bwr_EST_INIT) ∧
          (r.2.1 = 5 → e.rowGet b RowF.QCAUSE = causeCommand) ∧ (r.2.1 = 6 → e.rowGet b RowF.QCAUSE = 0) ∧
          (r.2.1 = 7 → e.rowGet b RowF.PINNED = 0) ∧
          assoc? b e.btc.drainSince = (if r.2.1 = 4 then some d.tide else none)

/-- OPEN, MODIFY, RELEASE and CLEAR_COUNTERS (R139, R147, R148): OPEN writes what its image names into a row of zeros, with the next
GEN; MODIFY leaves what is protected; RELEASE zeroes the row and its annex entry but for GEN; CLEAR_COUNTERS zeroes the
counters. READ, FIND_FREE, PIN, UNPIN and CANCEL_STAGED (R136, R140, R142, R147): READ shows the row with its send key as zeros,
and as zeros a line that an uncorrectable error meets; FIND_FREE answers the lowest FREE index from BERTH on; PIN takes a frame
that no other row holds; CANCEL_STAGED discards the row's pending command. -/
def Obligations.RowContents : Prop :=
  (∀ (s : State) (port : BtcPort) (ws img : List Word), btcPortOk port = true → words8Ok ws = true → words64Ok img = true →
    s.dev.grants port.fn btcPage → s.dev.rowsWf →
    let b := btcBerth ws
    let line (i : Nat) : Bool := bitAt (btcMask ws) i
    ((s.dev.btcPosted 1 port ws (some img)).btcTakes 1 port ws →
      Completes (.berthOpen port ws img) s fun d e =>
        e.btcReports port 0 stFree Status.done.code ∧ e.rowState b = stOpening ∧ otherRows b d e ∧
          e.rowGet b RowF.GEN = (d.rowGet b RowF.GEN + 1) % 65536 ∧ (e.row b).annex = List.replicate 32 0 ∧
          e.rowGet b RowF.PROFILE = 0 ∧ e.rowGet b RowF.TX_PKTS = 0 ∧
          e.rowGet b RowF.RX_SSRC = (if line 0 then wfld img 3 31 0 else 0) ∧
          e.rowGet b RowF.TX_ROC = (if line 1 then wfld img 16 31 0 else 0) ∧
          e.rowGet b RowF.RX_ROC = (if line 2 then wfld img 24 31 0 else 0) ∧
          e.rowGet b RowF.LAYER_MASK = (if line 3 then wfld img 49 15 0 else 0) ∧
          ∀ v, port = .vf v → e.rowGet b RowF.TENANT = d.vfTenant v % 64) ∧
    ((s.dev.btcPosted 2 port ws (some img)).btcTakes 2 port ws →
      Completes (.modify port ws img) s fun d e =>
        e.btcReports port 0 (d.rowState b) Status.done.code ∧ e.rowState b = d.rowState b ∧ otherRows b d e ∧
          (∀ f ∈ [RowF.GEN, RowF.CLASS, RowF.PINNED, RowF.PIN_SLOT, RowF.QCAUSE, RowF.PROFILE, RowF.KEY_GEN, RowF.TX_PKTS],
            e.rowGet b f = d.rowGet b f) ∧ (e.row b).annex = (d.row b).annex ∧
          e.rowGet b RowF.RX_SSRC = (if line 0 then wfld img 3 31 0 else d.rowGet b RowF.RX_SSRC) ∧
          e.rowGet b RowF.TS_OFS = (if line 1 then wfld img 19 31 0 else d.rowGet b RowF.TS_OFS) ∧
          e.rowGet b RowF.TX_ROC = (if line 1 ∧ d.rowState b = stOpening then wfld img 16 31 0 else d.rowGet b RowF.TX_ROC) ∧
          e.rowGet b RowF.LAYER_MASK = (if line 3 then wfld img 49 15 0 else d.rowGet b RowF.LAYER_MASK)) ∧
    ((s.dev.btcPosted 8 port ws none).btcTakes 8 port ws →
      Completes (.release port ws) s fun d e =>
        e.btcReports port 0 stClosed Status.done.code ∧ e.row b = Row.zero.set RowF.GEN (d.rowGet b RowF.GEN) ∧ otherRows b d e) ∧
    ((s.dev.btcPosted 12 port ws none).btcTakes 12 port ws →
      Completes (.clearCounters port ws) s fun d e =>
        e.btcReports port 0 (d.rowState b) Status.done.code ∧ (∀ x, x ≠ b → e.row x = d.row x) ∧
          (∀ f ∈ [RowF.TX_PKTS, RowF.TX_OCTETS, RowF.RX_PKTS, RowF.RX_OCTETS, RowF.RX_LOST, RowF.AUTH_FAIL, RowF.REPLAY_DROP,
            RowF.POLICE_DROP, RowF.NACK_RX, RowF.PLI_TX, RowF.FIR_TX], e.rowGet b f = 0) ∧
          ∀ f ∈ [RowF.STATE, RowF.GEN, RowF.TX_SEQ, RowF.LAST_TS, RowF.EST_BPS, RowF.RR_FRACTION], e.rowGet b f = d.rowGet b f)) ∧
  (∀ (s : State) (port : BtcPort) (ws : List Word), btcPortOk port = true → words8Ok ws = true →
    s.dev.grants port.fn btcPage → s.dev.rowsWf →
    let b := btcBerth ws
    (let c := s.dev.btcPosted 9 port ws none
     let bad := (c.fetch b [0, 1, 2, 3]).2
     c.btcTakes 9 port ws →
      Completes (.btcRead port ws) s fun d e =>
        e.btcReports port 0 (d.rowState b) Status.done.code ∧ (bad = [] → e.btc.rows = d.btc.rows) ∧
          ∀ i, i < 64 → e.word (btcImageAddr port + 4 * i) =
            if (32 ≤ i ∧ i < 44) ∨ i / 16 ∈ bad then 0 else wordAt (d.row b).words i) ∧
    (let c := s.dev.btcPosted 13 port ws none
     c.btcTakes 13 port ws →
      Completes (.findFree port ws) s fun d e =>
        e.btcReports port 0 (d.rowState b) Status.done.code ∧ e.btc.rows = d.btc.rows ∧
          ∃ n, (e.word (btcPortAddr port + 0x28)).toNat = n ∧ b ≤ n ∧ n < d.rowCount ∧ d.rowState n = stFree ∧
            ∀ m, b ≤ m → m < n → d.rowState m ≠ stFree) ∧
    ((s.dev.btcPosted 10 port ws none).btcTakes 10 port ws → s.dev.get Reg.btc_PIN_ROWS ≤ 262144 →
      Completes (.pin port ws) s fun d e =>
        e.btcReports port 0 (d.rowState b) Status.done.code ∧ e.rowGet b RowF.PINNED = 1 ∧ otherRows b d e ∧
          (d.rowGet b RowF.PINNED = 1 → e.row b = d.row b) ∧
          (d.rowGet b RowF.PINNED = 0 → e.rowGet b RowF.PIN_SLOT < d.get Reg.btc_PIN_ROWS ∧
            ∀ x, x ≠ b → d.rowGet x RowF.PINNED = 1 → d.rowGet x RowF.PIN_SLOT ≠ e.rowGet b RowF.PIN_SLOT)) ∧
    ((s.dev.btcPosted 11 port ws none).btcTakes 11 port ws →
      Completes (.unpin port ws) s fun d e =>
        e.btcReports port 0 (d.rowState b) Status.done.code ∧ e.rowGet b RowF.PINNED = 0 ∧ otherRows b d e) ∧
    ((s.dev.btcPosted 14 port ws none).btcTakes 14 port ws →
      Completes (.cancelStaged port ws) s fun d e =>
        e.btcReports port 0 (d.rowState b) Status.done.code ∧ e.btc.rows = d.btc.rows ∧ (∀ x ∈ e.btc.staged, x.berth ≠ b) ∧
          e.btc.staged.map (·.berth) = (d.btc.staged.map (·.berth)).filter (· != b)))

/-- A refused BTC command changes no row and reports its status; a staged one waits for its apply Tide, the last for its row (R147,
R149, R151). -/
def Obligations.BtcRefusals : Prop :=
  ∀ (s : State) (port : BtcPort) (ws img : List Word), btcPortOk port = true → words8Ok ws = true → words64Ok img = true →
    s.dev.grants port.fn btcPage →
    ∀ r ∈ btcRows port ws img,
      let c := s.dev.btcPosted r.2.1 port ws r.2.2
      let w := opWords r.2.1 ws
      let found := if s.dev.rowCount ≤ btcBerth ws then 0 else s.dev.rowState (btcBerth ws)
      (∀ st, c.btcRefusal port w (c.btcImage port) = some st →
        Completes r.1 s fun d e => onlyParts [.regs, .btc] d e ∧ e.btcReports port 0 found st.code ∧ e.btc.rows = d.btc.rows) ∧
      (c.btcRefusal port w (c.btcImage port) = none → btcStaged ws = true →
        (s.dev.btc.staged.filter fun x => x.berth != btcBerth ws).length < 16384 →
        Completes r.1 s fun d e =>
          onlyParts [.regs, .btc] d e ∧ e.btcReports port 1 found Status.done.code ∧ e.btc.rows = d.btc.rows ∧
            ∃ x, e.btc.staged.getLast? = some x ∧ x.berth = btcBerth ws ∧ x.words = w ∧ x.applyTide = btcTide ws ∧
              ∀ y ∈ e.btc.staged.dropLast, y.berth ≠ btcBerth ws)

/-- DRAIN_EXPIRE, BTC_PIN_ROWS_WRITE and BTC_TRANGE_WRITE (R133, R140, R154): a drained row closes, and not before; the pinned
partition is set only in whole steps while nothing is pinned, and the general partition begins empty when its size changes (log
entry 139); a tenant's range may not overlap another's. -/
def Obligations.BerthRegisters : Prop :=
  ∀ (s : State),
    (∀ b t, berthOk b = true → s.dev.rowsWf → assoc? b s.dev.btc.drainSince = some t → s.dev.rowState b = stDraining →
      s.dev.follows = false →
      Completes (.drainExpire b) s fun d e =>
        otherRows b d e ∧
          if t + atLeast1 (d.get Reg.btc_DRAIN_TIDES) ≤ d.tide then
            e.rowState b = stClosed ∧ e.rowGet b RowF.PINNED = 0 ∧ assoc? b e.btc.drainSince = none
          else e = d) ∧
    (s.dev.live btcPage = true →
      (∀ w : Word, Completes (.btcPinRowsWrite w) s fun d e =>
        if w.toNat % 16384 = 0 ∧ w.toNat ≤ 262144 ∧ d.pinUsed = 0 then
          onlyParts [.regs, .btc] d e ∧ onlyWords [Reg.btc_PIN_ROWS.addr] d e ∧ e.get Reg.btc_PIN_ROWS = w.toNat ∧
            e.btc = { d.btc with frames := if w.toNat = d.get Reg.btc_PIN_ROWS then d.btc.frames else [] }
        else e = d.logIgnored btcPage Reg.btc_PIN_ROWS.addr) ∧
      ∀ t (w : Word), tenantOk t = true → Completes (.btcTrangeWrite t w) s fun d e =>
        let base := w.toNat % 2 ^ 13
        let limit := w.toNat / 2 ^ 16 % 2 ^ 14
        if d.rowCount < limit * 4096 then e = d.logIgnored btcPage (Reg.btc_TRANGE_BASE.addrAt [t])
        else if ∃ u ∈ List.range 64, u ≠ t ∧ ∃ k ∈ List.range 16384, base ≤ k ∧ k < limit ∧
            d.get Reg.btc_TRANGE_BASE [u] ≤ k ∧ k < d.get Reg.btc_TRANGE_LIMIT [u] then
          e.pends btcPage 5 = true ∧ e.get Reg.btc_TRANGE_BASE [t] = d.get Reg.btc_TRANGE_BASE [t] ∧ e.btc = d.btc
        else onlyParts [.regs] d e ∧ e.get Reg.btc_TRANGE_BASE [t] = base ∧ e.get Reg.btc_TRANGE_LIMIT [t] = limit)

/-- Every row is whole and the rows rise by index: the state after reset is so (`ResetInvariants`), and the commands to the BTC, a
drain's end and its registers keep it so. -/
def Obligations.RowsStayWhole : Prop :=
  ∀ (s t : State) (port : BtcPort) (ws img : List Word) (b : Nat) (w : Word), s.dev.rowsWf →
    ∀ i ∈ (btcRows port ws img).map (·.1) ++ [.drainExpire b, .btcPinRowsWrite w, .btcTrangeWrite b w],
      exec i s = .next t → t.dev.rowsWf

/-! ### The Breakwater (chapter 6) -/

/-- RX_FRAME (R164, R166–R168, R173): a frame on an enabled port whose link is up is counted once: in RX_OVERFLOW when the port's
share of the receive buffer has no room, in RX_RUNT below 64 bytes, in RX_TRUNC above MAX_FRAME, in RX_FCS_ERR when its FCS is
bad or a codeword of it was uncorrectable, in RX_PFC or RX_PAUSE_8023X when it is a control frame, and in RX_FRAMES otherwise;
all but runts, overflows and control frames enter the Breakwater. -/
def Obligations.RxFrames : Prop :=
  ∀ (s : State) (x : RxInput), rxInOk x = true →
    let c := s.dev.atPhase x.phase
    let l := x.lport
    let ix := portIx l
    let n := x.bytes.length
    let counts (f : RegField) (e : Dev) : Prop := e.get f ix = satAdd 32 (c.get f ix) 1
    let enters (f : RegField) (bytes : Bytes) (trunc err : Bool) (e : Dev) : Prop :=
      ∃ b g, e = b.breakwater g ∧ onlyParts [.regs, .qay, .gwy, .out] c b ∧ counts f b ∧
        g.lport = l ∧ g.bytes = bytes ∧ g.trunc = trunc ∧ g.errored = err
    let good := rxUncorr x == 0 && decide (x.bytes.drop (n - 4) = fcsOf (x.bytes.take (n - 4)))
    if c.portExists l = false ∨ c.flag Reg.qay_PORT_EN ix = false ∨ c.linkUp l = false then
      Completes (.rxFrame x) s fun _ e => e = c
    else if c.rxShare l < x.occupancy + c.maxFrame l then
      Completes (.rxFrame x) s fun _ e => counts Reg.qay_RX_OVERFLOW e ∧
        (c.get Reg.qay_RX_OVERFLOW ix < 2 ^ 32 - 1 → e.pends (qayPage l) 3 = true) ∧ onlyParts [.regs, .qay, .gwy, .out] c e
    else if n < 64 then
      Completes (.rxFrame x) s fun _ e => counts Reg.qay_RX_RUNT e ∧ onlyParts [.regs, .qay, .gwy, .out] c e
    else c.flag Reg.lfi_EN = false →
      Completes (.rxFrame x) s fun _ e =>
        if c.maxFrame l < n then enters Reg.qay_RX_TRUNC (x.bytes.take (c.maxFrame l)) true false e
        else if good = false then enters Reg.qay_RX_FCS_ERR (x.bytes.take (n - 4)) false true e
        else if isPfc (x.bytes.take (n - 4)) = true then
          ∃ b, counts Reg.qay_RX_PFC b ∧ onlyParts [.regs, .qay, .gwy, .out] c b ∧ e = b.rxPfc l (x.bytes.take (n - 4))
        else if isPause (x.bytes.take (n - 4)) = true then
          counts Reg.qay_RX_PAUSE_8023X e ∧ onlyParts [.regs, .qay, .gwy, .out] c e
        else enters Reg.qay_RX_FRAMES (x.bytes.take (n - 4)) false false e

/-- What the Breakwater makes of a frame (R137, R216, R221, R226, R227, R538), in the order of its checks: it is counted under one
reason, PKTBUF_FULL where the packet buffer cannot hold a frame of MAX_FRAME; a packet for a row that is not LIVE is dropped;
while the outputs are closed, STUN and media are. -/
def Obligations.BreakwaterReasons : Prop :=
  ∀ (d : Dev) (f : RxFrame), d.live bwrPage = true → f.lport < 16 →
    let counted (r : Reason) (e : Dev) : Prop :=
      e.get Reg.bwr_REASON_COUNT [r.code] = satAdd 32 (d.get Reg.bwr_REASON_COUNT [r.code]) 1
    let e := d.breakwater f
    let room := d.bufRoom (d.maxFrame f.lport)
    (f.errored = true → ∀ r : Reason, e.get Reg.bwr_REASON_COUNT [r.code] = d.get Reg.bwr_REASON_COUNT [r.code]) ∧
    (f.errored = false → d.inService ⟨ukBwr, f.lport / 8⟩ = false → counted .pipeFault e ∧ onlyParts eventParts d e) ∧
    (f.errored = false → d.inService ⟨ukBwr, f.lport / 8⟩ = true → room = false → counted .pktbufFull e ∧
      e.pends bwrPage 5 = true ∧ onlyParts eventParts d e) ∧
    (f.errored = false → d.inService ⟨ukBwr, f.lport / 8⟩ = true → room = true →
      (∀ r k b, (d.verdict f).1 = .host r k b → counted r e) ∧
      (∀ r, (d.verdict f).1 = .drop r → counted r e ∧ onlyParts (.bwr :: eventParts) d e) ∧
      (∀ b m, (d.verdict f).1 ∈ [.stun b m, .rtp b m, .rtcp b m, .datagram b m] → d.outputsOpen = false →
        e.get Reg.mrg_STANDBY_RX_DROP = satAdd 32 (d.get Reg.mrg_STANDBY_RX_DROP) 1 ∧ onlyParts [.regs, .bwr] d e) ∧
      ∀ b m, ((d.verdict f).1 = .rtp b m ∨ (d.verdict f).1 = .rtcp b m) → d.outputsOpen = true → d.rowState b ≠ stLive →
        counted .stateDrop e ∧ e.rowState b ≠ stLive ∧ otherRows b d e ∧ e.fry = d.fry ∧ e.wfg = d.wfg)

/-- KFR_PLI, KFR_FIR and KFR_SEND (R240, R241): a valid request of the host is accepted and stamps its row, or is suppressed within
KFR_MIN_TIDES; an invalid one is refused. The head of the FIFO is sent, within the Tide's budget, as a PLI or a FIR on a LIVE
row, and counted in the row once it goes to the Tally. BWR_POL_BURST and CONSENT_SWEEP (R222, R223, R233): the write applies
RATE and BURST to the selected policer and fills it, and touches no other; the sweep quarantines every LIVE row of a group whose
anchor has lost consent, with QCAUSE CONSENT, and no other row. -/
def Obligations.KeyframesPolicersConsent : Prop :=
  (∀ (s : State),
    (∀ (b : Nat) (fir : Bool), berthOk b = true → s.dev.live bwrPage = true → s.dev.rowsWf →
      Completes (if fir then .kfrFir b else .kfrPli b) s fun d e =>
        let near := (d.tide + 2 ^ 32 - d.rowGet b RowF.KFR_TIDE) % 2 ^ 32 < d.get Reg.bwr_KFR_MIN_TIDES
        if d.follows = true then e.get Reg.bwr_KFR_STATUS = Status.refusedNoUnit.code ∧ onlyParts [.regs] d e
        else if d.kfrValid b = false then e.get Reg.bwr_KFR_STATUS = Status.refusedParam.code ∧ onlyParts [.regs] d e
        else e.get Reg.bwr_KFR_STATUS = Status.done.code ∧
          if near then e.get Reg.bwr_KFR_SUPPRESSED = satAdd 32 (d.get Reg.bwr_KFR_SUPPRESSED) 1 ∧ e.bwr = d.bwr ∧ e.btc = d.btc
          else e.rowGet b RowF.KFR_TIDE = d.tide % 2 ^ 32 ∧ otherRows b d e ∧
            if d.bwr.kfr.length < 4096 then e.bwr.kfr = d.bwr.kfr ++ [(fir, b)]
            else e.bwr.kfr = d.bwr.kfr ∧ e.pends bwrPage 4 = true) ∧
    ∀ (ph : Nat) (fir : Bool) (b : Nat) (t : List (Bool × Nat)), phaseOk ph = true → s.dev.bwr.kfr = (fir, b) :: t →
      s.dev.bwr.kfrSent < s.dev.get Reg.bwr_KFR_PER_TIDE → s.dev.rowsWf →
      Completes (.kfrSend ph) s fun d e =>
        let c := d.atPhase ph
        let a := { c with bwr := { c.bwr with kfr := t, kfrSent := c.bwr.kfrSent + 1 } }
        let g := if fir then a.rowBump b RowF.FIR_SEQ else a
        let pkt := kfrPacket fir (c.rowGet b RowF.TX_SSRC) (c.rowGet b RowF.RX_SSRC) (c.rowGet b RowF.FIR_SEQ)
        e.bwr.kfr = t ∧ e.bwr.kfrSent = d.bwr.kfrSent + 1 ∧
          if d.rowState b ≠ stLive then e = a
          else if (g.sendRtcp b pkt false).2 = true then
            e = (g.sendRtcp b pkt false).1.rowBump b (if fir then RowF.FIR_TX else RowF.PLI_TX)
          else e = (g.sendRtcp b pkt false).1) ∧
  (∀ (s : State),
    (∀ n rate burst, halfOk n = true → rate24Ok rate = true → halfOk burst = true → s.dev.live bwrPage = true →
      Completes (.polBurstWrite n rate burst) s fun d e =>
        onlyParts [.regs, .bwr] d e ∧ onlyWords [Reg.bwr_POL_SEL.addr, Reg.bwr_POL_RATE.addr, Reg.bwr_POL_BURST.addr] d e ∧
          (n ≠ 0xFFFF → e.policer n = ⟨rate, burst, 256 * burst⟩) ∧ ∀ m, m ≠ n → e.policer m = d.policer m) ∧
    ∀ b ph, berthOk b = true → phaseOk ph = true → s.dev.live bwrPage = true → s.dev.flag Reg.bwr_SWEEP_EN = true →
      s.dev.flag Reg.btc_EN = true → ((s.dev.atPhase ph).fetch b [0, 3]).2 = [] →
      s.dev.follows = false → assoc? b s.dev.bwr.swept ≠ some (s.dev.tide / s.dev.consentSweepTides) → s.dev.rowsWf →
      Completes (.consentSweep b ph) s fun d e =>
        let k := (d.row b).transport
        if d.anchor k = some b ∧ d.consentLost b = true then
          e.pends bwrPage 1 = true ∧
            ∀ x, if x ∈ d.group k ∧ d.rowState x = stLive then
                e.rowState x = stQuarantine ∧ e.rowGet x RowF.QCAUSE = causeConsent
              else e.rowState x = d.rowState x
        else e.btc = d.btc)

/-! ### The Bond (chapter 7) -/

/-- SET_SEND, SET_RECV, SET_PAIR and SET_ICE_PWD (R264, R266): an accepted command wraps its key material into its row under the
row's tenant's wrapping key and advances KEY_GEN; the rollover counters and sequence numbers stand; the data registers are
cleared, and no other row changes. -/
def Obligations.KeySets : Prop :=
  ∀ (s : State) (fn : Fn) (ws data : List Word), fnOk fn = true → words3Ok ws = true → words24Ok data = true →
    s.dev.grants fn bndPage → s.dev.rowsWf →
    ∀ p ∈ [(Instr.setSend fn ws data, 1), (.setRecv fn ws data, 2), (.setPair fn ws data, 3), (.setIcePwd fn ws data, 4)],
      let c := s.dev.keyPosted p.2 fn ws data
      let k := c.keyArgs fn
      let wrap (tweak : Nat) (b : Bytes) : Bytes :=
        padTo b.length (xtsEncrypt (c.wrapKey (c.rowGet k.berth RowF.TENANT)).key tweak b.length b)
      k.op = p.2 → c.keyRefusal fn k = none →
      Completes p.1 s fun d e =>
        let r := e.row k.berth
        let old := d.row k.berth
        e.word (keyPortAddr fn + 0x14) = BitVec.ofNat 32 (2 ^ 30 + r.get RowF.KEY_GEN * 256) ∧
          r.get RowF.KEY_GEN = (old.get RowF.KEY_GEN + 1) % 256 ∧
          (∀ i, i < 24 → e.word (keyPortAddr fn + 0x40 + 4 * i) = 0) ∧ (∀ x, x ≠ k.berth → e.row x = d.row x) ∧
          (∀ f ∈ [RowF.STATE, RowF.GEN, RowF.TX_ROC, RowF.TX_SEQ, RowF.RX_ROC, RowF.RX_HIGH_SEQ], r.get f = old.get f) ∧
          (p.2 = 1 ∨ p.2 = 3 → r.bytes 0x80 48 = wrap k.berth (k.data.take 48) ∧
            r.get RowF.TX_KEY_START_LO = old.next % 2 ^ 32 ∧ r.get RowF.KEY_TIDE = d.tide % 2 ^ 32 ∧
            r.get RowF.SRTCP_TX_INDEX = 0 ∧ k.berth ∈ e.btc.renewed) ∧
          (p.2 = 2 ∨ p.2 = 3 → bytesOfWords (r.annex.take 12) = wrap (k.berth + 2 ^ 25) (slice k.data 48 48) ∧
            r.get RowF.SRTCP_RX_INDEX = 0x7FFFFFFF) ∧
          (p.2 ≠ 4 → r.get RowF.PROFILE = k.profile) ∧
          (p.2 = 4 → bytesOfWords (slice r.annex 12 8) = wrap (k.berth + 2 ^ 26) (k.data.take 32) ∧
            wfld r.annex 20 5 0 = k.iceLen ∧ r.get RowF.PROFILE = old.get RowF.PROFILE)

/-- WRAP, and the refusal of key commands (R264, R265, R271): WRAP writes the wrapped key block to Hold at OUT_ADDR; a refused
command changes no row, reports its status, raises KEY_CMD_REFUSED and clears its data all the same. SET, LOCK and ZEROIZE of a
wrapping key (R261, R262): SET loads the slot and shows its check value, unless the two halves of the key are equal or the
provider names a locked slot of another tenant; LOCK is the tenant's own and needs SET; ZEROIZE clears the slot. The WRAP_KEY
registers are cleared whatever comes of it. -/
def Obligations.WrappingKeys : Prop :=
  (∀ (s : State) (fn : Fn) (ws data : List Word), fnOk fn = true → words3Ok ws = true → words24Ok data = true →
    s.dev.grants fn bndPage →
    (let c := s.dev.keyPosted 5 fn ws data
     let k := c.keyArgs fn
     let t := match fn with
       | .pf => 0
       | .vf v => c.vfTenant v
     let block := padTo 64 (xtsEncrypt (c.wrapKey t).key (2 ^ 27 + k.berth % 65536) 64 (k.data.take 64))
     k.op = 5 → c.keyRefusal fn k = none → (c.holdWrite k.out block bndPage).2 = none →
      Completes (.wrap fn ws data) s fun d e =>
        e.word (keyPortAddr fn + 0x14) = BitVec.ofNat 32 (2 ^ 30) ∧ e.btc = d.btc ∧ Memory.readN e.hold.cells k.out 64 = block ∧
          ∀ a, a < k.out ∨ k.out + 64 ≤ a → Memory.read e.hold.cells a = Memory.read d.hold.cells a) ∧
    ∀ p ∈ [(Instr.setSend fn ws data, 1), (.setRecv fn ws data, 2), (.setPair fn ws data, 3), (.setIcePwd fn ws data, 4),
        (.wrap fn ws data, 5)],
      let c := s.dev.keyPosted p.2 fn ws data
      ∀ st, c.keyRefusal fn (c.keyArgs fn) = some st →
        Completes p.1 s fun d e =>
          onlyParts eventParts d e ∧ e.word (keyPortAddr fn + 0x14) = BitVec.ofNat 32 (2 ^ 30 + st.code) ∧
            e.pends bndPage 5 = true ∧ ∀ i, i < 24 → e.word (keyPortAddr fn + 0x40 + 4 * i) = 0) ∧
  (∀ (s : State) (fn : Fn) (tenant : Nat) (key : List Word), fnOk fn = true → tenantOk tenant = true → words16Ok key = true →
    s.dev.grants fn bndPage →
    let t := match fn with
      | .pf => tenant
      | .vf v => s.dev.vfTenant v
    let own := fn ≠ .pf ∨ tenant = 0
    let result (e : Dev) : Nat := match fn with
      | .pf => e.get Reg.bnd_WRAP_RESULT
      | .vf v => e.get Reg.vf_WRAP_RESULT [v - 1]
    let cleared (e : Dev) : Prop := ∀ i, i < 16 → e.word (wrapKeyAddr fn + 4 * i) = 0
    let old := s.dev.wrapKey t
    let bytes := bytesOfWords key
    (Completes (.wrapSet fn tenant key) s fun d e => cleared e ∧
      if bytes.take 32 = bytes.drop 32 then result e = Status.refusedParam.code ∧ e.bnd = d.bnd
      else if old.lock = true ∧ ¬own then result e = Status.refusedTenant.code ∧ e.bnd = d.bnd
      else result e = Status.done.code ∧ e.wrapKey t = { old with key := bytes, set := true } ∧
        (∀ u, u ≠ t → e.wrapKey u = d.wrapKey u) ∧ e.get Reg.bnd_SLOT_SET [t] = 1 ∧
        e.get Reg.bnd_WRAP_KCV [t] = leNat ((padTo 16 (xtsEncrypt bytes (2 ^ 28) 16 (List.replicate 16 0))).take 4)) ∧
    (Completes (.wrapLock fn tenant) s fun d e => cleared e ∧
      if ¬own then result e = Status.refusedTenant.code ∧ e.bnd = d.bnd
      else if old.set = false then result e = Status.refusedParam.code ∧ e.bnd = d.bnd
      else result e = Status.done.code ∧ e.wrapKey t = { old with lock := true } ∧ e.get Reg.bnd_SLOT_LOCK [t] = 1) ∧
    Completes (.wrapZeroize fn tenant) s fun d e => cleared e ∧ result e = Status.done.code ∧ e.wrapKey t = WrapKey.empty ∧
      e.get Reg.bnd_SLOT_SET [t] = 0 ∧ e.get Reg.bnd_SLOT_LOCK [t] = 0 ∧ (∀ u, u ≠ t → e.wrapKey u = d.wrapKey u) ∧
      e.pends bndPage 4 = true)

/-! ### The Ferry and the Tally (chapter 9) -/

/-- Ferry commands (R280–R282, R292, R313): an accepted one not staged has its effect on the entry, stream, record or list it names
and on no other, a route also in Hold; READ answers what its target holds, or REFUSED_PARAM where a route cannot be read; a
refused one has none; a staged one waits. -/
def Obligations.FerryCommands : Prop :=
  ∀ (s : State) (port : Nat) (ws : List Word), pairOk port = true → words8Ok ws = true → s.dev.live fryPage = true →
    s.dev.flag Reg.fry_CMD_BUSY [port] = false → (assoc? port s.dev.fry.used).getD 0 < 1000 →
    ∀ r ∈ [(Instr.fanSet port ws, 1), (.fanClear port ws, 2), (.groupStream port ws, 3), (.routeSet port ws, 4),
        (.routeClear port ws, 5), (.rxAdd port ws, 6), (.rxMod port ws, 7), (.rxDel port ws, 8), (.fryRead port ws, 9)],
      let w := opWords r.2 ws
      let c := s.dev.setWords (fryPortAddr port) w
      let x := fryTarget w
      let k := 16 * x + wfld w 4 3 0
      let reports (apply st : Nat) (e : Dev) : Prop :=
        e.word (fryPortAddr port + 0x24) = BitVec.ofNat 32 (2 ^ 30 + apply * 2 ^ 27 + st)
      let kept (d e : Dev) : Prop := e.fry.routes = d.fry.routes ∧ e.fry.streams = d.fry.streams ∧ e.fry.recs = d.fry.recs ∧
        e.fry.fans = d.fry.fans
      (∀ st, c.fryRefusal w = some st →
        Completes r.1 s fun d e => reports 0 st.code e ∧ kept d e ∧ onlyParts [.regs, .fry] d e) ∧
      (c.fryRefusal w = none → btcStaged w = true →
        (s.dev.fry.staged.filter fun y => y.key != fryKey w).length < 4096 →
        Completes r.1 s fun d e => reports 1 Status.done.code e ∧ kept d e ∧ onlyParts [.regs, .fry] d e ∧
          ∃ y, e.fry.staged.getLast? = some y ∧ y.words = w ∧ y.applyTide = btcTide w) ∧
      (c.fryRefusal w = none → btcStaged w = false →
        Completes r.1 s fun d e =>
          (let read := if r.2 = 9 then (d.fryRead w).2 else some []
           reports 0 (if read.isSome then Status.done.code else Status.refusedParam.code) e) ∧
          onlyParts [.regs, .fry, .mrg, .hold, .gwy, .out, .free] d e ∧
          (r.2 = 1 → ∃ f, e.fan? x = some f ∧ f.pi = wfld w 4 6 0 ∧ f.launchOfs = wfld w 4 14 8 ∧ f.tenant = wfld w 4 21 16) ∧
          (r.2 = 2 → e.fan? x = none) ∧
          (∀ y, (r.2 ≠ 1 ∧ r.2 ≠ 2) ∨ y ≠ x → e.fan? y = d.fan? y) ∧
          (r.2 = 3 → e.stream x (wfld w 4 3 0) = ⟨wfld w 4 31 31 == 1, wfld w 5 25 0, wfld w 6 15 0⟩) ∧
          (∀ g i, r.2 ≠ 3 ∨ 16 * g + i ≠ k → e.stream g i = d.stream g i) ∧
          (let at_ := d.get Reg.fry_ROUTE_BASE * 65536 + 16 * x
           let entry : Route := if r.2 = 4 then ⟨wordAt w 4, wordAt w 5, wordAt w 6⟩ else Route.none
           r.2 = 4 ∨ r.2 = 5 → (assoc? x e.fry.routes).getD Route.none = entry ∧
             ((c.holdWrite at_ (bytesOfWords [entry.w0, entry.w1, entry.w2, 0]) fryPage).2 = none →
               Memory.readN e.hold.cells at_ 16 = bytesOfWords [entry.w0, entry.w1, entry.w2, 0])) ∧
          (∀ y, (r.2 ≠ 4 ∧ r.2 ≠ 5) ∨ y ≠ x → (assoc? y e.fry.routes).getD Route.none = (assoc? y d.fry.routes).getD Route.none) ∧
          (r.2 = 6 → ∃ q, e.rec? x = some q ∧ q.group = wfld w 4 13 0 ∧ q.est = wfld w 5 25 0 ∧ q.share = wfld w 6 30 24 ∧
            q.stream = wfld w 6 3 0 ∧ q.curValid = false) ∧
          (r.2 = 7 → ∃ o q, d.rec? x = some o ∧ e.rec? x = some q ∧ q.group = o.group ∧ q.cur = o.cur ∧ q.curValid = o.curValid ∧
            q.est = wfld w 5 25 0 ∧ q.share = wfld w 6 30 24 ∧ q.stream = wfld w 6 3 0) ∧
          (r.2 = 8 → e.rec? x = none) ∧
          (∀ y, (r.2 ≠ 6 ∧ r.2 ≠ 7 ∧ r.2 ≠ 8) ∨ y ≠ x → e.rec? y = d.rec? y) ∧
          (r.2 = 9 → kept d e ∧ ∀ v, (d.fryRead w).2 = some v →
            ∀ i, i < 4 → e.word (fryPortAddr port + 0x30 + 4 * i) = wordAt v i))

/-- FAN_LAUNCH, FAN_COPY and FERRY_QUEUE_ITEM to a fan list (R292, R294, R297, R301): in the Tide of a launch instant the list takes
its oldest packet and its members' copies are due, or FAN_MISS counts; a copy due advances its row's TX_SEQ by one and stamps
its timestamp; an item of the list's tenant enters its FIFO of 4, an item of another tenant is counted in FAN_SRC_DROP.
FRY_FB_ITEM, SR_SWEEP and NH_ENTRY_WRITE (R291, R304, R314): feedback of an XCD row goes to FB_FWD_QUEUE, a PLI or FIR of a
receiver becomes a request to the row of its current stream; a row is sent a report once in each SR_INTERVAL, which is dropped
and counted while the Ferry's EN is 0 or its port has no lane; a next-hop entry is stored or removed. -/
def Obligations.FerryFansAndServices : Prop :=
  (∀ (s : State),
    (∀ f ph, fanOk f = true → phaseOk ph = true →
      let c := s.dev.atPhase ph
      ∀ x, c.fan? f = some x → c.tide % x.pi = x.launchOfs → x.launched ≠ some c.tide →
        Completes (.fanLaunch f ph) s fun _ e =>
          match x.fifo with
          | [] => e.get Reg.fry_FAN_MISS = satAdd 32 (c.get Reg.fry_FAN_MISS) 1 ∧ e.pends fryPage 1 = true ∧
            e.fan? f = some { x with launched := some c.tide } ∧ e.fry.launches = c.fry.launches
          | p :: t => onlyParts [.fry] c e ∧ e.fan? f = some { x with fifo := t, launched := some c.tide } ∧
            e.fry.launches.getLast? = some ⟨f, c.tide, p, c.fanDues f⟩) ∧
    (∀ f l k ph, fanOk f = true → lportOk l = true → fanSlotOk k = true → phaseOk ph = true →
      let c := s.dev.atPhase ph
      (c.fanDue? f l k = none → Completes (.fanCopy f l k ph) s fun _ e => e = c) ∧
      ∀ (x : Launch) (y : FanDue) (sg : Segment) (h : Rtp), c.fanDue? f l k = some (x, y) → c.seg? f l = some sg → (k, y.berth) ∈ sg.slots →
        rtpOf x.packet.rtp = some h → c.rowsWf →
        let launches := c.fry.launches.map fun z => if z.fan = f then { z with due := z.due.erase y } else z
        let g := { c with fry := { c.fry with launches := launches } }.useRow y.berth .lsnCopy
        let r := g.row y.berth
        let ts := (h.ts + x.packet.tsAdj + r.get RowF.TS_OFS) % 2 ^ 32
        let pkt := rewritten x.packet.rtp (r.get RowF.TX_SEQ % 65536) ts (r.get RowF.TX_SSRC) none (g.twElement y.berth h)
        let o : Dev × Bool := g.sendCopy y.berth pkt true .plain (some (g.get Reg.fry_FAN_TXQ [l])) (some sg.maxFrame)
        Completes (.fanCopy f l k ph) s fun _ e =>
          if r.get RowF.STATE ≠ stLive then e = g
          else if o.2 = true then
            e.rowGet y.berth RowF.TX_PKTS = (r.get RowF.TX_PKTS + 1) % 2 ^ 32 ∧
              e.rowGet y.berth RowF.TX_SEQ = (r.get RowF.TX_SEQ + 1) % 65536 ∧ e.rowGet y.berth RowF.LAST_TS = ts ∧
              otherRows y.berth c e ∧ e.fry.launches = launches
          else e = o.1) ∧
    ∀ q f i a b, queueOk q = true → fanOk f = true → s.dev.take q = (a, some i) → (a.itemBytes i fryPage).2 = some b →
      let g := (a.itemBytes i fryPage).1
      Completes (.ferryQueueItem q (some f)) s fun _ e =>
        match g.fan? f with
        | none => e.get Reg.fry_FAN_SRC_DROP = satAdd 32 (g.get Reg.fry_FAN_SRC_DROP) 1 ∧ e.fry = g.fry
        | some x =>
          if x.tenant ≠ g.get Reg.wfg_Q_TENANT [q] then
            e.get Reg.fry_FAN_SRC_DROP = satAdd 32 (g.get Reg.fry_FAN_SRC_DROP) 1 ∧ e.fry = g.fry
          else if x.fifo.length < 4 then onlyParts [.fry] g e ∧ e.fan? f = some { x with fifo := x.fifo ++ [⟨b, 0⟩] }
          else e.fan? f = some { x with fifo := x.fifo.drop 1 ++ [⟨b, 0⟩] } ∧
            e.get Reg.fry_FAN_SRC_DROP = satAdd 32 (g.get Reg.fry_FAN_SRC_DROP) 1 ∧ e.pends fryPage 2 = true) ∧
  (∀ (s : State),
    (∀ ph, phaseOk ph = true →
      let c := s.dev.atPhase ph
      c.live fryPage = true → c.flag Reg.fry_FB_EN = true →
      ∀ a i, c.take (c.get Reg.bwr_FB_QUEUE) = (a, some i) →
        let cl := a.rowGet i.berth RowF.CLASS
        Completes (.fryFbItem ph) s fun _ e =>
          if cl = classXcd then e = a.pushWait (a.get Reg.fry_FB_FWD_QUEUE) i .booked
          else ∀ fir x, (cl = classFwd ∨ cl = classTrk) → feedbackKind i.data = some fir → a.rec? i.berth = some x →
            if x.curValid then e = a.kfrInternal fir (a.stream x.group x.cur).src else e = a) ∧
    (∀ b ph, berthOk b = true → phaseOk ph = true →
      let c := s.dev.atPhase ph
      let turn := c.tide / max 256 (c.get Reg.fry_SR_INTERVAL)
      let r := c.row b
      let g := ({ c with fry := { c.fry with srSent := assocSet b turn c.fry.srSent } }.fetch b [0, 1, 2, 3]).1
      let o := g.sendRtcp b (g.senderReport r (r.get RowF.LAST_TS)) false
      (c.live fryPage = false ∨ c.flag Reg.fry_SR_EN = false ∨ c.flag Reg.btc_EN = false ∨ c.follows = true ∨
          assoc? b c.fry.srSent = some turn →
        Completes (.srSweep b ph) s fun _ e => e = c) ∧
      (c.live fryPage = true → c.flag Reg.fry_SR_EN = true → c.flag Reg.btc_EN = true → c.follows = false →
        assoc? b c.fry.srSent ≠ some turn → (c.fetch b [0, 1, 2, 3]).2 = [] → r.get RowF.CLASS ≠ classLsn →
        Completes (.srSweep b ph) s fun _ e =>
          assoc? b e.fry.srSent = some turn ∧
            if r.get RowF.STATE = stLive ∧ bitAt (c.get Reg.fry_SR_CLASS_MASK) (r.get RowF.CLASS) = true ∧
                r.get RowF.TX_PKTS ≠ 0 then
              if c.flag Reg.fry_EN = false then e = g.bump Reg.fry_OFF_DROP
              else if c.inService ⟨ukFry, r.get RowF.LPORT / 4⟩ = false then e = g.bump Reg.fry_PIPE_FAULT_DROP
              else e = if o.2 then o.1.bump Reg.fry_SR_SENT else o.1
            else e = g)) ∧
    ∀ quay index (lo hi : Word), quayOk quay = true → nhIndexOk index = true → s.dev.live fryPage = true →
      Completes (.nhEntryWrite quay index lo hi) s fun d e =>
        onlyParts [.regs, .fry] d e ∧
          onlyWords [Reg.fry_NH_QUAY.addr, Reg.fry_NH_MAC_LO.addr, Reg.fry_NH_VALID.addr] d e ∧
          assoc? (4096 * quay + index) e.fry.nextHops =
            (if Word.fld hi 31 31 = 1 then some (Word.fld hi 15 0 * 2 ^ 32 + lo.toNat) else none) ∧
          ∀ k, k ≠ 4096 * quay + index → assoc? k e.fry.nextHops = assoc? k d.fry.nextHops)

/-- TALLY_HANDOVER, TALLY_AGE_DROP and TALLY_NODE_GO (R306, R309, R310, R316): the head of the first eligible service node of the
highest queue that has one is handed over, each shaped node on its path losing one packet of credit, and its node takes the last
place in turn, or none when it is empty; the UDP checksum is that of the hand-over (R279); a head that has waited HOLD_LIMIT
Tides is dropped; a node takes its rate, its burst and its port, and keeps its credit and what waits in it. -/
def Obligations.TallyNodes : Prop :=
  ∀ (s : State),
    (∀ l, lportOk l = true → s.dev.flag Reg.tly_EN = true → s.dev.live tlyPage = true → s.dev.inService ⟨ukTly, 0⟩ = true →
      s.dev.portExists l = true → s.dev.txBytes l < s.dev.bPort l →
      let shed (rate : Nat) (credit : Int) : Int := if rate = 0 then credit else credit - 256
      (s.dev.nextWaiting l = none → Completes (.tallyHandover l) s fun d e => e = d) ∧
      ∀ q k x t, s.dev.nextWaiting l = some (q, k) → (s.dev.svcNode k).fifo = x :: t →
        Completes (.tallyHandover l) s fun d e =>
          (∀ p, q < p → p < 8 → ∀ j ∈ d.robin l p, d.headEligible l j = false) ∧ k ∈ d.robin l q ∧
            ∃ b, e = b.enqueueTx l q (d.egress x.frame) ∧ onlyParts [.tly] d b ∧
              b.tly.robin = d.tly.robin.filter (· != k) ++ (if t = [] then [] else [k]) ∧
              b.svcNode k = { d.svcNode k with fifo := t, credit := shed (d.svcNode k).rate (d.svcNode k).credit } ∧
              b.subNode (k / 8) = { d.subNode (k / 8) with credit := shed (d.subNode (k / 8)).rate (d.subNode (k / 8)).credit } ∧
              b.portCredit l = shed (d.get Reg.tly_PORT_RATE [l]) (d.portCredit l) ∧
              (∀ j, j ≠ k → b.svcNode j = d.svcNode j) ∧ (∀ j, j ≠ k / 8 → b.subNode j = d.subNode j)) ∧
    (∀ sub svc, subNodeOk sub = true → eightOk svc = true →
      let k := 8 * sub + svc
      Completes (.tallyAgeDrop sub svc) s fun d e =>
        match (d.svcNode k).fifo with
        | [] => e = d
        | x :: t =>
          if d.tide < x.since + atLeast1 (d.get Reg.tly_HOLD_LIMIT) then e = d
          else e.svcNode k = { d.svcNode k with fifo := t } ∧ (∀ j, j ≠ k → e.svcNode j = d.svcNode j) ∧
            e.get Reg.tly_DROP_AGE = satAdd 32 (d.get Reg.tly_DROP_AGE) 1 ∧
            (d.get Reg.tly_DROP_AGE < 2 ^ 32 - 1 → e.pends tlyPage 2 = true)) ∧
    ∀ ws, words7Ok ws = true → s.dev.live tlyPage = true →
      let c := s.dev.fillWords tlyPage Reg.tly_NODE_SUB.addr ws
      let w := c.nodeWords
      let sub := wfld w 0 17 0
      let k := 8 * sub + wfld w 0 22 20
      let sends (e : Dev) (st apply : Nat) : Prop := e.get Reg.tly_NODE_STATUS = st ∧ e.get Reg.tly_NODE_APPLY = apply
      Completes (.tallyNodeGo ws) s fun d e =>
        onlyParts [.regs, .tly] d e ∧
          if wfld w 0 31 31 = 0 ∧ d.portExists (wfld w 3 3 0) = false then
            sends e Status.refusedParam.code 0 ∧ e.tly.subs = d.tly.subs ∧ e.tly.svcs = d.tly.svcs
          else if wfld w 4 16 16 = 1 then
            e.tly.subs = d.tly.subs ∧ e.tly.svcs = d.tly.svcs ∧
              if (d.tly.staged.filter fun y => y.key != nodeKey w).length < 16384 then
                sends e Status.done.code 1 ∧ ∃ y, e.tly.staged.getLast? = some y ∧ y.words = w
              else sends e Status.refusedBudget.code 0
          else sends e Status.done.code 0 ∧ (∀ j, j ≠ sub → e.subNode j = d.subNode j) ∧
            (∀ j, j ≠ k → e.svcNode j = d.svcNode j) ∧
            if wfld w 0 31 31 = 0 then
              e.subNode sub = { d.subNode sub with rate := wfld w 1 23 0, burst := wfld w 2 15 0, lport := wfld w 3 3 0 }
            else e.svcNode k = { d.svcNode k with rate := wfld w 1 23 0, burst := wfld w 2 15 0 }

/-! ### The Abacus (chapter 10) -/

/-- Abacus commands (R338, R339, R343, R352): an accepted one not staged is held for the next boundary, the last for its record; a
BASIN_SET and a READ execute at once; a staged one waits for its Tide; a refused one has no effect. What a change comes to at
its boundary (R322, R327, R340, R342, R349), the two ramps of a swap (R347) and the end of a cleared entry's ramp (R340): the
record named takes its arguments, a gain starts to ramp from where it stands, and no other record of its kind changes. -/
def Obligations.AbacusCommands : Prop :=
  (∀ (s : State) (port : Nat) (ws : List Word), pairOk port = true → words8Ok ws = true → s.dev.live abxPage = true →
    ∀ r ∈ [(Instr.basinSet port ws, 1), (.inputSet port ws, 2), (.mixSet port ws, 3), (.xpSet port ws, 4), (.xpClear port ws, 5),
        (.dressSet port ws, 6), (.abxRead port ws, 7)],
      let v := opWords r.2 ws
      let c := s.dev.setWords (abxPortAddr port) v
      let x := abxTarget v
      let reports (apply st : Nat) (e : Dev) : Prop :=
        e.word (abxPortAddr port + 0x24) = BitVec.ofNat 32 (2 ^ 30 + apply * 2 ^ 27 + st)
      let kept (d e : Dev) : Prop := e.abx.inputs = d.abx.inputs ∧ e.abx.mixes = d.abx.mixes ∧ e.abx.paths = d.abx.paths ∧
        (r.2 ≠ 1 → e.abx.entries = d.abx.entries ∧ e.abx.basins = d.abx.basins)
      let got := if r.2 = 6 then c.holdWords (256 * wfld v 4 31 0) 64 abxPage else (c, .ok [])
      (∀ a er, got = (a, .error er) →
        Completes r.1 s fun d e => reports 0 Status.refusedParam.code e ∧ kept d e ∧ e.abx.held = d.abx.held) ∧
      ∀ a b, got = (a, .ok b) →
        let w := v ++ b
        (∀ st, a.abxRefusal w false = some st →
          Completes r.1 s fun d e => reports 0 st.code e ∧ kept d e ∧ e.abx.held = d.abx.held ∧
            e.abx.entries = d.abx.entries ∧ e.abx.basins = d.abx.basins) ∧
        (a.abxRefusal w false = none → btcStaged w = true →
          (s.dev.abx.staged.filter fun y => y.key != abxKey w).length < 8192 →
          Completes r.1 s fun d e => reports 1 Status.done.code e ∧ kept d e ∧ e.abx.held = d.abx.held ∧
            ∃ y, e.abx.staged.getLast? = some y ∧ y.words = w ∧ y.applyTide = btcTide w) ∧
        (a.abxRefusal w false = none → btcStaged w = false →
          Completes r.1 s fun d e => reports 0 Status.done.code e ∧ kept d e ∧
            (r.2 ≠ 1 ∧ r.2 ≠ 7 → (∃ y, e.abx.held.getLast? = some y ∧ y.words = w) ∧
              ∀ y ∈ e.abx.held.dropLast, y.key ≠ abxKey w ∧ y ∈ d.abx.held) ∧
            (r.2 = 1 → e.abx.held = d.abx.held ∧
              ∃ q, assoc? x e.abx.basins = some q ∧ q.args = slice w 4 4 ∧ q.tenant = wfld w 4 5 0 ∧ q.k = wfld w 4 12 8 ∧
                q.mixBase = wfld w 4 28 16 ∧ ∀ y, y ≠ x → assoc? y e.abx.basins = assoc? y d.abx.basins) ∧
            (r.2 = 7 → e.abx.held = d.abx.held ∧
              ∀ i, i < 4 → e.word (abxPortAddr port + 0x30 + 4 * i) = wordAt (d.abxReadWords w) i))) ∧
  ((∀ (d : Dev) (w : List Word),
    let x := abxTarget w
    let k := 64 * xpMix w + xpEntry w
    let e := d.abxChange w
    (btcOp w = 2 → ∃ i, e.input? x = some i ∧ i.args = slice w 4 3 ∧ i.mute = (wfld w 5 17 17 == 1)) ∧
    (∀ y, btcOp w ≠ 2 ∨ y ≠ x → e.input? y = d.input? y) ∧
    (btcOp w = 3 → e.mix x = { d.mix x with args := some (slice w 4 4) }) ∧
    (∀ y, btcOp w ≠ 3 ∨ y ≠ x → e.mix y = d.mix y) ∧
    (btcOp w = 4 → ∃ q, assoc? k e.abx.entries = some q ∧ q.input = wfld w 4 11 0 ∧ q.invert = (wfld w 4 16 16 == 1) ∧
      q.g0 = (((assoc? k d.abx.entries).map (·.gainNow d.tide)).getD 0) ∧ q.g1 = min (wfld w 5 17 0) 0x3FB27 ∧ q.start = d.tide ∧
      q.ramp = wfld w 4 30 24) ∧
    (btcOp w = 5 → ∀ q, assoc? k d.abx.entries = some q → ∃ p, assoc? k e.abx.entries = some p ∧ p.input = q.input ∧
      p.g0 = q.gainNow d.tide ∧ p.g1 = 0 ∧ p.start = d.tide ∧ p.ramp = wfld w 4 30 24 ∧ p.clearing = true) ∧
    (∀ y, (btcOp w ≠ 4 ∧ btcOp w ≠ 5) ∨ y ≠ k → assoc? y e.abx.entries = assoc? y d.abx.entries) ∧
    (btcOp w = 6 → ∃ p, assoc? x e.abx.paths = some p ∧ p.params = w.drop 8) ∧ onlyParts [.abx] d e) ∧
  ∀ (s : State),
    (∀ n b z, basinOk n = true → assoc? n s.dev.abx.basins = some b →
      let now := s.dev.tide
      let others (d e : Dev) : Prop := onlyParts [.abx] d e ∧
        (∀ y, y ∉ b.entriesOfSlot z.slot → assoc? y e.abx.entries = assoc? y d.abx.entries) ∧
        ∀ m, m ≠ n → assoc? m e.abx.basins = assoc? m d.abx.basins
      ((b.swaps.find? fun y => y.stage == 0 && decide (y.at_ + b.lead ≤ now)) = some z →
        Completes (.talkFadeOut n) s fun d e => others d e ∧
          ∀ y ∈ b.entriesOfSlot z.slot, assoc? y e.abx.entries = (assoc? y d.abx.entries).map (·.rampTo now 0 b.ramp)) ∧
      ((b.swaps.find? fun y => y.stage == 1 && decide (y.at_ + b.lead + b.ramp ≤ now)) = some z → ∀ i, z.incoming = some i →
        Completes (.talkFadeIn n) s fun d e => others d e ∧
          (∃ q, assoc? n e.abx.basins = some q ∧ q.slots = b.slots.filter (·.slot != z.slot) ++ [⟨z.slot, i, now, 0⟩]) ∧
          ∀ y ∈ b.entriesOfSlot z.slot, assoc? y e.abx.entries =
            (assoc? y d.abx.entries).map fun q => { q with g0 := 0, g1 := b.gain, start := now, ramp := b.ramp, input := i })) ∧
    ∀ m n q, mixOk m = true → entryOk n = true → assoc? (64 * m + n) s.dev.abx.entries = some q →
      Completes (.xpRampEnd m n) s fun d e =>
        if q.clearing = true ∧ q.start + q.ramp ≤ d.tide then
          assoc? (64 * m + n) e.abx.entries = none ∧ onlyParts [.abx] d e ∧
            ∀ y, y ≠ 64 * m + n → assoc? y e.abx.entries = assoc? y d.abx.entries
        else e = d)

/-- Clock monitors (R368, R369, R373), while they watch; one that does not changes nothing: an edge after the third missing window
finds the clock lost and starts acquisition again, as the first edge does; one outside its window is counted in EDGE_EXTRA and
moves nothing; a clock whose third edge is missing is lost, its groups hold, LOCK falls where the group's reference member
follows it, and the member whose own clock it is is muted on receive; a converter that locks ends the hold, raises that LOCK and
lets its members in. -/
def Obligations.ClockMonitors : Prop :=
  ∀ (s : State) (m ph : Nat), monitorOk m = true → phaseOk ph = true →
    let c := s.dev.atPhase ph
    (∀ frac, fracOk frac = true →
      let t := c.ns * 65536 + frac
      Completes (.clkEdge m frac ph) s fun _ e =>
        if c.monOn m = false then e = c
        else
          let b := c.clkLost m
          onlyParts [.regs, .apu, .gwy, .out] c e ∧
          match c.monLast m with
          | none => e.monLast m = some t ∧ e.get Reg.apu_MON_STATE [m] = 1
          | some last =>
            let p := c.monPeriod m
            let k := (t - last + p / 2) / p
            if b.get Reg.apu_MON_STATE [m] = 3 then e.monLast m = some t ∧ e.get Reg.apu_MON_STATE [m] = 1
            else if k = 0 ∨ t + p / 8 < last + k * p ∨ last + k * p + p / 8 < t then
              e.get Reg.apu_MON_EDGE_EXTRA [m] = satAdd 16 (c.get Reg.apu_MON_EDGE_EXTRA [m]) 1 ∧ e.monLast m = some last
            else e.monLast m = some t ∧ e.get Reg.apu_MON_EDGE_MISS [m] = satAdd 16 (c.get Reg.apu_MON_EDGE_MISS [m]) (k - 1)) ∧
    (Completes (.clkLost m ph) s fun _ e =>
      match c.monLast m with
      | none => e = c
      | some last =>
        let p := c.monPeriod m
        if c.monOn m = false ∨ c.get Reg.apu_MON_STATE [m] = 3 ∨ c.ns * 65536 ≤ last + 3 * p + p / 8 then e = c
        else e.get Reg.apu_MON_STATE [m] = 3 ∧ e.pends apuPage 0 = true ∧
          e.get Reg.apu_MON_EDGE_MISS [m] = satAdd 16 (c.get Reg.apu_MON_EDGE_MISS [m]) 3 ∧
          (∀ g ∈ c.monGroups m, e.get Reg.apu_GRP_HOLD [g] = 1) ∧
          (∀ x ∈ c.affected m, c.refMember (c.memberGroup x) = some x → e.get Reg.apu_GRP_LOCK [c.memberGroup x] = 0) ∧
          ∀ x, monMember m = some x → (e.member x).rxMute = true) ∧
    (Completes (.clkLocked m ph) s fun _ e =>
      if c.monOn m = false ∨ c.get Reg.apu_MON_STATE [m] ≠ 1 then e = c
      else e.get Reg.apu_MON_STATE [m] = 2 ∧ e.pends apuPage 2 = true ∧
        (∀ g ∈ c.monGroups m, e.get Reg.apu_GRP_HOLD [g] = 0) ∧
        (∀ x ∈ c.affected m, c.refMember (c.memberGroup x) = some x → e.get Reg.apu_GRP_LOCK [c.memberGroup x] = 1) ∧
        ∀ x, (x ∈ c.clockedBy m ∨ monMember m = some x) → (e.member x).rxMute = false ∧ (e.member x).txMute = false)

/-- AES3_BLOCK_RX, TDM_MASK_APPLY and AES3_CS_APPLY (R362, R364, R365): two clean blocks lock a receiver, its status words are
latched where their CRC holds, PRO and NONAUDIO are bits 0 and 1 of the words held, and a NONAUDIO that now mutes it raises bit
6; a port takes the masks of its registers; a transmitter takes the status words and validity bits of its registers, with byte
23 of a professional block computed under AUTO_CRC. ESS_AUDIO_TX and ESS_AUDIO_FLOW_EN (R372): a packet that is due uses up a
sequence number and, while the outputs are open, goes out on the flow's row and is counted where that row is LIVE with a known
next hop; a flow is enabled only on a LIVE, pinned, reserved row of class ESS, and shows CFG_BAD otherwise. -/
def Obligations.AudioPorts : Prop :=
  (∀ (s : State) (k : Nat),
    (∀ (status user : List Word) (rate : Nat) (clean : Bool), aesOk k = true → aesBlockOk status = true → aesBlockOk user = true →
      rateCodeOk rate = true →
      Completes (.aes3BlockRx k status user rate clean) s fun d e =>
        if d.memberOn (8 + k) = false then e = d
        else
          e.get Reg.apu_AES_RX_LOCK [k] = bitOf (clean && decide (1 ≤ (assoc? k d.apu.good).getD 0)) ∧
            e.get Reg.apu_AES_RX_RATE [k] = rate % 8 ∧
            (∀ i, i < 6 → e.get Reg.apu_AES_RX_USER_A [k, i] = (wordAt user i).toNat ∧
              e.get Reg.apu_AES_RX_CS_A [k, i] =
                if csOk (bytesOfWords (status.take 6)) then (wordAt status i).toNat else d.get Reg.apu_AES_RX_CS_A [k, i]) ∧
            e.get Reg.apu_AES_RX_PRO [k] = e.get Reg.apu_AES_RX_CS_A [k, 0] % 2 ∧
            e.get Reg.apu_AES_RX_NONAUDIO [k] = e.get Reg.apu_AES_RX_CS_A [k, 0] / 2 % 2 ∧
            (d.nonaudioMuted (8 + k) = false → e.nonaudioMuted (8 + k) = true → e.pends apuPage 6 = true) ∧
            onlyParts [.regs, .apu, .gwy, .out] d e) ∧
    (eightOk k = true → Completes (.tdmMaskApply k) s fun d e =>
      onlyParts [.apu] d e ∧ e.tdmMasks k = (d.get Reg.apu_TDM_RX_MASK [k], d.get Reg.apu_TDM_TX_MASK [k]) ∧
        ∀ j, j ≠ k → e.tdmMasks j = d.tdmMasks j) ∧
    (aesOk k = true → Completes (.aes3CsApply k) s fun d e =>
      if d.memberOn (12 + k) = false then e = d
      else onlyParts [.apu, .out] d e ∧ ∃ st, e.apu.status.getLast? = some (k, st) ∧ st.length = 24 ∧
        (d.outputsOpen = true → e.out = .aesBlock k st (d.get Reg.apu_AES_TX_V_A [k] + 2 * d.get Reg.apu_AES_TX_V_B [k]) :: d.out) ∧ (d.outputsOpen = false → e.out = d.out) ∧
        (∀ i, i < 6 → (d.flag Reg.apu_AES_TX_AUTO_CRC [k] = false ∨ i ≠ 5) →
          wordAt st i = BitVec.ofNat 32 (d.get Reg.apu_AES_TX_CS_A [k, i]) ∧
            wordAt st (6 + i) = BitVec.ofNat 32 (d.get Reg.apu_AES_TX_CS_B [k, i])) ∧
        (∀ i, i < 6 → wordAt st (12 + i) = BitVec.ofNat 32 (d.get Reg.apu_AES_TX_USER_A [k, i]) ∧
          wordAt st (18 + i) = BitVec.ofNat 32 (d.get Reg.apu_AES_TX_USER_B [k, i])) ∧
        (d.flag Reg.apu_AES_TX_AUTO_CRC [k] = true →
          csOk (bytesOfWords (st.take 6)) = true ∧ csOk (bytesOfWords (slice st 6 6)) = true))) ∧
  (∀ (s : State) (f : Nat), audioFlowOk f = true →
    (∀ ph, phaseOk ph = true →
      let c := s.dev.atPhase ph
      let j := c.essSent f
      let due := c.essOn && c.flag Reg.ess_AUD_EN && c.flag Reg.ess_ATX_EN [f] && decide (j < c.atxPackets f) &&
        decide (c.atxPhase f j ≤ c.phase)
      Completes (.essAudioTx f ph) s fun _ e =>
        if due = false then e = c
        else e.get Reg.ess_ATX_SEQ [f] = (c.get Reg.ess_ATX_SEQ [f] + 1) % 65536 ∧ e.essSent f = j + 1 ∧
          ∃ b, onlyParts [.regs, .ess] c b ∧ b.get Reg.ess_ATX_SEQ [f] = (c.get Reg.ess_ATX_SEQ [f] + 1) % 65536 ∧
            b.essSent f = j + 1 ∧ (c.outputsOpen = false → e = b) ∧
            (c.outputsOpen = true →
              let x := c.get Reg.ess_ATX_BERTH [f]
              let r := b.essSend x (c.essPacket f (j * ptimeSamples (c.get Reg.ess_ATX_PTIME [f])))
              let u := b.useRow x .ess
              (r.2 = true ↔ u.flag Reg.btc_EN = true ∧ u.rowState x = stLive ∧ (u.headersOf (u.row x)).isSome = true) ∧
                (r.2 = true → e.get Reg.ess_ATX_PKTS [f] = satAdd 32 (c.get Reg.ess_ATX_PKTS [f]) 1) ∧
                (r.2 = false → e = r.1 ∧ e.get Reg.ess_ATX_PKTS [f] = c.get Reg.ess_ATX_PKTS [f]))) ∧
    ∀ w : Word, s.dev.live essPage = true →
      Completes (.essAudioFlowEn f w) s fun d e =>
        let good := d.essRowOk (d.get Reg.ess_ATX_BERTH [f])
        onlyParts [.regs, .gwy, .out] d e ∧ e.get Reg.ess_ATX_ENC [f] = Word.fld w 30 30 ∧
          e.get Reg.ess_ATX_PTIME [f] = Word.fld w 29 29 ∧ e.get Reg.ess_ATX_CHANNELS [f] = Word.fld w 26 24 ∧
          e.get Reg.ess_ATX_PT [f] = Word.fld w 22 16 ∧ e.get Reg.ess_ATX_EN [f] = bitOf (Word.fld w 31 31 == 1 && good) ∧
          e.get Reg.ess_ATX_CFG_BAD [f] = bitOf (Word.fld w 31 31 == 1 && !good) ∧
          (Word.fld w 31 31 = 1 → good = false → e.pends essPage 20 = true))

/-! ### Video (chapters 13 to 15) -/

/-- The commands of the decode control page and ASM_TIMEOUT (R418, R419, R422): CTX_SET starts a context anew from its block,
CTX_MOD takes only what may change, CTX_RESET waits for the next instance, CTX_READ writes the context to Hold, CTX_CLEAR
removes it; none touches another context; a bound context is neither set nor cleared; a frame that has waited ASM_WAIT Tides is
complete as it is. The commands of the encode control page and ENC_FB_ITEM (R446, R454, R459, R460, R468, R469): SET starts a
context anew from its block, MOD waits for the picture of its Tide, CLEAR removes a context, KEY asks the base of the tail's
chain for a key picture, READ writes a context to Hold; no other context changes; a bound one is neither set nor cleared. -/
def Obligations.VideoContexts : Prop :=
  (∀ (s : State) (k addr : Nat), ctxOk k = true →
    (word32Ok addr = true → s.dev.live decPage = true →
      let c (op : Nat) := s.dev.decPosted op k addr
      let ends (st : Status) (d e : Dev) : Prop := e.get Reg.decCtl_CMD_VALID = 1 ∧ e.get Reg.decCtl_CMD_STATUS = st.code ∧
        ∀ x, x ≠ k → e.decCtx? x = d.decCtx? x
      let refused (st : Status) (d e : Dev) : Prop := ends st d e ∧ e.dec = d.dec ∧ e.pends decPage 0 = true
      (s.dev.enabled decPage = false ∨ s.dev.flag Reg.decCtl_EN = false →
        ∀ i ∈ [Instr.ctxSet k addr, .ctxMod k addr, .ctxReset k addr, .ctxRead k addr, .ctxClear k addr],
          Completes i s (refused .refusedNoUnit)) ∧
      (s.dev.enabled decPage = true → s.dev.flag Reg.decCtl_EN = true →
        (∀ b w, (c 1).holdWords (addr * 256) 64 decPage = (b, .ok w) →
          Completes (.ctxSet k addr) s fun d e =>
            if b.decBlockOk w = false ∨ d.binds opDEC k = true then refused .refusedParam d e
            else ends .done d e ∧ e.decCtx? k = some { params := w }) ∧
        (∀ b w x, (c 2).holdWords (addr * 256) 64 decPage = (b, .ok w) → s.dev.decCtx? k = some x →
          Completes (.ctxMod k addr) s fun d e =>
            if decTakenOk w = false then refused .refusedParam d e
            else ends .done d e ∧ e.decCtx? k = some { x with params := decModified x.params w }) ∧
        (Completes (.ctxReset k addr) s fun d e =>
          match d.decCtx? k with
          | none => refused .refusedParam d e
          | some x => ends .done d e ∧ e.decCtx? k = some { x with reset := true }) ∧
        (∀ b img, (c 4).decImage k = (b, img) → (b.holdWrite (addr * 256) img decPage).2 = none →
          Completes (.ctxRead k addr) s fun d e => ends .done d e ∧ e.dec = d.dec ∧
            Memory.readN e.hold.cells (addr * 256) img.length = img) ∧
        (Completes (.ctxClear k addr) s fun d e =>
          if d.binds opDEC k = true then refused .refusedParam d e else ends .done d e ∧ e.decCtx? k = none))) ∧
    ∀ x sl, s.dev.decCtx? k = some x →
      (s.dev.wfg.slots.find? fun y => Desc.kind y.desc == opDEC && Desc.ctx y.desc == k) = some sl →
      Completes (.asmTimeout k) s fun d e =>
        let a := d.asm sl.order
        if a.pkts = [] ∨ a.frames ≠ 0 ∨ (d.tide % 2 ^ 32 + 2 ^ 32 - a.since) % 2 ^ 32 + 1 < asmWait x.params then e = d
        else e.get Reg.decCtl_ASM_TIMEOUT = satAdd 32 (d.get Reg.decCtl_ASM_TIMEOUT) 1 ∧ onlyParts [.regs, .dec] d e ∧
          (e.asm sl.order).key = a.key ∧ (e.asm sl.order).pkts.Perm a.pkts ∧ (e.asm sl.order).doneTide = d.tide ∧
            e.dec.ctxs = d.dec.ctxs) ∧
  (∀ (s : State),
    (∀ (k addr : Nat) (staged : Bool) (t : Nat), ctxOk k = true → word32Ok addr = true → tideOk t = true →
      s.dev.live encPage = true → s.dev.enabled encPage = true → s.dev.flag Reg.encCtl_EN = true →
      let c (op : Nat) := s.dev.encPosted op k addr staged t
      let ends (st : Status) (apply : Nat) (e : Dev) : Prop := e.get Reg.encCtl_CMD_VALID = 1 ∧
        e.get Reg.encCtl_CMD_STATUS = st.code ∧ e.get Reg.encCtl_CMD_APPLY = apply
      let refused (d e : Dev) : Prop := ends .refusedParam 0 e ∧ e.enc = d.enc ∧ e.pends encPage 0 = true
      let svys (d e : Dev) : Prop := e.enc.tails = d.enc.tails ∧ ∀ x, x ≠ k → e.svy? x = d.svy? x
      let tails (d e : Dev) : Prop := e.enc.svys = d.enc.svys ∧ ∀ x, x ≠ k → e.tail? x = d.tail? x
      let pend (w : List Word) : Option PendMod := some ⟨if staged then t else s.dev.tide, w, staged⟩
      (staged = true → ∀ i ∈ [Instr.svySet k addr staged t, .svyClear k addr staged t, .ltrSet k addr staged t,
          .ltrClear k addr staged t, .key k addr staged t, .svyRead k addr staged t, .ltrRead k addr staged t],
        Completes i s refused) ∧
      (∀ b w, (c 1).holdWords (256 * addr) 16 encPage = (b, .ok w) → staged = false →
        Completes (.svySet k addr staged t) s fun d e =>
          if svyOk w = false ∨ d.ctxBound opSVY k = true ∨ 1024 ≤ k then refused d e
          else ends .done 0 e ∧ svys d e ∧ e.svy? k = some { params := w }) ∧
      (∀ b w, (c 2).holdWords (256 * addr) 16 encPage = (b, .ok w) →
        Completes (.svyMod k addr staged t) s fun d e =>
          match d.svy? k with
          | none => refused d e
          | some x => ends .done (bitOf staged) e ∧ svys d e ∧ e.svy? k = some { x with pend := pend w }) ∧
      (∀ b w, (c 4).holdWords (256 * addr) 16 encPage = (b, .ok w) → staged = false →
        Completes (.ltrSet k addr staged t) s fun d e =>
          if tailOk k w = false ∨ d.ctxBound opLTR k = true then refused d e
          else ends .done 0 e ∧ tails d e ∧ e.tail? k = some { params := w }) ∧
      (∀ b w, (c 5).holdWords (256 * addr) 16 encPage = (b, .ok w) →
        Completes (.ltrMod k addr staged t) s fun d e =>
          match d.tail? k with
          | none => refused d e
          | some x => if tailRateOk x.codec w = false then refused d e
            else ends .done (bitOf staged) e ∧ tails d e ∧ e.tail? k = some { x with pend := pend w }) ∧
      (staged = false →
        (Completes (.svyClear k addr staged t) s fun d e =>
          if d.ctxBound opSVY k = true then refused d e else ends .done 0 e ∧ svys d e ∧ e.svy? k = none) ∧
        (Completes (.ltrClear k addr staged t) s fun d e =>
          if d.ctxBound opLTR k = true then refused d e else ends .done 0 e ∧ tails d e ∧ e.tail? k = none) ∧
        (Completes (.key k addr staged t) s fun d e =>
          match d.tail? k with
          | none => refused d e
          | some x => ends .done 0 e ∧ e.get Reg.encCtl_KEY_REQ = satAdd 32 (d.get Reg.encCtl_KEY_REQ) 1 ∧
            e.enc.svys = d.enc.svys ∧ (∀ j, j ≠ x.base k → e.tail? j = d.tail? j) ∧
            e.tail? (x.base k) = (d.tail? (x.base k)).map fun y => { y with request := true }) ∧
        ∀ p ∈ [(Instr.svyRead k addr staged t, 8, (s.dev.svy? k).map (·.params)),
            (.ltrRead k addr staged t, 9, (s.dev.tail? k).map (·.params))],
          let a := (c p.2.1).drawBytes 256
          let img := match p.2.2 with
            | some ws => bytesOfWords ws ++ a.2.take 192
            | none => a.2
          (a.1.holdWrite (256 * addr) img encPage).2 = none →
            Completes p.1 s fun d e => ends .done 0 e ∧ e.enc = d.enc ∧
              Memory.readN e.hold.cells (256 * addr) img.length = img)) ∧
    ∀ ph, phaseOk ph = true →
      let c := s.dev.atPhase ph
      c.live encPage = true → c.flag Reg.encCtl_FB_EN = true → ∀ a i, c.take (c.get Reg.encCtl_FB_QUEUE) = (a, some i) →
        Completes (.encFbItem ph) s fun _ e =>
          if feedbackKind i.data = none then onlyParts [.regs] a e ∧
            e.get Reg.encCtl_FB_IGNORED = satAdd 32 (a.get Reg.encCtl_FB_IGNORED) 1
          else
            let tail := match a.rec? i.berth with
              | some x => if x.curValid then a.tailOf x.group x.cur else none
              | none => none
            match tail with
            | some t => e = a.keyRequest t
            | none => e.get Reg.encCtl_FB_NO_TAIL = satAdd 32 (a.get Reg.encCtl_FB_NO_TAIL) 1 ∧
              (a.get Reg.encCtl_FB_NO_TAIL < 2 ^ 32 - 1 → e.pends encPage 2 = true) ∧ e.enc = a.enc)

/-- The commands of the compose control page (R475, R476, R479, R489, R490): VIEW_SET starts a view anew, VIEW_MOD takes words 3 and
4, LAYOUT gives it a layout that keeps R479 and what its operation booked, now or staged, VIEW_CLEAR removes it, VIEW_READ
writes it to Hold; no other view changes. -/
def Obligations.ViewCommands : Prop :=
  ∀ (s : State) (v addr : Nat) (staged : Bool) (t : Nat), viewNumOk v = true → word32Ok addr = true → tideOk t = true →
    s.dev.live cmpPage = true → s.dev.enabled cmpPage = true → s.dev.flag Reg.cmpCtl_EN = true →
    let c (op : Nat) := s.dev.viewPosted op v addr staged t
    let ends (st : Status) (apply : Nat) (d e : Dev) : Prop := e.get Reg.cmpCtl_CMD_VALID = 1 ∧
      e.get Reg.cmpCtl_CMD_STATUS = st.code ∧ e.get Reg.cmpCtl_CMD_APPLY = apply ∧ ∀ x, x ≠ v → e.view? x = d.view? x
    let refused (st : Status) (d e : Dev) : Prop := ends st 0 d e ∧ e.cmp = d.cmp ∧ e.pends cmpPage 0 = true
    (staged = true → ∀ i ∈ [Instr.viewSet v addr staged t, .viewMod v addr staged t, .viewClear v addr staged t,
        .viewRead v addr staged t], Completes i s (refused .refusedParam)) ∧
    (∀ b w, (c 1).holdWords (256 * addr) 16 cmpPage = (b, .ok w) → staged = false →
      Completes (.viewSet v addr staged t) s fun d e =>
        if wfld w 1 12 12 = 1 ∧ d.essVideo = false then refused .refusedNoUnit d e
        else if viewOk w = false ∨ d.viewBound v = true ∨ d.essHeld v (some w) = true then refused .refusedParam d e
        else ends .done 0 d e ∧ e.view? v = some { params := w.take 16 }) ∧
    (∀ b w x, (c 2).holdWords (256 * addr) 16 cmpPage = (b, .ok w) → staged = false → s.dev.view? v = some x →
      Completes (.viewMod v addr staged t) s fun d e =>
        let p := (x.params.set 3 (wordAt w 3)).set 4 (wordAt w 4)
        if viewOk p = false then refused .refusedParam d e else ends .done 0 d e ∧ e.view? v = some { x with params := p }) ∧
    (∀ b h g l, (c 3).holdWords (256 * addr) 8 cmpPage = (b, .ok h) →
      b.holdWords (256 * addr) (8 * (min 32 (layerCount h) + 1)) cmpPage = (g, .ok l) →
      Completes (.layout v addr staged t) s fun d e =>
        match d.view? v with
        | none => refused .refusedParam d e
        | some x =>
          let m := l.take (8 * (layerCount l + 1))
          if d.layoutOk v x m = false ∨ (layersOf m).any (d.layerForeign x.tenant) = true then refused .refusedParam d e
          else if d.viewBound v = true ∧ (x.maxLayers < layerCount m ∨ x.fBooked < fetchedPixels x.width x.height m) then
            refused .refusedBudget d e
          else if staged then ends .done 1 d e ∧ e.view? v = some { x with staged := some ⟨m, t, decide (t ≤ d.tide)⟩ }
          else ends .done 0 d e ∧ e.view? v = some { x with layout := m }) ∧
    (staged = false →
      (Completes (.viewClear v addr staged t) s fun d e =>
        if d.viewBound v = true ∨ d.essHeld v none = true then refused .refusedParam d e
        else ends .done 0 d e ∧ e.view? v = none) ∧
      ∀ b img, (c 5).viewImage v = (b, img) → (b.holdWrite (256 * addr) img cmpPage).2 = none →
        Completes (.viewRead v addr staged t) s fun d e => ends .done 0 d e ∧ e.cmp = d.cmp ∧
          Memory.readN e.hold.cells (256 * addr) img.length = img)

/-- ESS_VIDEO_FRAME_TX, ESS_VIDEO_PKT_TX and ESS_VIDEO_FLOW_EN (R497, R499–R501): at an epoch a flow takes the newest view picture
whose Tide has ended; a packet that is due advances the frame by one, and the sequence number with it where its line can be
read; a flow is enabled with a format, a rate, capacity and, to send, a view and a row that suit, and shows CFG_BAD otherwise. -/
def Obligations.VideoFlows : Prop :=
  ∀ (s : State) (f : Nat), videoFlowOk f = true →
    (∀ ph, phaseOk ph = true →
      let c := s.dev.atPhase ph
      let x := c.vidTx f
      ∀ num den w h, vidRate (c.get Reg.ess_VTX_RATE [f]) = some (num, den) → vidSize (c.get Reg.ess_VTX_FORMAT [f]) = some (w, h) →
        let n := c.ns * num / (den * 1000000000)
        let on := c.vidOn && c.flag Reg.ess_VTX_EN [f]
        let ended := fun (p : Nat × Nat) =>
          decide (((((p.2 + 1) * 1000000 : Nat) : Int) + c.tk.offset) * num ≤ ((n * den * 1000000000 : Nat) : Int))
        (∀ v, c.vidView f = some v → Completes (.essVideoFrameTx f ph) s fun _ e =>
          if on = false ∨ x.epoch = some n then e = c
          else match v.ess.find? ended with
            | none => onlyParts [.cmp] c e ∧ e.vidTx f = { x with epoch := some n }
            | some (k, _) => e.get Reg.ess_VTX_FRAMES [f] = satAdd 32 (c.get Reg.ess_VTX_FRAMES [f]) 1 ∧
              e.vidTx f = ⟨some n, some k, some (n, v.essRing + k % max 1 v.essDepth * (evStride w * h), 0)⟩) ∧
        ∀ m addr i, x.frame = some (m, addr, i) → Completes (.essVideoPktTx f ph) s fun _ e =>
          if on = false ∨ c.vidDue f m i num den h w = false then e = c
          else
            let ofs := i % linePackets w * 480
            let line := c.holdRead (addr + evStride w * (i / linePackets w) + ofs / 2 * 5) (min 480 (w - ofs) / 2 * 5) essPage
            (e.vidTx f).frame = (if i + 1 = linePackets w * h then none else some (m, addr, i + 1)) ∧
              match line.2 with
              | .ok _ => e.get Reg.ess_VTX_SEQ [f] = (c.get Reg.ess_VTX_SEQ [f] + 1) % 2 ^ 32
              | .error _ => e.get Reg.ess_VTX_SEQ [f] = c.get Reg.ess_VTX_SEQ [f] ∧ e.qay = c.qay) ∧
    ∀ (tx : Bool) (w : Word), s.dev.live essPage = true → s.dev.essVideo = true →
      let en := if tx then Reg.ess_VTX_EN else Reg.ess_VRX_EN
      let bad := if tx then Reg.ess_VTX_CFG_BAD else Reg.ess_VRX_CFG_BAD
      let fmt := if tx then Reg.ess_VTX_FORMAT else Reg.ess_VRX_FORMAT
      let rate := if tx then Reg.ess_VTX_RATE else Reg.ess_VRX_RATE
      Completes (.essVideoFlowEn tx f w) s fun d e =>
        let good := (vidSize (Word.fld w 21 20)).isSome && (vidRate (Word.fld w 26 24)).isSome &&
          decide (d.vidUnitsUsed tx (some f) + vidUnits (Word.fld w 21 20) ≤ 8) &&
          (!tx || (d.vidViewsOk f (Word.fld w 21 20) && d.essRowOk (d.get Reg.ess_VTX_BERTH [f])))
        (Word.fld w 31 31 = 0 → e.get en [f] = 0 ∧ e.get bad [f] = 0 ∧
          if tx then e.vidTx f = {} else e.vidRx f = {}) ∧
        (Word.fld w 31 31 = 1 → d.flag en [f] = false →
          e.get fmt [f] = Word.fld w 21 20 ∧ e.get rate [f] = Word.fld w 26 24 ∧ e.get en [f] = bitOf good ∧
            e.get bad [f] = bitOf (!good) ∧ (good = false → e.pends essPage 4 = true)) ∧
        (tx = true → d.flag en [f] = true → Word.fld w 31 31 = 1 →
          e.get en [f] = 1 ∧ e.get fmt [f] = d.get fmt [f] ∧ e.get rate [f] = d.get rate [f])

/-- OVERRUN, DMA_DONE, RKN_LOAD and LOAD_DONE (R394, R402–R406, R408): an operation that reaches its declared cycles ends with
FAILED_LENGTH; a transfer charged to its allowance completes, its outcome in its descriptor, where memory serves it, a QPUSH
once its queue has room and a QPOP once its operation's OUT_QUEUE has, and one that does not fit the allowance waits; an image
is refused for the first case that applies, or written into every core of its pier, which is LOADED once no core has failed in
INIT_ENTRY. -/
def Obligations.CoreEvents : Prop :=
  ∀ (s : State),
    (∀ n ph o t sl, coreOk n = true → phaseOk ph = true →
      let c := s.dev.atPhase ph
      let x := c.core n
      x.mode = .run → x.ops = o :: t → c.slotByOrder o.order = some sl →
      let since := match sl.inst with
        | some i => (1000000 * (c.tide - i.startTide) + c.phase) - i.startPhase
        | none => 0
      Completes (.overrun n ph) s fun _ e =>
        if o.cyc < o.limit ∧ since * 16 < o.limit * 10 then e = c
        else e.get Reg.rkn_OVERRUN (rknIx n) = satAdd 32 (c.get Reg.rkn_OVERRUN (rknIx n)) 1 ∧
          (c.get Reg.rkn_OVERRUN (rknIx n) < 2 ^ 32 - 1 → e.pends (rknPage n) 3 = true) ∧
          ∃ b : Dev, e = b.coreEnd n .failedLength ∧ b.core n = { x with ops := { o with cyc := max o.cyc o.limit } :: t }) ∧
    (∀ n ch ph t, coreOk n = true → dmaChannelOk ch = true → phaseOk ph = true →
      let c := s.dev.atPhase ph
      let x := c.core n
      x.dma.find? (·.ch == ch) = some t →
      let ends (y : RkCore) (full empty : Bool) (e : Dev) : Prop :=
        e.core n = { y with dma := y.dma.filter fun z => z.ch != t.ch }.putResult t.desc (dmaResult false full empty 0)
      Completes (.dmaDone n ch ph) s fun _ e =>
        if t.charged = false then 32768 < c.dmaUsed x + t.counted → e = c
        else
          match t.op with
          | 1 => ∀ b bs, c.dmaFetch n t = (b, .ok bs) → ends (x.putBytes t.local_ bs) false false e ∧ e.hold = b.hold
          | 2 => ∀ b, c.dmaStore n t (c.coreBytes x t.local_ t.length) = (b, none) →
            ends x false false e ∧ e.hold = b.hold ∧ e.rkn.stores = b.rkn.stores ∧ e.abx = b.abx
          | 3 =>
            match c.popKept t with
            | none => e = c
            | some k =>
              if k.flag Reg.wfg_Q_EN [t.queue] = true then
                match k.take t.queue with
                | (b, some i) => ends (b.core n |>.putBytes t.local_ (bytesOfWords i.words)) false false e
                | (b, none) => ends (b.core n) false true e
              else ends (k.core n) false true e
          | _ =>
            match c.taskPush t { words := wordsOf 8 (c.coreBytes x t.local_ 32) } with
            | (b, .stored) => ends (b.core n) false false e
            | (b, .dropped) => ends (b.core n) true false e
            | (b, .full) => e = b) ∧
    ∀ p, eightOk p = true →
      let pg : Page := ⟨.rkn, p⟩
      let mine (n : Nat) : Prop := (coreUnit n).pier = p
      (∀ image, word32Ok image = true → s.dev.live pg = true → s.dev.flag Reg.rkn_LOAD_BUSY [p] = false →
        let c := s.dev.set Reg.rkn_IMG_ADDR image [p]
        let refused (err : Nat) (d e : Dev) : Prop := e.get Reg.rkn_VALID [p] = 1 ∧ e.get Reg.rkn_LOAD_ERR [p] = err ∧
          e.get Reg.rkn_STATUS [p] = Status.refusedParam.code ∧ e.pends pg 1 = true ∧ e.rkn = d.rkn ∧
          e.get Reg.rkn_LOADED [p] = d.get Reg.rkn_LOADED [p]
        (∀ a er, c.holdRead (image * 256) 0x40 pg = (a, .error er) → Completes (.rknLoad p image) s (refused 8)) ∧
        ∀ a h, c.holdRead (image * 256) 0x40 pg = (a, .ok h) →
          (imgLengthsOk h = false → Completes (.rknLoad p image) s (refused ((a.imgError p h none).getD 2))) ∧
          (imgLengthsOk h = true →
            (∀ b er, a.holdRead (image * 256 + 0x40) (imgEnd h - 0x40) pg = (b, .error er) →
              Completes (.rknLoad p image) s (refused 8)) ∧
            ∀ b r, a.holdRead (image * 256 + 0x40) (imgEnd h - 0x40) pg = (b, .ok r) →
              Completes (.rknLoad p image) s fun d e =>
                match b.imgError p h (some (h ++ r)) with
                | some err => refused err d e
                | none => e.get Reg.rkn_LOADED [p] = 0 ∧ e.get Reg.rkn_LOAD_BUSY [p] = 1 ∧ p ∈ e.rkn.loading ∧
                  (∀ n, mine n → (e.core n).mode = .init ∧ (e.core n).pc = imgHalf (h ++ r) 0x18 % 8192 ∧
                    (e.core n).srBit srIE = false) ∧
                  ∀ q, q ≠ p → assoc? q e.rkn.images = assoc? q d.rkn.images)) ∧
      ∀ (failed : Bool) (inits : List CoreInit), p ∈ s.dev.rkn.loading →
        Completes (.loadDone p failed inits) s fun d e =>
          e.get Reg.rkn_LOAD_BUSY [p] = 0 ∧ e.get Reg.rkn_VALID [p] = 1 ∧ p ∉ e.rkn.loading ∧
            if failed = true ∨ ∃ x ∈ d.rkn.cores, (coreUnit x.num).pier = p ∧ x.mode = .initFailed then
              e.get Reg.rkn_LOAD_ERR [p] = 7 ∧ e.pends pg 1 = true ∧ e.get Reg.rkn_LOADED [p] = d.get Reg.rkn_LOADED [p]
            else ∀ i, assoc? p d.rkn.images = some i →
              e.get Reg.rkn_LOADED [p] = 1 ∧ e.get Reg.rkn_LOAD_ERR [p] = 0 ∧ e.get Reg.rkn_IMAGE_ID [p] = i.id % 2 ^ 32 ∧
                e.pends pg 0 = true

/-! ### Hold (chapter 16) -/

/-- HOLD_READ (R509, R511, R515, R523, R524, R528): before Hold is enabled every address answers NOT_READY, in Ebb mode UNMAPPED.
Hold serving, an unmapped address answers UNMAPPED and is counted; a block of a lost channel answers CTRL_FAULT; a poisoned one
answers POISON; any other is decoded with what an injection, the block and its lines bring, and answers with its bytes,
corrected or not, or is poisoned, counted and answers UE; a miscorrection answers 64 bytes the spec leaves open. None of this
changes a byte. A poisoned or uncorrectable block of the Berth Table meets its row as well: one that is newly found
uncorrectable quarantines its LIVE row, but on a standby (R136). HOLD_WRITE (R507, R516, R524): the bytes written read back,
every other byte of Hold reads as before, and Hold keeps its canonical form, whatever the write meets; where Hold serves, a
whole block that is mapped is always written, and its poison cleared, and a part of a block that is neither poisoned nor stored
with errors is written. -/
def Obligations.HoldAccesses : Prop :=
  (∀ (s : State) (a : Nat) (flaw : ReadFlaw) (who : Page) (ph : Nat), holdAddrOk a = true → flawOk flaw = true → pageOk who = true →
    phaseOk ph = true →
    let c := s.dev.atPhase ph
    let blk := a / 64 * 64
    let data := Memory.readN c.hold.cells blk 64
    Completes (.holdReadBlock a flaw who ph) s fun _ e =>
      let answers (er : Option HoldErr) (b : Bytes) : Prop := e.hold.cells = c.hold.cells ∧
        ∃ l m, e.out = l ++ .holdResponse er b :: (m ++ c.out) ∧ ∀ x ∈ l ++ m, ∀ r y, x ≠ .holdResponse r y
      (c.live hldPage = false ∨ c.flag Reg.hld_EN = false → answers (some .notReady) []) ∧
      (c.live hldPage = true → c.flag Reg.hld_EN = true → c.flag Reg.hld_INIT_DONE = true → c.get Reg.dev_DEV_STATE = 3 →
        answers (some .unmapped) []) ∧
      (c.holdServes → match c.holdPlace blk with
        | none => answers (some .unmapped) [] ∧ e.get Reg.hld_UNMAPPED = satAdd 32 (c.get Reg.hld_UNMAPPED) 1
        | some (ch, _) =>
          if ch ∈ c.hold.lost then answers (some .ctrlFault) []
          else if blk ∈ c.hold.poison then c.rowOfBlock blk = none → answers (some .poison) [] ∧
            e.get Reg.hld_POISON_READS = satAdd 32 (c.get Reg.hld_POISON_READS) 1 ∧
            (c.get Reg.hld_POISON_READS < 2 ^ 32 - 1 → e.pends hldPage 2 = true)
          else match c.decodeBlock ch (c.errsAt ch blk flaw) flaw.aliased with
            | .clean => answers none data ∧ e.get Reg.hld_CE_COUNT = c.get Reg.hld_CE_COUNT
            | .corrected => answers none data ∧ e.get Reg.hld_CE_COUNT = satAdd 32 (c.get Reg.hld_CE_COUNT) 1
            | .uncorrectable =>
              (c.rowOfBlock blk = none → answers (some .ue) [] ∧ blk ∈ e.hold.poison ∧ e.pends hldPage 0 = true ∧
                e.get Reg.hld_UE_COUNT = satAdd 32 (c.get Reg.hld_UE_COUNT) 1) ∧
              ∀ b, c.rowOfBlock blk = some b → blk ∉ c.hold.poisonLogged → c.follows = false → c.rowState b = stLive →
                e.rowState b = stQuarantine ∧ e.pends btcPage 2 = true
            | .miscorrected => ∃ b, b.length = 64 ∧ answers none b)) ∧
  (∀ (s : State) (a : Nat) (data : Bytes) (who : Page) (ph : Nat), holdAddrOk a = true → blockDataOk data = true → pageOk who = true →
    phaseOk ph = true →
    let c := s.dev.atPhase ph
    let blk := a / 64 * 64
    Completes (.holdWriteBlock a data who ph) s fun _ e =>
      (∀ x, x < a ∨ a + data.length ≤ x → Memory.read e.hold.cells x = Memory.read c.hold.cells x) ∧
      (Memory.wf c.hold.cells = true → Memory.wf e.hold.cells = true) ∧
      e.out.head? = some (.holdResponse (c.holdWrite a data who).2 []) ∧
      ((c.holdWrite a data who).2 = none → Memory.readN e.hold.cells a data.length = data) ∧
      ∀ ch loc, c.holdServes → c.holdPlace a = some (ch, loc) → ch ∉ c.hold.lost →
        (a % 64 = 0 → data.length = 64 → (c.holdWrite a data who).2 = none ∧ a ∉ e.hold.poison) ∧
        (a % 64 + data.length ≤ 64 → blk ∉ c.hold.poison → assoc? blk c.hold.bad = none → (c.holdWrite a data who).2 = none))

/-- What Hold does of itself (R517–R520): the refresh indication of a channel's dies sets its multiplier, HOT shows whether any is
the hottest, a channel that becomes it is reported; a channel is retrained at phase 500,000 of its slot, a success ends its run
of failures, a failure that is not a third in a row is counted and reported, and every third one in a row is a fault of its
controller; a scrub that corrects a block writes it back and counts it, one that finds a block uncorrectable poisons it; an idle
channel enters self-refresh. A channel that is not of the device, and a page without power, does nothing. HOLD_ENABLE and
injection (R513, R528): a disabled Hold is enabled only if its regions keep R513, and then maps by them, its bytes where they
stood if the regions are those it mapped by before; else REGION_BAD is set and the write logged. An injection is armed, and a
block poisoned, only while INJ_EN is 1: at 0 the command is ignored and logged; clearing INJ_EN disarms. A page without power
ignores each of them and logs it. -/
def Obligations.HoldUpkeep : Prop :=
  (∀ (s : State) (ch : Nat), channelOk ch = true →
    let here := s.dev.live hldPage = true ∧ ch < s.dev.channels
    (∀ ind, refreshIndOk ind = true → Completes (.refreshRateRead ch ind) s fun d e =>
      (¬here → e = d) ∧
      (here → onlyParts eventParts d e ∧ e.get Reg.hld_CH_REFRESH_MULT [ch] = ind ∧
        (∀ x, x < 64 → x ≠ ch → e.get Reg.hld_CH_REFRESH_MULT [x] = d.get Reg.hld_CH_REFRESH_MULT [x]) ∧
        e.get Reg.hld_HOT = bitOf (ind == 2 || (List.range d.channels).any fun x => x != ch && d.get Reg.hld_CH_REFRESH_MULT [x] == 2) ∧
        (ind = 2 → d.get Reg.hld_CH_REFRESH_MULT [ch] ≠ 2 → e.pends hldPage 7 = true))) ∧
    (∀ ok : Bool,
      let n := clampN 16 1000 (s.dev.get Reg.hld_RETRAIN_TIDES)
      let st := s.dev.get Reg.hld_CH_STATE [ch]
      let c := s.dev.atPhase 500000
      let k := s.dev.get Reg.hld_CH_RETRAIN_CONSEC [ch] + 1
      let u := c.executor ⟨ukHold, ch⟩
      Completes (.retrain ch ok) s fun d e =>
        (¬here → e = d) ∧ (here →
        if d.tide % n ≠ ch % n ∨ 500000 < d.phase ∨ (st ≠ 2 ∧ st ≠ 3) then e = d
        else if ok then e.get Reg.hld_CH_RETRAIN_CONSEC [ch] = 0 ∧ onlyParts [.regs] c e ∧
          onlyWords [Reg.hld_CH_RETRAIN_CONSEC.addrAt [ch]] c e
        else
          (k % 3 ≠ 0 → e.get Reg.hld_CH_RETRAIN_CONSEC [ch] = min k 65535 ∧ e.pends hldPage 8 = true ∧
            e.get Reg.hld_CH_RETRAIN_FAIL [ch] = satAdd 16 (c.get Reg.hld_CH_RETRAIN_FAIL [ch]) 1 ∧ onlyParts eventParts c e) ∧
          (k % 3 = 0 → c.fails ⟨ukHold, u.idx⟩ = true → (e.unit ⟨ukHold, u.idx⟩).fault = true))) ∧
    (∀ a flaw, holdAddrOk a = true → flawOk flaw = true → Completes (.patrolScrub a flaw) s fun d e =>
      let blk := a / 64 * 64
      if d.flag Reg.hld_SCRUB_EN = false ∨ d.holdPlace blk = none then e = d
      else d.holdServes → blk ∉ d.hold.poison → ∀ x loc, d.holdPlace blk = some (x, loc) → x ∉ d.hold.lost →
        match d.decodeBlock x (d.errsAt x blk flaw) flaw.aliased with
        | .corrected => e.get Reg.hld_SCRUB_CORR = satAdd 32 (d.get Reg.hld_SCRUB_CORR) 1 ∧ assoc? blk e.hold.bad = none ∧
          e.hold.cells = d.hold.cells
        | .uncorrectable => d.rowOfBlock blk = none → e.get Reg.hld_SCRUB_CORR = d.get Reg.hld_SCRUB_CORR ∧ blk ∈ e.hold.poison ∧
          e.pends hldPage 0 = true ∧ e.hold.cells = d.hold.cells
        | _ => e.get Reg.hld_SCRUB_CORR = d.get Reg.hld_SCRUB_CORR ∧ e.hold.cells = d.hold.cells) ∧
    ∀ ph, phaseOk ph = true → Completes (.selfRefreshEntry ch ph) s fun d e =>
      let c := d.atPhase ph
      let idle := ∀ t, assoc? ch c.hold.lastAccess = some t → t + 1000 * atLeast1 (c.get Reg.hld_SR_IDLE) ≤ c.ns
      let enters := here ∧ c.flag Reg.hld_AUTO_SR_EN = true ∧ c.get Reg.hld_CH_STATE [ch] = 2 ∧ c.ldg.adms = [] ∧ idle
      (enters → onlyParts [.regs] c e ∧ e.get Reg.hld_CH_STATE [ch] = 3 ∧
        e.get Reg.hld_CH_SR_ENTRIES [ch] = satAdd 32 (c.get Reg.hld_CH_SR_ENTRIES [ch]) 1) ∧ (¬enters → e = c)) ∧
  (∀ (s : State),
    let logged (d e : Dev) : Prop := e.hold = d.hold ∧ e.get Reg.hld_EN = d.get Reg.hld_EN ∧
      e.get Reg.hld_ARMED = d.get Reg.hld_ARMED ∧ e.hdr hldPage 0x030 7 0 = 7
    let runs (i : Instr) (post : Dev → Dev → Prop) : Prop := Completes i s fun d e =>
      if d.live hldPage = true then post d e else onlyParts eventParts d e ∧ logged d e
    (runs .holdEnable fun d e =>
      if d.flag Reg.hld_EN = true then e.get Reg.hld_EN = 1 ∧ e.hold.cells = d.hold.cells ∧ e.hold.map = d.hold.map
      else if d.regionsOk = true then e.get Reg.hld_EN = 1 ∧ e.get Reg.hld_REGION_BAD = 0 ∧ e.hold.map = d.regions ∧
        (d.hold.map = d.regions → e.hold.cells = d.hold.cells)
      else e.get Reg.hld_EN = 0 ∧ e.get Reg.hld_REGION_BAD = 1 ∧ e.pends hldPage 6 = true ∧ e.hdr hldPage 0x030 7 0 = 7 ∧
        e.hold.cells = d.hold.cells ∧ e.hold.map = d.hold.map) ∧
    (∀ ctl lo hi : Word,
      let blk := (lo.toNat + 2 ^ 32 * hi.toNat) / 64 * 64
      (runs (.injArm ctl lo hi) fun d e =>
        if d.flag Reg.hld_INJ_EN = false then logged d e
        else e.hold = { d.hold with injection := some ⟨Word.fld ctl 29 24, Word.fld ctl 19 16, Word.fld ctl 3 3 == 1,
          Word.fld ctl 2 2 == 1, Word.fld ctl 1 1 == 1, blk⟩ } ∧ e.get Reg.hld_ARMED = 1 ∧ onlyParts [.regs, .hold] d e) ∧
      (runs (.injPoison ctl lo hi) fun d e =>
        if d.flag Reg.hld_INJ_EN = false then logged d e
        else blk ∈ e.hold.poison ∧ (∀ x, x ≠ blk → (x ∈ e.hold.poison ↔ x ∈ d.hold.poison)) ∧ e.hold.cells = d.hold.cells ∧
          e.hold.injection = d.hold.injection ∧ onlyParts [.regs, .hold] d e)) ∧
    runs .injDisable fun d e =>
      e.get Reg.hld_INJ_EN = 0 ∧ e.get Reg.hld_ARMED = 0 ∧ e.hold = { d.hold with injection := none })

/-! ### The Mooring (chapter 17) -/

/-- A frame of the partner (R532, R534, R536, R541–R545, R551, R552): one that fails its checks is counted and does nothing else; a
heartbeat marks the path heard, and one a Tide and more away counts as skew; a standby in BULK or SYNCED holds the frames of a
delta; a row of a bulk copy is taken whole, its N never lowered, and a complete copy leaves the standby SYNCED; an active notes
the rows asked for, and begins a copy for a partner of the same wrapping keys. -/
def Obligations.MooringFrames : Prop :=
  ∀ (s : State) (h : MrgHead) (ph : Nat), mrgHeadOk h = true → phaseOk ph = true → s.dev.flag Reg.lfi_EN = false →
    let c := s.dev.atPhase ph
    let good := h.intact && h.magic == 0x4D52 && h.version == 1
    let g := c.hear h.claim
    let frames (rs : List MrgRecord) : List Instr := [.delta h rs ph, .deltaEnd h ph, .bulk h rs ph, .bulkEnd h ph, .rowReq h rs ph]
    (∀ rs, ∀ i ∈ frames rs,
      (c.mrgOn = false → Completes i s fun _ e => e = c) ∧
      (c.mrgOn = true → good = false → Completes i s fun _ e => onlyParts [.regs] c e ∧ onlyWords [Reg.mrg_FCS_ERR.addr] c e ∧
        e.get Reg.mrg_FCS_ERR = satAdd 32 (c.get Reg.mrg_FCS_ERR) 1)) ∧
    (c.mrgOn = true → good = true →
      (∀ b, mrgBeatOk b = true → Completes (.heartbeat h b ph) s fun _ e =>
        e.mrg.gotMrg = true ∧ e.mrg.partnerSync = b.sync ∧ e.get Reg.mrg_PARTNER_OK = bitOf b.ok ∧ h.claim ∈ e.mrg.heardNow ∧
          e.get Reg.mrg_CLAIM_PARTNER = (e.mrg.heardNow ++ e.mrg.heardPrev).foldl max 0 % 2 ^ 32 ∧
          if tidesApart (b.tideHi * 2 ^ 32 + h.tideLo) c.tide then
            e.get Reg.mrg_TIDE_SKEW = satAdd 32 (c.get Reg.mrg_TIDE_SKEW) 1 ∧ e.mrg.deltas = [] ∧
              (c.role = roleStandby → e.get Reg.mrg_SYNC = syncDesync)
          else e.get Reg.mrg_TIDE_SKEW = c.get Reg.mrg_TIDE_SKEW ∧ e.get Reg.mrg_SYNC = c.get Reg.mrg_SYNC) ∧
      (∀ rs, Completes (.delta h rs ph) s fun _ e =>
        if c.takesDeltas = false then e = g
        else onlyParts [.mrg] g e ∧ ∃ x, (e.mrg.deltas.find? (·.tideLo == h.tideLo)) = some x ∧ assoc? h.fseq x.frames = some rs) ∧
      (Completes (.deltaEnd h ph) s fun _ e =>
        if c.takesDeltas = false then e = g
        else onlyParts [.mrg] g e ∧ ∃ x, (e.mrg.deltas.find? (·.tideLo == h.tideLo)) = some x ∧ x.last = some h.count) ∧
      (∀ b ws an, ws.length = 64 → an.length = 32 → c.rowsWf → Completes (.bulk h [.lines b 63 ws an] ph) s fun _ e =>
        if c.role ≠ roleStandby ∨ (h.fseq ≠ 0 ∧ c.get Reg.mrg_SYNC ≠ syncBulk) then e = g
        else e.get Reg.mrg_SYNC = syncBulk ∧ e.row b = (c.row b).keepNext ⟨ws, an⟩ ∧ (∀ x, x ≠ b → e.row x = c.row x) ∧
          b ∈ e.mrg.got ∧ e.mrg.bulkGot = (if h.fseq = 0 then 1 else c.mrg.bulkGot + 1)) ∧
      (Completes (.bulkEnd h ph) s fun _ e =>
        if c.role ≠ roleStandby ∨ c.get Reg.mrg_SYNC ≠ syncBulk then e = g
        else if c.mrg.bulkGot = h.count then e.get Reg.mrg_SYNC = syncSynced ∧ e.pends mrgPage 6 = true ∧
          e.get Reg.mrg_CLAIM_OWN = min 0xFFFFFF (h.claim / 256 - 1) * 256 + c.get Reg.mrg_RANK
        else e.get Reg.mrg_SYNC = syncDesync ∧ e.pends mrgPage 5 = true) ∧
      (∀ rs, Completes (.rowReq h rs ph) s fun _ e =>
        if c.role ≠ roleActive then e = g
        else onlyParts [.mrg] g e ∧ ∀ b, b ∈ e.mrg.requested ↔ b ∈ c.mrg.requested ∨ (b ∈ rs.filterMap MrgRecord.berth ∧ b < c.rowCount)) ∧
      ∀ kcvs, kcvsOk kcvs = true → Completes (.joinReq h kcvs ph) s fun _ e =>
        if c.role ≠ roleActive ∨ c.mrg.bulk.isSome = true ∨ c.mrg.bulkTide = c.tide then e = g
        else if kcvs = (List.range 64).map (fun t => c.get Reg.bnd_WRAP_KCV [t]) then onlyParts [.mrg] g e ∧ e.mrg.bulkDue = true
        else e.pends mrgPage 7 = true ∧ onlyParts eventParts g e)

/-- The commands of MRG_OP, the link and the wire (R533, R536, R548, R551, R553): START_ACTIVE and JOIN need a RANK; FORCE_TAKEOVER
needs a standby and a FORCE_SKIP that covers its age, and makes it the active; LEAVE makes the role SOLO; a heartbeat on the
wire counts only with its start bit, its stop bit and its CRC-8. TAKEOVER (R535, R546, R549, R550): a SYNCED standby that heard
nothing on either path for the Tide in progress and the one before becomes ACTIVE with an EPOCH above its partner's; N of every
row with a PROFILE goes up by SKIP, no receiver has a current stream, the spill queues are empty; otherwise nothing happens.
Said of a standby that holds no delta and whose rows have indices left. -/
def Obligations.Takeover : Prop :=
  (∀ (s : State), s.dev.live mrgPage = true →
    let done (e : Dev) : Prop := e.get Reg.mrg_STATUS = Status.done.code
    let refused (st : Status) (d e : Dev) : Prop := onlyParts [.regs] d e ∧ onlyWords [Reg.mrg_STATUS.addr] d e ∧
      e.get Reg.mrg_STATUS = st.code
    let claim (n : Nat) (d e : Dev) : Prop := e.get Reg.mrg_CLAIM_OWN = n * 256 + d.get Reg.mrg_RANK
    (s.dev.flag Reg.mrg_EN = false → ∀ i ∈ [Instr.startActive, .join, .forceTakeover, .leave],
      Completes i s (refused .refusedNoUnit)) ∧
    (s.dev.flag Reg.mrg_EN = true →
      (Completes .startActive s fun d e =>
        if d.get Reg.mrg_RANK = 0 ∨ d.role = roleFenced then refused .refusedParam d e
        else done e ∧ onlyParts [.regs] d e ∧ e.role = roleActive ∧ e.get Reg.mrg_SYNC = syncNone ∧ claim 1 d e) ∧
      (Completes .join s fun d e =>
        if d.get Reg.mrg_RANK = 0 then refused .refusedParam d e
        else done e ∧ e.role = roleStandby ∧ e.get Reg.mrg_SYNC = syncNone ∧ claim 0 d e ∧ e.mrg.joining = true ∧
          (d.flag Reg.mrg_LINK_UP = true → d.flag Reg.lfi_EN = false → ∃ f, e.mrg.sent = f :: d.mrg.sent ∧
            f.body = .joinReq ((List.range 64).map fun t => d.get Reg.bnd_WRAP_KCV [t]) ∧ f.head.tideLo = d.tide % 2 ^ 32)) ∧
      (Completes .forceTakeover s fun d e =>
        let k := d.get Reg.mrg_FORCE_SKIP
        if d.role ≠ roleStandby ∨ k ∉ [4096, 8192, 16384] ∨ k ≤ (d.get Reg.mrg_SYNC_AGE + 4) * d.skip / 8 then refused .refusedParam d e
        else done e ∧ e.role = roleActive ∧ e.get Reg.mrg_SYNC = syncNone ∧ e.pends mrgPage 0 = true ∧
          (d.mrg.deltas = [] → e.get Reg.mrg_TAKEOVERS = satAdd 16 (d.get Reg.mrg_TAKEOVERS) 1)) ∧
      (Completes .leave s fun d e =>
        done e ∧ onlyParts [.regs, .mrg] d e ∧ e.role = roleSolo ∧ e.get Reg.mrg_SYNC = syncNone ∧ e.mrg.deltas = [] ∧
          e.mrg.notes = [])) ∧
    (∀ up : Bool, Completes (.mrgLinkChange up) s fun d e =>
      if d.flag Reg.mrg_LINK_UP = up ∨ (up = true ∧ d.clkOk 1 = false) then e = d
      else onlyParts eventParts d e ∧ e.flag Reg.mrg_LINK_UP = up ∧ e.pends mrgPage 10 = true) ∧
    ∀ (w : BitVec 54) (ph : Nat), phaseOk ph = true → Completes (.hbWireRx w ph) s fun d e =>
      let n := w.toNat
      let content := bits n 52 9
      if d.flag Reg.mrg_EN = false ∨ w ≠ BitVec.ofNat 54 (hbFrame content) then e = d.atPhase ph
      else e.mrg.gotWire = true ∧ bits n 52 21 ∈ e.mrg.heardNow ∧ e.get Reg.mrg_PARTNER_OK = bits n 9 9) ∧
  (∀ (s : State), s.dev.rowsWf → s.dev.mrg.deltas = [] → (∀ b, (s.dev.row b).next + 4096 < 2 ^ 48) →
    Completes .takeover s fun d e =>
      if d.takeoverDue = false then e = d
      else
        d.role = roleStandby ∧ d.get Reg.mrg_SYNC = syncSynced ∧ d.mrg.gotMrg = false ∧ d.mrg.gotWire = false ∧
          e.role = roleActive ∧ e.get Reg.mrg_SYNC = syncNone ∧ e.tide = d.tide ∧ e.pends mrgPage 0 = true ∧
          e.get Reg.mrg_TAKEOVERS = satAdd 16 (d.get Reg.mrg_TAKEOVERS) 1 ∧
          e.get Reg.mrg_CLAIM_OWN = min 0xFFFFFF (d.mrg.partnerEpoch + 1) * 256 + d.get Reg.mrg_RANK ∧
          (∀ b, (e.row b).next = if d.rowGet b RowF.PROFILE = 0 then (d.row b).next else (d.row b).next + d.skip) ∧
          (∀ b, e.rowState b = d.rowState b) ∧ (∀ b x, e.rec? b = some x → x.curValid = false) ∧
          ∀ q ∈ e.wfg.queues, q.lanes = List.replicate 8 [])

/-! ### The Slipway, gauges, fault injection (chapter 18) -/

/-- AUDIT_SLICE and AUDIT_LATE (R559, R562, R564): a slice that passes is done; one that differs is run once more; if it passes then
it is counted as flaky, and if it differs again the unit reports FAULT, or RETIRED if it was to return; an audit that is late
counts once. -/
def Obligations.Audits : Prop :=
  ∀ (s : State) (kind index signature : Nat), kindOk kind = true → unitIndexOk index = true → tideOk signature = true →
    s.dev.live slwPage = true →
    let u : UnitId := ⟨kind, index⟩
    let x := s.dev.unit u
    (∀ ok : Bool,
      (s.dev.slw.audits.find? (·.unit == u) = none → Completes (.auditSlice kind index ok signature) s fun d e => e = d) ∧
      ∀ a, s.dev.slw.audits.find? (·.unit == u) = some a → Completes (.auditSlice kind index ok signature) s fun d e =>
        let now (b : Audit) : Prop := e.slw.audits.find? (·.unit == u) = some b
        if a.entered = false ∨ a.sliced = true ∨ slicesOf kind ≤ a.slice then e = d
        else if ok then
          now { a with slice := a.slice + 1, retry := false, sliced := true } ∧
            if a.retry then e.get Reg.slw_AUDIT_FLAKY = satAdd 32 (d.get Reg.slw_AUDIT_FLAKY) 1 ∧ e.pends slwPage 7 = true
            else onlyParts [.slw] d e
        else if a.retry then
          (∀ b ∈ e.slw.audits, b.unit ≠ u) ∧ e.get Reg.slw_AUDIT_FAIL = satAdd 32 (d.get Reg.slw_AUDIT_FAIL) 1 ∧
            e.pends slwPage 0 = true ∧ e.get Reg.slw_KIND_LAST_RESULT [kind] = 1 ∧
            (e.unit u).audit = false ∧ (if x.untested then (e.unit u).retired = true else (e.unit u).fault = true)
        else now { a with retry := true, sliced := true } ∧ onlyParts [.slw] d e) ∧
    Completes (.auditLate kind index) s fun d e =>
      let last := (d.slw.lastAudit.find? (·.1 == u)).map (·.2)
      if u ∉ d.slw.lateCounted ∧ last.any (fun t => decide (t + clampN 100 60000 (d.get Reg.slw_AUDIT_PERIOD) < d.tide)) = true then
        e.get Reg.slw_AUDIT_LATE = satAdd 32 (d.get Reg.slw_AUDIT_LATE) 1 ∧ e.pends slwPage 2 = true ∧ u ∈ e.slw.lateCounted
      else e = d

/-- The faults of units (R81, R214, R248, R277, R305, R319, R320, R396, R526, R565): a fault of a unit that is present, powered and
whole makes it FAULT, raises the fault event of its page (of a PCS lane set and a Hold controller none is stated here) and
counts the frames lost with a pipeline or lane; of any other unit it does nothing. Where nothing is audited and one spare is
free, that spare takes the calendar of a unit that carries its own, the swift kinds at once, engines, cores and the Abacus lanes
at the next boundary, and SPARE_LOW is raised. A core's operations are gone from it. -/
def Obligations.UnitFaults : Prop :=
  ∀ (s : State) (i lost : Nat) (sha : Bool) (mixes : List Nat), unitIndexOk i = true → mixesOk mixes = true →
    let whole (u : UnitId) (d : Dev) : Prop := d.fails u = true
    let fails (u : UnitId) (d e : Dev) : Prop := (e.unit u).fault = true ∧
      ∀ k, d.unit u = {} → u.idx < d.serviceCount u.kind → d.slw.audits = [] → d.live slwPage = true → d.freeSpares u = [k] → k ≠ u.idx →
        (e.unit ⟨u.kind, k⟩).carries = some u.idx ∧ e.pends slwPage 3 = true ∧
          if swiftKind u.kind then (e.unit u).carrier = some k else (e.unit u).next = some k
    let rows : List (Instr × UnitId × Option (RegField × List Nat) × Option Nat) :=
      [(.bwrPipeFault i lost, ⟨8, i⟩, some (Reg.bwr_REASON_COUNT, [0x1B]), some 0),
       (.bndPipeFault sha i lost, ⟨if sha then 0xC else 7, i⟩, some (Reg.bnd_PIPE_FAULT_DROP, []), some 0),
       (.fryLaneFault i lost, ⟨9, i⟩, some (Reg.fry_PIPE_FAULT_DROP, []), some 0),
       (.tlyLaneFault i lost, ⟨0xA, i⟩, some (Reg.tly_PIPE_FAULT_DROP, []), some 0),
       (.abxMacFault i mixes, ⟨4, i⟩, none, some 0), (.abxDressFault i, ⟨0xD, i⟩, none, some 0),
       (.ctrlFault i, ⟨0xE, i⟩, none, none), (.qayPcsFault i, ⟨0xB, i⟩, none, none),
       (.engineFault 0 i, ⟨0, i⟩, none, some 0), (.engineFault 1 i, ⟨1, i⟩, none, some 0), (.engineFault 2 i, ⟨2, i⟩, none, some 0),
       (.engineFault 3 i, ⟨3, i⟩, none, some 0)]
    (∀ r ∈ rows,
      (¬ whole r.2.1 s.dev → Completes r.1 s fun d e => e = d) ∧
      (whole r.2.1 s.dev → Completes r.1 s fun d e =>
        fails r.2.1 d e ∧ (∀ f ix, r.2.2.1 = some (f, ix) → e.get f ix = satAdd 32 (d.get f ix) lost) ∧
          ∀ bit, r.2.2.2 = some bit → e.pends r.2.1.page bit = true)) ∧
    (coreOk i = true →
      (¬ whole ⟨5, i⟩ s.dev → Completes (.coreFault i) s fun d e => e = d) ∧
      (whole ⟨5, i⟩ s.dev → Completes (.coreFault i) s fun d e =>
        fails ⟨5, i⟩ d e ∧ e.pends (UnitId.mk 5 i).page 4 = true ∧ (e.core i).ops = []))

/-- The Slipway's commands (R566, R568, R577): RETIRE marks a unit and keeps a record of it; AUDIT_NOW puts it at the head of its
kind's order; a fuse command without FSOURCE, without room or for a word already written is refused, and runs otherwise;
FUSE_READ_USER reads a provider word. FUSE_DONE (R567, R568): the words of the fuse command are in the fuses after those in use,
as they were given but for those that read back wrong, whose parity fails if they are records; the wrong ones are counted, the
command answers DONE, and its end is raised. -/
def Obligations.RetirementAndFuses : Prop :=
  (∀ (s : State), s.dev.live slwPage = true → s.dev.flag Reg.slw_CMD_BUSY = false →
    let answers (st : Status) (e : Dev) : Prop :=
      e.get Reg.slw_CMD_STATUS = st.code ∧ e.get Reg.slw_CMD_VALID = 1 ∧ e.get Reg.slw_CMD_BUSY = 0
    let burns (i : Instr) (op word : Nat) (ws : List Word) (fsource full : Bool) : Prop := Completes i s fun d e =>
      onlyParts [.regs, .slw] d e ∧ e.get Reg.slw_FSOURCE_OK = bitOf fsource ∧
        if fsource = false ∨ full = true then answers .refusedParam e ∧ e.slw = d.slw
        else e.slw = { d.slw with fuseCmd := some ⟨op, word, ws⟩ } ∧ e.get Reg.slw_FUSE_BUSY = 1 ∧ e.get Reg.slw_CMD_BUSY = 1 ∧
          e.get Reg.slw_CMD_VALID = 0
    (∀ kind index, kindOk kind = true → unitIndexOk index = true →
      let u : UnitId := ⟨kind, index⟩
      (Completes (.retire kind index) s fun d e =>
        if d.unitExists u = false then answers .refusedNoUnit e ∧ onlyParts [.regs] d e
        else answers .done e ∧ (e.unit u).mgmtRetired = true ∧ fuseRecord 4 kind index 0 ∈ e.slw.retirements ∧
          (∀ a ∈ e.slw.audits, a.unit ≠ u) ∧ (∀ r ∈ d.slw.retirements, r ∈ e.slw.retirements)) ∧
      (Completes (.auditNow kind index) s fun d e =>
        if d.unitExists u = false then answers .refusedNoUnit e ∧ onlyParts [.regs] d e
        else if fieldKind kind = false then answers .refusedParam e ∧ onlyParts [.regs] d e
        else answers .done e ∧ onlyParts [.regs, .slw] d e ∧
          e.slw = { d.slw with first := u :: d.slw.first.filter (· != u) })) ∧
    (∀ fsource : Bool,
      burns (.fuseBurnRepairs fsource) 3 0 s.dev.slw.soft fsource (decide (128 < s.fuse.repairs.length + s.dev.slw.soft.length)) ∧
      burns (.fuseBurnRetire fsource) 4 0 s.dev.slw.retirements fsource
        (decide (32 < s.fuse.retires.length + s.dev.slw.retirements.length)) ∧
      ∀ word data, fuseWordOk word = true →
        burns (.fuseWriteUser word data fsource) 5 word [data] fsource (assoc? word s.fuse.user).isSome) ∧
    ∀ word, fuseWordOk word = true → Completes (.fuseReadUser word) s fun d e =>
      answers .done e ∧ onlyParts [.regs] d e ∧ e.get Reg.slw_CMD_DATA = ((assoc? word s.fuse.user).getD 0).toNat) ∧
  (∀ (s : State) (wrong : List Nat), fuseWordsOk wrong = true →
    ∃ t, exec (.fuseDone wrong) s = .next t ∧ t.pending = s.pending ∧
      (s.dev.slw.fuseCmd = none → t = s) ∧
      ∀ c, s.dev.slw.fuseCmd = some c →
        t.dev.slw.fuseCmd = none ∧ t.dev.get Reg.slw_FUSE_BUSY = 0 ∧ t.dev.get Reg.slw_CMD_BUSY = 0 ∧
        t.dev.get Reg.slw_CMD_STATUS = Status.done.code ∧ t.dev.pends slwPage 5 = true ∧
        (let n := ((List.range c.words.length).filter wrong.contains).length
         t.dev.get Reg.slw_FUSE_VERIFY_FAIL = satAdd 32 (s.dev.get Reg.slw_FUSE_VERIFY_FAIL) n ∧
           (0 < n → t.dev.pends slwPage 6 = true)) ∧
        ∃ ws : List Word, t.fuse = s.fuse.burn c.op c.word ws ∧ ws.length = c.words.length ∧
          ∀ i, i < ws.length →
            if i ∈ wrong then c.op ≠ 5 → recordOk (wordAt ws i) = false else wordAt ws i = wordAt c.words i)

/-- The gauges (R569–R571, R579): of a gauge in service a sample moves MIN, MAX, COUNT, UNDER, OVER and its bin, one more in the
same cycle counts as dropped, and a queue's or a level's gauge takes one in a Tide (stated for a SAMPLE_LOG2 of 0); CAPTURE
reads a set out; CLEAR empties the live set; a write of EN as 1 empties the gauge, and no other write to an enabled gauge is
taken. The Link Fault Injector (R573, R574, R576, R580): a seed goes to every rule, 0 acting as 1; the frame held longest at a
point and port goes on once it has been held for 100 µs, and HOLD_TIMEOUT is raised. -/
def Obligations.GaugesAndInjection : Prop :=
  (∀ (s : State) (g : Nat), byteOk g = true → s.dev.live tggPage = true →
    let others (d e : Dev) : Prop := ∀ y, y ≠ g → e.gauge y = d.gauge y
    (∀ snap : Bool, Completes (.capture g snap) s fun d e =>
      let x := if snap then (d.gauge g).snap else (d.gauge g).live
      onlyParts [.regs] d e ∧ e.get Reg.tgg_SEL = g ∧ e.get Reg.tgg_RO_COUNT = x.count % 2 ^ 32 ∧
        (x.range = none → e.get Reg.tgg_RO_MIN = 0x7FFFFFFF ∧ e.get Reg.tgg_RO_MAX = 0x80000000) ∧
        (∀ a b, x.range = some (a, b) → e.get Reg.tgg_RO_MIN = (a % 2 ^ 32).toNat ∧ e.get Reg.tgg_RO_MAX = (b % 2 ^ 32).toNat) ∧
        e.get Reg.tgg_RO_UNDER = x.under % 2 ^ 32 ∧ e.get Reg.tgg_RO_OVER = x.excess % 2 ^ 32 ∧
        e.get Reg.tgg_RO_DROPPED = x.dropped % 2 ^ 32 ∧
        ∀ b, b < 32 → e.get Reg.tgg_RO_BIN [b] = ((assoc? b x.bins).getD 0) % 2 ^ 32) ∧
    (Completes (.gaugeClear g) s fun d e =>
      onlyParts [.regs, .tgg] d e ∧ others d e ∧ e.gauge g = { d.gauge g with live := {} }) ∧
    (∀ w : Word, Completes (.gaugeEnable g w) s fun d e =>
      if d.flag Reg.tgg_G_EN [g] = true then
        if Word.fld w 31 31 = 0 then onlyParts [.regs] d e ∧ e.get Reg.tgg_G_EN [g] = 0
        else onlyParts eventParts d e ∧ e.get Reg.tgg_G_EN [g] = 1
      else onlyParts [.regs, .tgg] d e ∧ others d e ∧ e.get Reg.tgg_G_EN [g] = Word.fld w 31 31 ∧
        e.get Reg.tgg_G_SOURCE [g] = Word.fld w 23 16 ∧ e.get Reg.tgg_G_INDEX [g] = Word.fld w 15 0 ∧
        (Word.fld w 31 31 = 1 → e.gauge g = {})) ∧
    ∀ (value : Word) (again : Bool), Completes (.gaugeSample g value again) s fun d e =>
      let x := d.gauge g
      let src := d.get Reg.tgg_G_SOURCE [g]
      let v := value.toInt - toSigned 32 (d.get Reg.tgg_G_BASE [g])
      let log := d.flag Reg.tgg_G_LOG_BINS [g]
      let k := if v ≤ 0 then 0 else if log then 1 + Nat.log2 v.toNat else v.toNat / max 1 (d.get Reg.tgg_G_WIDTH [g])
      if d.flag Reg.tgg_EN = false ∨ d.flag Reg.tgg_G_EN [g] = false then e = d
      else
        (src ∈ [3, 4, 6] → x.last = some d.tide → e = d) ∧ (src ∉ [1, 2, 3, 4, 5, 6] → e = d) ∧
        (src ∈ [1, 2, 5] → d.get Reg.tgg_G_SAMPLE_LOG2 [g] = 0 →
          onlyParts [.regs, .tgg, .gwy, .out] d e ∧ others d e ∧
          (again = true → (e.gauge g).live = { x.live with dropped := satAdd 32 x.live.dropped 1 } ∧
            (x.live.dropped < 2 ^ 32 - 1 → e.pends tggPage 1 = true)) ∧
          (again = false →
            let y := (e.gauge g).live
            y.count = satAdd 32 x.live.count 1 ∧
            y.range = some (match x.live.range with
              | none => (value.toInt, value.toInt)
              | some (a, b) => (min a value.toInt, max b value.toInt)) ∧
            y.under = satAdd 32 x.live.under (bitOf (decide (v < 0))) ∧
            y.excess = satAdd 32 x.live.excess (bitOf (decide (31 < k))) ∧
            (∀ b, b ≠ min 31 k → (assoc? b y.bins).getD 0 = (assoc? b x.live.bins).getD 0) ∧
            (assoc? (min 31 k) y.bins).getD 0 = satAdd 32 ((assoc? (min 31 k) x.live.bins).getD 0) 1))) ∧
  (∀ (s : State),
    (∀ w : Word, s.dev.live lfiPage = true → Completes (.lfsrSeedWrite w) s fun d e =>
      onlyParts [.lfi] d e ∧ e.lfi.held = d.lfi.held ∧
        ∀ r, r < 16 → (assoc? r e.lfi.lfsr).getD 1 = if w = 0 then 1 else w) ∧
    ∀ point l ph, lfiPointOk point = true → lportOk l = true → phaseOk ph = true →
      let c := s.dev.atPhase ph
      Completes (.lfiHoldTimeout point l ph) s fun _ e =>
        match c.lfi.held.find? fun h => h.point == point && h.lport == l with
        | none => e = c
        | some h =>
          if c.ns < h.since + 100000 then e = c
          else ∃ b, b.lfi.held = c.lfi.held.erase h ∧ b.pends lfiPage 1 = true ∧ onlyParts (.lfi :: eventParts) c b ∧
            e = if point < 4 then b.rxRelease h.frame else if point < 8 then b.txRelease l 0 h.frame
              else if point = 8 then b.mrgTakeHeld h.frame else b.mrgRelease h.frame)

/-! ### The Gangway and the registers (chapters 1 and 19) -/

/-- The commands of a page's header (R3, R13, R14, R54, R55, R583, R591, R592): an absent unit's page ignores them, one without
power logs them too. APPLY_ARM sets the apply Tide and makes the page PENDING, its pending values kept; a cancel discards them
and makes it IDLE, but in the boundary cycle at which they took effect it does nothing (phase 0 stands for that cycle, log entry
125); after SOFT_RESET no fault of the page's units has ended but each is to (R119); a write to EVT_PEND clears the bits written
as 1 and EVT_FORCE latches them, on a VF's page only while the VF has a tenant (R587). Registers (R3, R9–R12, R188, R583): a
write without all its byte enables is ignored and logged on the Gangway's page; a write of a _LO word waits for its _HI word and
takes effect with it; a register takes the bits of its fields, a read-only one keeps its value, and a write where no page lies
does nothing; a read of TIDE_LO captures TIDE_HI, which the next read returns. CNT_CLEAR touches no register but those of its
page, of a Quay's port block those of that port, and in these each counter reads 0 then or its register stands at its reset
value, as it did. -/
def Obligations.PagesAndRegisters : Prop :=
  (∀ (s : State) (p : Page),
    let runs (i : Instr) (post : Dev → Dev → Prop) : Prop := Completes i s fun d e =>
      if d.live p = true then post d e
      else if d.present p = true then onlyParts eventParts d e ∧ (p.kind ≠ .vf → e.hdr p 0x030 7 0 = 7) else e = d
    (pfPageOk p = true →
      (∀ t, tideOk t = true → runs (.applyArm p t) fun d e =>
        onlyParts [.regs] d e ∧ onlyWords [pageBase p + 0x020, pageBase p + 0x024, pageBase p + 0x028] d e ∧
          e.applyTide p = t ∧ e.hdr p 0x028 18 16 = 1) ∧
      (runs (.applyCancel p) fun d e =>
        if d.phase = 0 ∧ pageBase p ∈ d.applied then e = d
        else onlyParts [.regs, .staged] d e ∧ (∀ x, x ∈ e.staged ↔ x ∈ d.staged ∧ x.page ≠ pageBase p) ∧ e.hdr p 0x028 18 16 = 0 ∧
          onlyWords [pageBase p + 0x028] d e) ∧
      runs (.softReset p) fun d e =>
        (∀ u, (e.unit u).fault = (d.unit u).fault) ∧
          ∀ u, u.page = p → (d.unit u).fault = true → (e.unit u).softReset = true) ∧
    (pageOk p = true → ∀ mask : Word,
      (p.kind ≠ .vf →
        (runs (.evtPendClear p mask) fun d e =>
          onlyParts [.regs] d e ∧ onlyWords [evtPend p] d e ∧ e.word (evtPend p) = d.word (evtPend p) &&& ~~~mask) ∧
        runs (.evtForce p mask) fun d e =>
          onlyParts eventParts d e ∧ onlyWords [evtPend p] d e ∧ e.word (evtPend p) = d.word (evtPend p) ||| mask) ∧
      (p.kind = .vf →
        let ignored (d e : Dev) : Prop := onlyParts [.regs] d e ∧ onlyWords [Reg.gwy_VF_IGNORED.addr] d e ∧
          e.get Reg.gwy_VF_IGNORED = satAdd 32 (d.get Reg.gwy_VF_IGNORED) 1
        let pend (d : Dev) : Nat := d.get Reg.vf_EVT_PEND [p.idx - 1]
        (runs (.evtPendClear p mask) fun d e =>
          if d.vfTenant p.idx = 0 then ignored d e
          else onlyParts [.regs] d e ∧ pend e = pend d &&& (~~~mask).toNat) ∧
        runs (.evtForce p mask) fun d e =>
          if d.vfTenant p.idx = 0 then ignored d e
          else onlyParts eventParts d e ∧ pend e = pend d ||| mask.toNat))) ∧
  (∀ (s : State) (a ph : Nat), busAddrOk a = true → phaseOk ph = true → a % 4 = 0 →
    let c := s.dev.atPhase ph
    (∀ (w : Word) (be : Nat), be < 15 → Completes (.registerWrite a w be ph) s fun _ e =>
      onlyParts eventParts c e ∧ e.hdr gwyPage 0x030 7 0 = 7) ∧
    (∀ w : Word, isLo a = true → Completes (.registerWrite a w 15 ph) s fun _ e =>
      onlyParts [.lo] c e ∧ (a, w) ∈ e.loHeld ∧ ∀ x ∈ e.loHeld, x.1 = a → x.2 = w) ∧
    (∀ lo w : Word, c.live tkpPage = true → c.loHeld = [(Reg.tkp_NEW_TIDE_LO.addr, lo)] →
      Completes (.registerWrite Reg.tkp_NEW_TIDE_HI.addr w 15 ph) s fun _ e =>
        e.get Reg.tkp_NEW_TIDE_LO = lo.toNat ∧ e.get Reg.tkp_NEW_TIDE_HI = w.toNat ∧ e.loHeld = [] ∧ onlyParts [.regs, .lo] c e) ∧
    (∀ w : Word, c.loHeld = [] →
      (c.live slwPage = true →
        (Completes (.registerWrite Reg.slw_AUDIT_PERIOD.addr w 15 ph) s fun _ e =>
          onlyParts [.regs] c e ∧ onlyWords [Reg.slw_AUDIT_PERIOD.addr] c e ∧ e.get Reg.slw_AUDIT_PERIOD = Word.fld w 15 0) ∧
        Completes (.registerWrite Reg.slw_AUDITS_DONE.addr w 15 ph) s fun _ e => e.word Reg.slw_AUDITS_DONE.addr = c.word Reg.slw_AUDITS_DONE.addr) ∧
      (a < 0x10000000 → c.aperture a = none → pageAt a = none → Completes (.registerWrite a w 15 ph) s fun _ e => e = c)) ∧
    (a < 0x10000000 → c.aperture a = none → pageAt a = none → c.hiCaptured = [] → Completes (.loRead a ph) s fun _ e =>
      e = c.emit (.completion [0, 0, 0, 0] false)) ∧
    (c.live tkpPage = true → c.hiCaptured = [] →
      (Completes (.loRead Reg.tkp_TIDE_LO.addr ph) s fun _ e =>
        e.out.head? = some (.completion (leBytes 4 c.tide) false) ∧ (Reg.tkp_TIDE_HI.addr, BitVec.ofNat 32 (c.tide / 2 ^ 32)) ∈ e.hiCaptured)) ∧
    (∀ w : Word, c.hiCaptured = [(Reg.tkp_TIDE_HI.addr, w)] → Completes (.loRead Reg.tkp_TIDE_HI.addr ph) s fun _ e =>
      e.out.head? = some (.completion (bytesOfWords [w]) false) ∧ e.hiCaptured = []) ∧
    (cntClearOk a = true → (∀ x ∈ s.dev.loHeld, x.1 + 4 ≠ a) → ∀ p, pageAt a = some p →
      let mine (x : Nat) : Prop := if p.kind = .qay then a - 0xFC ≤ x ∧ x < a else pageAt x = some p
      Completes (.cntClear a) s fun d e =>
        (d.present p = false → e = d) ∧
        (d.present p = true → d.live p = false → onlyParts eventParts d e ∧ e.hdr p 0x030 7 0 = 7) ∧
        (d.live p = true → onlyParts [.regs] d e ∧ (∀ x, ¬mine x → e.word x = d.word x) ∧
          ∀ x f, mine x → f ∈ fieldsAt x → f.acc = .ctr →
            Word.fld (e.word x) f.hi f.lo = 0 ∨ (e.word x = resetWord x ∧ d.word x = resetWord x))))

/-- Vectors (R594, R602): a rearm arms a vector that is disarmed; one still asserted sends its message at once, or once VEC_HOLDOFF
has passed, or pends while it is masked; an unmask sends what pends if the vector is still asserted. -/
def Obligations.Vectors : Prop :=
  ∀ (s : State) (ph : Nat), phaseOk ph = true → s.dev.live gwyPage = true →
    let c := s.dev.atPhase ph
    let sent (f : Fn) (v : Nat) (d e : Dev) : Prop := (f, v) ∈ e.gwy.disarmed ∧
      e.out = .msix f v (d.msixWord (msixEntry f v) + 2 ^ 32 * d.msixWord (msixEntry f v + 4)) (d.msixWord (msixEntry f v + 8)) :: d.out
    let fires (f : Fn) (v : Nat) (d e : Dev) : Prop :=
      if d.asserted f v = false then (f, v) ∉ e.gwy.disarmed ∧ e.out = d.out
      else if (f, v) ∈ d.gwy.unmasked then sent f v d e
      else (f, v) ∉ e.gwy.disarmed ∧ (f, v) ∈ e.gwy.pendingBits ∧ e.out = d.out
    let rearms (i : Instr) (f : Fn) (v : Nat) : Prop := Completes i s fun _ e =>
      onlyParts [.gwy, .out] c e ∧
        if (f, v) ∉ c.gwy.disarmed then e = c
        else if c.asserted f v = false ∨ c.vecDue f v = true then fires f v c e
        else (f, v) ∈ e.gwy.disarmed ∧ (f, v) ∈ e.gwy.rearmWait ∧ e.out = c.out
    (∀ v, vectorOk v = true → rearms (.vecRearm v ph) .pf v) ∧
    (∀ n v, vfOk n = true → entry5Ok v = true →
      if c.vfTenant n = 0 then Completes (.vfRearm n v ph) s fun _ e => e = c else rearms (.vfRearm n v ph) (.vf n) v) ∧
    (∀ (f : Fn) (v : Nat), fnOk f = true → vectorOk v = true →
      (Completes (.vecHoldoffEnd f v ph) s fun _ e =>
        if (f, v) ∉ c.gwy.rearmWait ∨ c.vecDue f v = false then e = c
        else onlyParts [.gwy, .out] c e ∧ (f, v) ∉ e.gwy.rearmWait ∧ fires f v c e) ∧
      Completes (.msixUnmask f v) s fun d e =>
        onlyParts [.gwy, .out] d e ∧
          if vectorsOf f ≤ v ∨ (f, v) ∈ d.gwy.unmasked then e = d
          else (f, v) ∈ e.gwy.unmasked ∧ (f, v) ∉ e.gwy.pendingBits ∧
            if (f, v) ∈ d.gwy.pendingBits ∧ d.asserted f v = true ∧ (f, v) ∉ d.gwy.disarmed then sent f v d e else e.out = d.out)

/-- Functions and the link (R587, R590, R596, R600, R601): VF_TENANT is not written while the VF has a host ring; an FLR of a VF
disables its rings, cancels its operation not started where the Wharfinger holds no other, clears its event page and masks its
vectors, and leaves rows, admissions and keys; a PF FLR disables the rings of all, clears their event enables and masks their
vectors; a host ring is enabled only on a host-bound queue of its owner's tenant; a change of the link is raised. -/
def Obligations.Functions : Prop :=
  ∀ (s : State),
    let flrOf (f : Fn) (d e : Dev) : Prop := e.btc = d.btc ∧ e.ldg = d.ldg ∧ e.bnd = d.bnd ∧
      (∀ x ∈ e.gwy.unmasked, x.1 ≠ f) ∧ ∀ r, r < 64 → d.ringOwner r = f → e.get Reg.gwy_RING_EN [r] = 0
    (∀ v, vfOk v = true →
      (∀ w : Word, s.dev.live gwyPage = true → Completes (.vfTenantWrite v w) s fun d e =>
        if (∃ r, r < 64 ∧ d.flag Reg.gwy_RING_EN [r] = true ∧ d.get Reg.gwy_RING_OWNER [r] = v) then
          onlyParts eventParts d e ∧ e.vfTenant v = d.vfTenant v
        else onlyParts [.regs] d e ∧ onlyWords [Reg.gwy_VF_TENANT.addrAt [v - 1]] d e ∧ e.vfTenant v = Word.fld w 5 0) ∧
      Completes (.vfFlr v) s fun d e =>
        flrOf (.vf v) d e ∧ e.get Reg.vf_EVT_PEND [v - 1] = 0 ∧ e.get Reg.vf_EVT_EN [v - 1] = 0 ∧
          ∀ x i, d.wfg.slots = [x] → x.admitted = false → x.detached = false → x.vf = some v → x.inst = some i → i.state = .ready →
            e.pends wfgPage 4 = true ∧ ∀ y ∈ e.wfg.slots, y.inst = none) ∧
    (Completes .pfFlr s fun d e =>
      flrOf .pf d e ∧ ∀ v, 1 ≤ v → v ≤ 64 → flrOf (.vf v) d e ∧ e.get Reg.vf_EVT_EN [v - 1] = 0) ∧
    (∀ r (w : Word), ringOk r = true → s.dev.live gwyPage = true → Completes (.hostRingEnable r w) s fun d e =>
      let q := Word.fld w 11 0
      let o := Word.fld w 22 16
      let t := if o = 0 then 0 else d.vfTenant o
      if d.flag Reg.gwy_RING_EN [r] = true then
        onlyParts eventParts d e ∧ e.get Reg.gwy_RING_EN [r] = Word.fld w 31 31 ∧
          e.get Reg.gwy_RING_QUEUE [r] = d.get Reg.gwy_RING_QUEUE [r] ∧ e.get Reg.gwy_RING_OWNER [r] = d.get Reg.gwy_RING_OWNER [r]
      else
        e.get Reg.gwy_RING_QUEUE [r] = q ∧ e.get Reg.gwy_RING_OWNER [r] = o ∧
          e.get Reg.gwy_RING_SLOT_BYTES [r] = Word.fld w 13 12 ∧
          if Word.fld w 31 31 = 0 then onlyParts [.regs] d e ∧ e.get Reg.gwy_RING_EN [r] = 0
          else if o ≤ 64 ∧ d.flag Reg.wfg_Q_HOST_BOUND [q] = true ∧ d.get Reg.wfg_Q_TENANT [q] = t then
            onlyParts eventParts d e ∧ e.get Reg.gwy_RING_EN [r] = 1 ∧ e.get Reg.gwy_RING_CFG_BAD [r] = 0
          else onlyParts eventParts d e ∧ e.get Reg.gwy_RING_EN [r] = 0 ∧ e.get Reg.gwy_RING_CFG_BAD [r] = 1 ∧ e.pends gwyPage 3 = true) ∧
    ∀ speed width, laneMaskOk speed = true → linkWidthOk width = true → Completes (.pcieLinkChange speed width) s fun d e =>
      onlyParts eventParts d e ∧ e.get Reg.gwy_LINK_SPEED = speed ∧ e.get Reg.gwy_LINK_WIDTH = width ∧
        if d.get Reg.gwy_LINK_SPEED = speed ∧ d.get Reg.gwy_LINK_WIDTH = width then e = d else e.pends gwyPage 4 = true

/-- What the Gangway moves (R137, R586, R596–R598, R623): a host ring with room takes the next item of its queue whose row is not
CLOSED into its next slot, its data from byte 32 on, cut to the slot; a log entry goes to the provider's ring and to its
tenant's, and to host memory where the ring is mirrored; BAR2 reads and writes what Hold holds; what Hold does not serve, and
anything in Ebb mode, is counted and reported, and reads as ones, poisoned; a write to the rows of the Berth Table is turned
away. -/
def Obligations.HostData : Prop :=
  ∀ (s : State),
    (∀ r ph, ringOk r = true → phaseOk ph = true →
      let c := s.dev.atPhase ph
      let q := c.get Reg.gwy_RING_QUEUE [r]
      let head := c.get Reg.gwy_RING_HEAD [r]
      let slot := c.get64 Reg.gwy_RING_HOST_ADDR_LO Reg.gwy_RING_HOST_ADDR_HI [r] + head % c.ringSlots r * c.ringSlotBytes r
      Completes (.hostRingDeliver r ph) s fun _ e =>
        if c.flag Reg.gwy_RING_EN [r] = false ∨ c.ringSlots r ≤ (head + 2 ^ 32 - c.get Reg.gwy_RING_RD [r]) % 2 ^ 32 then e = c
        else match (c.take q).2 with
          | none => e = (c.take q).1
          | some i =>
            e.get Reg.gwy_RING_HEAD [r] = (head + 1) % 2 ^ 32 ∧ e.queue q = (c.take q).1.queue q ∧
            (i.type = 1 → wfld i.words 2 8 8 = 0 → .hostWrite slot (bytesOfWords i.words) ∈ e.out) ∧
            (i.type ≠ 1 → wfld i.words 2 8 8 = 1 → i.data.length = i.length →
              let room := c.ringSlotBytes r - 32
              let cut : Word := if room < i.length then 0x80000000 else 0
              .hostWrite slot (bytesOfWords ((i.words.set 1 (BitVec.ofNat 32 (min i.length room))).set 2 cut)) ∈ e.out ∧
                (i.length ≠ 0 → .hostWrite (slot + 32) (i.data.take room) ∈ e.out))) ∧
    (Completes .logEntry s fun d e =>
      let next (n : Nat) : Prop := e.get Reg.gwy_LOGR_WR_SEQ [n] = (d.get Reg.gwy_LOGR_WR_SEQ [n] + 1) % 2 ^ 32
      let mirrors (n : Nat) (x : LogEntry) : Prop := d.flag Reg.gwy_LOGR_MIRROR_EN [n] = true →
        let seq := d.get Reg.gwy_LOGR_WR_SEQ [n]
        let size := 2 ^ clampN 6 20 (d.get Reg.gwy_LOGR_LOG2_ENTRIES [n])
        .hostWrite (d.get64 Reg.gwy_LOGR_MIRROR_ADDR_LO Reg.gwy_LOGR_MIRROR_ADDR_HI [n] + 64 * (seq % size)) (x.bytes seq) ∈ e.out
      match d.gwy.log with
      | [] => e = d
      | x :: _ => x.tenant < 64 → next 0 ∧ mirrors 0 x ∧ (0 < x.tenant → next x.tenant ∧ mirrors x.tenant x)) ∧
    ∀ x n, bar2Ok x = true → bar2LengthOk n = true → x + n ≤ 2 ^ 34 →
      let a := s.dev.bar2Base * 2 ^ 30 + x
      let blk := a / 64 * 64
      let failed (d e : Dev) : Prop := e.get Reg.gwy_BAR2_ERR = satAdd 32 (d.get Reg.gwy_BAR2_ERR) 1 ∧ e.pends gwyPage 0 = true ∧
        e.hold.cells = d.hold.cells
      (∀ b : Bytes, bar2DataOk (some b) = true → b.length = n → Completes (.bar2Access x n (some b)) s fun d e =>
        (d.get Reg.dev_DEV_STATE = 3 → b ≠ [] → failed d e) ∧
        (d.get Reg.dev_DEV_STATE ≠ 3 → d.btcRegions.any (·.touches a b.length) = true →
          e.hold = d.hold ∧ e.pends btcPage 4 = true ∧ onlyParts eventParts d e) ∧
        (d.get Reg.dev_DEV_STATE ≠ 3 → d.btcRegions.any (·.touches a b.length) = false → d.unitOwned a b.length = false →
          e.hold = (d.holdWrite a b gwyPage).1.hold ∧ ((d.holdWrite a b gwyPage).2 ≠ none →
            e.get Reg.gwy_BAR2_ERR = satAdd 32 (d.get Reg.gwy_BAR2_ERR) 1 ∧ e.pends gwyPage 0 = true))) ∧
      Completes (.bar2Access x n none) s fun d e =>
        (d.get Reg.dev_DEV_STATE = 3 → 0 < n → failed d e ∧ e.out.head? = some (.completion (List.replicate n 0xFF) true)) ∧
        (d.holdServes → d.hold.injection = none → blk ∉ d.hold.poison → assoc? blk d.hold.bad = none → 0 < n → a % 64 + n ≤ 64 →
          (∃ ch loc, d.holdPlace blk = some (ch, loc) ∧ ch ∉ d.hold.lost) →
          e.out.head? = some (.completion (Memory.readN d.hold.cells a n) false) ∧ e.hold.cells = d.hold.cells) ∧
        (d.holdServes → d.holdPlace blk = none → 0 < n → a % 64 + n ≤ 64 →
          failed d e ∧ e.out.head? = some (.completion (List.replicate n 0xFF) true))

/-! ### Power, reset and start-up (chapter 20) -/

/-- Start-up (R516, R557, R617, R619, R620), each step at its own event and no other: PWR_OK samples the straps; the fabric PLL's
lock reads the fuses and powers the domains; PERST_N high brings up the link; BOOT_GO trains Hold, or step 3 fails; training
ends well, or step 4 fails; zeroing leaves Hold empty and free of poison; self-test passes, or step 5 fails; step 6 ends at its
limit if no pier is loaded. -/
def Obligations.StartUp : Prop :=
  ∀ (s : State) (ph : Nat), phaseOk ph = true →
    let stopped (d : Dev) : Prop := d.get Reg.dev_DEV_STATE = 2
    let fails (n : Nat) (e : Dev) : Prop := e.get Reg.dev_DEV_STATE = 2 ∧ e.get Reg.pwr_FAIL_STEP = n ∧ e.pends pwrPage 7 = true
    let c := s.dev.atPhase ph
    (∀ straps, laneMaskOk straps = true → Completes (.pwrOkRise straps) s fun d e =>
      if d.pwr.pwrOk = true then e = d
      else onlyParts [.regs, .pwr] d e ∧ e.pwr.pwrOk = true ∧ e.get Reg.pwr_STRAPS = straps) ∧
    (Completes .fabricPllLock s fun d e =>
      if d.pwr.pwrOk = false ∨ d.get Reg.dev_STEP ≠ 1 ∨ d.pwr.tripped = true then e = d
      else e.variant = s.fuse.variant ∧ e.pwr.records = (s.fuse.repairs ++ s.fuse.retires).filter recordOk ∧
        e.get64 Reg.dev_DIE_ID_LO Reg.dev_DIE_ID_HI = s.fuse.dieId % 2 ^ 64 ∧ e.clkOk 0 = true ∧
        (∀ k, 1 ≤ k → k ≤ 24 → e.domainOn k = e.domainPresent k) ∧ e.get Reg.dev_STEP = if d.pwr.perstN then 3 else 2) ∧
    (∀ speed width, laneMaskOk speed = true → linkWidthOk width = true → Completes (.perstNDeassert speed width) s fun d e =>
      if d.pwr.perstN = true ∨ d.pwr.pwrOk = false ∨ d.pwr.tripped = true then e = d
      else onlyParts [.regs, .pwr] d e ∧ e.pwr.perstN = true ∧ e.get Reg.gwy_LINK_SPEED = speed ∧ e.get Reg.gwy_LINK_WIDTH = width ∧
        e.clkOk 3 = true ∧ e.get Reg.dev_STEP = if d.get Reg.dev_STEP = 2 then 3 else d.get Reg.dev_STEP) ∧
    (Completes (.bootGo ph) s fun _ e =>
      if c.pwr.pwrOk = false ∨ c.pwr.tripped = true then e = c
      else if c.get Reg.dev_STEP ≠ 3 ∨ stopped c then
        onlyParts [.regs] c e ∧ e.get Reg.pwr_CMD_STATUS = Status.refusedParam.code ∧ e.get Reg.dev_STEP = c.get Reg.dev_STEP
      else e.get Reg.pwr_CMD_STATUS = Status.done.code ∧
        if c.flag Reg.hld_REGION_BAD = true then fails 3 e
        else e.get Reg.dev_STEP = 4 ∧ e.pwr.bootAt = some c.ns ∧
          ∀ ch, ch < c.channels → ch ∉ c.hold.lost → e.get Reg.hld_CH_STATE [ch] = 1) ∧
    (∀ ok : Bool, Completes (.holdTrainDone ok) s fun d e =>
      if d.get Reg.dev_STEP ≠ 4 ∨ stopped d ∨ d.flag Reg.hld_TRAINED = true then e = d
      else if ok then e.get Reg.hld_TRAINED = 1 ∧ onlyParts [.regs] d e ∧
        ∀ ch, ch < d.channels → ch ∉ d.hold.lost → e.get Reg.hld_CH_STATE [ch] = 2
      else fails 4 e) ∧
    (Completes .initDone s fun d e =>
      (d.flag Reg.hld_INIT_DONE = true ∨ d.flag Reg.hld_TRAINED = false ∨ stopped d → e = d) ∧
      (d.flag Reg.hld_INIT_DONE = false → d.flag Reg.hld_TRAINED = true → ¬ stopped d → d.get Reg.dev_STEP = 4 →
        e.hold.cells = [] ∧ e.hold.poison = [] ∧ e.get Reg.hld_INIT_DONE = 1 ∧ e.get Reg.dev_STEP = 5 ∧ e.pends hldPage 5 = true)) ∧
    (∀ r, bootReportOk r = true → Completes (.bootSelftestDone r) s fun d e =>
      if d.get Reg.dev_STEP ≠ 5 ∨ stopped d ∨ d.flag Reg.slw_BOOT_DONE = true then e = d
      else e.get Reg.slw_BOOT_DONE = 1 ∧
        if r.unrepairable = true ∨ (∃ u ∈ r.failing, u.1 = 0xF) then fails 5 e ∧ e.get Reg.dev_STEP = 5 ∧
          e.get Reg.slw_BOOT_PASS = d.get Reg.slw_BOOT_PASS
        else e.get Reg.slw_BOOT_PASS = 1 ∧ e.get Reg.dev_DEV_STATE = d.get Reg.dev_DEV_STATE ∧
          (e.get Reg.dev_STEP = if d.piersLoaded.all id = true then 7 else 6) ∧
          (r.failing = [] → r.arrays = [] → e.slw.soft = [] ∧ e.get Reg.slw_BOOT_SOFT_NEW = 0)) ∧
    Completes (.step6Timeout ph) s fun _ e =>
      if c.get Reg.dev_STEP = 6 ∧ ¬ stopped c ∧ c.piersLoaded.any id = false ∧
          c.pwr.bootAt.any (fun t => decide (t + 1000000000 ≤ c.ns)) = true then
        onlyParts [.regs] c e ∧ e.get Reg.dev_STEP = 7
      else e = c

/-- Resets, clocks and temperature (R612–R618): PWR_OK low clears everything; PERST and DEVICE_RESET keep device time, Tide numbers
and the wrapping keys; the fabric PLL's loss is a fault; a REFCLK's loss takes its links down; the sensor's reading is kept with
its highest, warns above WARN_C, and trips at 115 °C. -/
def Obligations.ResetsAndClocks : Prop :=
  ∀ (s : State),
    let kept (d e : Dev) : Prop := e.tk = d.tk ∧ e.bnd = { d.bnd with spent := [] } ∧ e.hold.cells = [] ∧ e.ldg.adms = [] ∧ e.wfg.slots = [] ∧ e.btc.rows = [] ∧
      (∀ t, t < 64 → e.get Reg.bnd_WRAP_KCV [t] = d.get Reg.bnd_WRAP_KCV [t]) ∧ e.get Reg.pwr_WARN_C = d.get Reg.pwr_WARN_C ∧
      e.get Reg.btc_EN = 0
    let running (d : Dev) : Prop := d.pwr.pwrOk = true ∧ d.pwr.tripped = false ∧ d.get Reg.dev_STEP ≠ 1
    (Completes .pwrOkLow s fun d e =>
      e.variant = d.variant ∧ e.pwr.pwrOk = false ∧ e.tide = 0 ∧ e.hold.cells = [] ∧ e.ldg.adms = [] ∧ e.btc.rows = [] ∧
        e.get Reg.dev_STEP = 1 ∧ e.get Reg.dev_DEV_STATE = 0 ∧ (∀ a, a ≠ Reg.pwr_RESET_CAUSE.addr → e.word a = resetWord a) ∧
        e.get Reg.pwr_RESET_CAUSE = if d.pwr.tripped then d.get Reg.pwr_RESET_CAUSE else 1) ∧
    (Completes .perstNAssert s fun d e =>
      if d.pwr.perstN = false then e = d
      else e.pwr.perstN = false ∧ e.clkOk 3 = false ∧
        (running d → kept d e ∧ e.get Reg.pwr_RESET_CAUSE = 4 ∧ e.get Reg.dev_STEP = 2)) ∧
    (Completes .deviceReset s fun d e =>
      (¬ running d → e = d) ∧
      (running d → kept d e ∧ e.get Reg.pwr_RESET_CAUSE = 8 ∧ e.pwr.perstN = d.pwr.perstN ∧
        e.get Reg.gwy_LINK_SPEED = d.get Reg.gwy_LINK_SPEED ∧ e.get Reg.dev_STEP = if d.pwr.perstN then 3 else 2)) ∧
    (Completes .pllUnlock s fun d e =>
      if d.clkOk 0 = false then e = d
      else e.clkOk 0 = false ∧ e.get Reg.dev_DEV_STATE = 2 ∧ e.pends pwrPage 5 = true ∧ e.pwr.alertLow = true ∧
        onlyParts (.pwr :: eventParts) d e) ∧
    (∀ i, pairOk i = true →
      (Completes (.refclkLoss i) s fun d e =>
        if d.clkOk (1 + i) = false then e = d
        else e.clkOk (1 + i) = false ∧ e.get Reg.qay_LINK_UP [2 * i] = 0 ∧ e.get Reg.qay_LINK_UP [2 * i + 1] = 0 ∧
          e.pends pwrPage 6 = true ∧ (i = 0 → e.get Reg.mrg_LINK_UP = 0)) ∧
      Completes (.refclkReturn i) s fun d e =>
        if d.pwr.pwrOk = false ∨ d.get Reg.dev_STEP = 1 then e = d else onlyParts [.regs] d e ∧ e.clkOk (1 + i) = true) ∧
    ∀ temp : Int, -32768 ≤ temp → temp ≤ 32767 → Completes (.thermalSample temp) s fun d e =>
      if d.pwr.pwrOk = false ∨ d.pwr.tripped = true then e = d
      else if 920 ≤ temp then
        e.pwr.tripped = true ∧ e.get Reg.pwr_RESET_CAUSE = 2 ∧ e.get Reg.pwr_PWR_DOM_STAT = 0 ∧ e.tk = d.tk ∧ e.hold.cells = [] ∧
          e.get Reg.dev_STEP = 1
      else
        let warn : Int := clampN 70 110 (d.get Reg.pwr_WARN_C)
        let hyst : Int := clampN 1 20 (d.get Reg.pwr_HYST_C)
        let hot : Prop := ∃ ch, ch < d.channels ∧ d.get Reg.hld_CH_REFRESH_MULT [ch] = 2
        let was := d.flag Reg.ldg_THERMAL_WARN
        onlyParts (.pwr :: eventParts) d e ∧ toSigned 16 (e.get Reg.pwr_TEMP) = temp ∧
          toSigned 16 (e.get Reg.pwr_TEMP_MAX) = max temp (toSigned 16 (d.get Reg.pwr_TEMP_MAX)) ∧
          (8 * warn ≤ temp ∨ hot → e.get Reg.ldg_THERMAL_WARN = 1 ∧ e.pwr.alertLow = true ∧ (was = false → e.pends pwrPage 1 = true)) ∧
          (temp < 8 * (warn - hyst) → ¬ hot → e.get Reg.ldg_THERMAL_WARN = 0 ∧ (was = true → e.pends pwrPage 2 = true)) ∧
          (8 * (warn - hyst) ≤ temp → temp < 8 * warn → ¬ hot → e.get Reg.ldg_THERMAL_WARN = d.get Reg.ldg_THERMAL_WARN)

/-- Domains and Ebb mode (R603–R606, R621–R624): a domain whose bit is set comes on at its own time, one whose bit is cleared goes
off at once unless work holds it, and four are never switched; EBB_ENTER needs a device in RUN and SOLO without admissions,
unbooked operations and pinned rows, and an EBB_KEEP; in Ebb mode Hold keeps what EBB_KEEP names (said of a device on which
nothing runs); a wake while entry is in progress waits for it; the device is woken into RUN. -/
def Obligations.DomainsAndEbb : Prop :=
  ∀ (s : State),
    (∀ w : Word, Completes (.pwrDomEnWrite w) s fun d e =>
      ∀ k, d.domainPresent k = true → (∀ j, 1 ≤ j → j ≤ 24 → j ≠ k → Word.fld w j j = bitOf (d.domainEn j)) →
        if Word.fld w k k = bitOf (d.domainEn k) then e = d
        else if k ∈ [1, 21, 22, 23] then onlyParts eventParts d e ∧ e.domainEn k = d.domainEn k ∧ e.domainOn k = d.domainOn k
        else if Word.fld w k k = 1 then
          onlyParts [.regs, .pwr] d e ∧ e.domainEn k = true ∧ e.domainOn k = d.domainOn k ∧
            (d.get Reg.dev_DEV_STATE ≠ 3 → k ∈ e.pwr.turningOn)
        else if d.domainHeld k = true then
          onlyParts eventParts d e ∧ e.domainEn k = true ∧ e.get Reg.pwr_DOM_REFUSED = satAdd 32 (d.get Reg.pwr_DOM_REFUSED) 1
        else e.domainEn k = false ∧ e.domainOn k = false ∧ k ∉ e.pwr.turningOn) ∧
    (∀ k, domainOk k = true → Completes (.domainOnDone k) s fun d e =>
      if k ∈ d.pwr.turningOn then
        onlyParts (.pwr :: eventParts) d e ∧ e.domainOn k = true ∧ k ∉ e.pwr.turningOn ∧
          (d.domainOn k = false → e.pends pwrPage 0 = true)
      else e = d) ∧
    (∀ ph, phaseOk ph = true →
      let c := s.dev.atPhase ph
      Completes (.ebbEnter ph) s fun _ e =>
        if c.pwr.pwrOk = false ∨ c.pwr.tripped = true then e = c
        else if c.flag Reg.pwr_CMD_BUSY = true then onlyParts eventParts c e
        else if c.get Reg.dev_DEV_STATE ≠ 1 ∨ c.ldg.adms ≠ [] ∨ (∃ x ∈ c.wfg.slots, x.admitted = false) ∨ c.pinUsed ≠ 0 ∨
            c.role ≠ roleSolo ∨ c.get Reg.hld_EBB_KEEP = 0 then
          onlyParts [.regs] c e ∧ e.get Reg.pwr_CMD_STATUS = Status.refusedParam.code ∧ e.get Reg.pwr_CMD_BUSY = 0
        else e.pwr.entering = true ∧ e.pwr.wakeHeld = false ∧ e.get Reg.pwr_CMD_BUSY = 1 ∧ e.get Reg.dev_DEV_STATE = 1) ∧
    (Completes .ebbEntered s fun d e =>
      if d.pwr.entering = false then e = d
      else d.wfg.slots = [] → d.slw.audits = [] →
        e.pwr.entering = false ∧ e.get Reg.dev_DEV_STATE = 3 ∧ e.get Reg.hld_INIT_DONE = 0 ∧ e.pends pwrPage 3 = true ∧
          e.get Reg.pwr_CMD_STATUS = Status.done.code ∧ e.pwr.waking = (d.pwr.wakeHeld || d.pwr.waking) ∧
          (∀ k, d.domainPresent k = true → k ≠ 1 → k ≠ 21 → e.domainOn k = false) ∧
          ∀ a, Memory.read e.hold.cells a = if d.ebbKeeps a then Memory.read d.hold.cells a else 0) ∧
    (Completes .ebbWake s fun d e =>
      if d.pwr.pwrOk = false ∨ d.pwr.tripped = true ∨ d.pwr.waking = true then e = d
      else onlyParts [.regs, .pwr] d e ∧
        if d.pwr.entering = true then e.pwr = { d.pwr with wakeHeld := true }
        else if d.get Reg.dev_DEV_STATE = 3 then e.pwr.waking = true ∧ e.get Reg.pwr_CMD_BUSY = 1
        else e.pwr = d.pwr ∧ e.get Reg.pwr_CMD_STATUS = Status.refusedParam.code) ∧
    Completes .ebbWoken s fun d e =>
      if d.pwr.waking = false then e = d
      else onlyParts (.pwr :: eventParts) d e ∧ e.pwr.waking = false ∧ e.get Reg.dev_DEV_STATE = 1 ∧ e.pends pwrPage 4 = true ∧
        e.get Reg.pwr_CMD_STATUS = Status.done.code ∧ (∀ k, d.domainPresent k = true → d.domainEn k = true → e.domainOn k = true) ∧
        ∀ ch, ch < d.channels → ch ∉ d.hold.lost → e.get Reg.hld_CH_STATE [ch] = 2

/-! ### The block as a whole -/

/-- A step takes the command at the front of the queue and answers what `exec` does on the state with the queue's rest; on an empty
queue the block idles (log entry 3). -/
def Obligations.StepRunsFront : Prop :=
  (∀ (s : State) (i : Instr) (rest : List Instr), s.pending = i :: rest → step s = exec i { s with pending := rest }) ∧
    ∀ s : State, s.pending = [] → step s = .next s

/-- Every command the hardware can be given completes, its queue as it was; one it cannot be given stops the block by name. -/
def Obligations.CommandsComplete : Prop :=
  ∀ (i : Instr) (s : State),
    (i.wf = true → ∃ t, exec i s = .next t ∧ t.pending = s.pending) ∧ (i.wf = false → exec i s = .fault .illFormed)

/-- What holds after reset (R516, R567, R599, R615): nothing is written in Hold, nothing admitted, no row listed; the tables are in
their canonical form and the fuses within their array; every register but RESET_CAUSE reads its reset value, and RESET_CAUSE
reads POWER. -/
def Obligations.ResetInvariants : Prop :=
  let s := State.reset
  s.pending = [] ∧ s.dev.hold.cells = [] ∧ Memory.wf s.dev.hold.cells = true ∧ s.dev.rowsWf ∧ s.fuse.wf ∧ s.dev.ldg.adms = [] ∧
    s.dev.wfg.slots = [] ∧ s.dev.tide = 0 ∧ s.dev.get Reg.dev_STEP = 1 ∧ s.dev.get Reg.pwr_RESET_CAUSE = 1 ∧
    ∀ a, a ≠ Reg.pwr_RESET_CAUSE.addr → s.dev.word a = resetWord a

/-- Fuses are one-time programmable (R567, R568): a step of any command keeps the fuses within their array and every record and
provider word in use, and only FUSE_DONE adds to them. -/
def Obligations.FusesOnlyGrow : Prop :=
  ∀ s t : State, s.fuse.wf → step s = .next t →
    t.fuse.wf ∧ s.fuse.grownTo t.fuse ∧ (t.fuse = s.fuse ∨ ∃ wrong, s.pending.head? = some (.fuseDone wrong))

/-- Encoding and decoding of the Reckoner's instructions agree (R382, R383): the word of every instruction decodes, on its core, to
that instruction with every operand as it was; and every word that decodes spells an instruction of that core that has a word. -/
def Obligations.ReckonerRoundTrip : Prop :=
  (∀ (i : Instr) (c : Nat) (w : Word), rkCoreOf i = some c → rkEncode i = some w → rkDecode c w = some i) ∧
    ∀ (i : Instr) (c : Nat) (w : Word), rkDecode c w = some i → rkCoreOf i = some c ∧ (rkEncode i).isSome = true

end
end

