-- ==== Sys2Proof/Laws/Table.lean ====
section
/-!
SUPPORT. Tables kept by key: what a lookup answers after a write, and that a write keeps the keys rising.
-/

namespace Sys2Proof.Machine

variable {α : Type}

/-- The key just set holds its value. -/
theorem assoc?_assocSet_same (k : Nat) (v : α) (l : List (Nat × α)) : assoc? k (assocSet k v l) = some v := by
  induction l with
  | nil => simp [assocSet, assoc?]
  | cons p t ih =>
    obtain ⟨j, w⟩ := p
    unfold assocSet
    split
    · simp [assoc?]
    · split
      · simp [assoc?]
      · rename_i _ h
        have hj : j ≠ k := fun e => h e.symm
        simp [assoc?, hj, ih]

/-- Every other key holds what it held. -/
theorem assoc?_assocSet_ne {k k' : Nat} (h : k' ≠ k) (v : α) (l : List (Nat × α)) :
    assoc? k' (assocSet k v l) = assoc? k' l := by
  induction l with
  | nil => simp [assocSet, assoc?, h.symm]
  | cons p t ih =>
    obtain ⟨j, w⟩ := p
    unfold assocSet
    split
    · simp [assoc?, h.symm]
    · split
      · rename_i _ e
        subst e
        simp [assoc?, h.symm]
      · by_cases e : j = k' <;> simp [assoc?, e, ih]

/-- A deleted key holds nothing. -/
theorem assoc?_assocDel_same (k : Nat) (l : List (Nat × α)) : assoc? k (assocDel k l) = none := by
  induction l with
  | nil => rfl
  | cons p t ih =>
    obtain ⟨j, w⟩ := p
    simp only [assocDel, List.filter_cons] at *
    by_cases e : j = k <;> simp_all [assoc?]

/-- A deletion leaves every other key. -/
theorem assoc?_assocDel_ne {k k' : Nat} (h : k' ≠ k) (l : List (Nat × α)) : assoc? k' (assocDel k l) = assoc? k' l := by
  induction l with
  | nil => rfl
  | cons p t ih =>
    obtain ⟨j, w⟩ := p
    simp only [assocDel, List.filter_cons] at *
    by_cases e : j = k
    · have : j ≠ k' := fun x => h (x.symm.trans e)
      simp_all [assoc?]
    · by_cases e' : j = k' <;> simp_all [assoc?]

/-- A table with a default: the key just put reads as its value. -/
theorem getD_assocPut_same [DecidableEq α] (z : α) (k : Nat) (v : α) (l : List (Nat × α)) :
    (assoc? k (assocPut z k v l)).getD z = v := by
  unfold assocPut
  split
  · rename_i h
    rw [assoc?_assocDel_same, h]; rfl
  · rw [assoc?_assocSet_same]; rfl

/-- A table with a default: every other key reads as before. -/
theorem assoc?_assocPut_ne [DecidableEq α] (z : α) {k k' : Nat} (h : k' ≠ k) (v : α) (l : List (Nat × α)) :
    assoc? k' (assocPut z k v l) = assoc? k' l := by
  unfold assocPut
  split
  · exact assoc?_assocDel_ne h l
  · exact assoc?_assocSet_ne h v l

/-! ### Rising keys -/

/-- Keys that rise strictly, said of the tail and of every key in it. -/
theorem keysRise_cons (p : Nat × α) (t : List (Nat × α)) :
    keysRise (p :: t) = true ↔ keysRise t = true ∧ ∀ q ∈ t, p.1 < q.1 := by
  induction t generalizing p with
  | nil => simp [keysRise]
  | cons q t ih =>
    simp only [keysRise, Bool.and_eq_true, decide_eq_true_eq, List.mem_cons, forall_eq_or_imp]
    constructor
    · rintro ⟨h, hr⟩
      exact ⟨hr, h, fun x hx => Nat.lt_trans h (((ih q).1 hr).2 x hx)⟩
    · rintro ⟨hr, h, _⟩
      exact ⟨h, hr⟩

/-- What a set table lists: the key set, or what it listed. -/
theorem mem_assocSet {k : Nat} {v : α} {l : List (Nat × α)} {q : Nat × α} (h : q ∈ assocSet k v l) : q = (k, v) ∨ q ∈ l := by
  induction l with
  | nil => simpa [assocSet] using h
  | cons p t ih =>
    obtain ⟨j, w⟩ := p
    unfold assocSet at h
    split at h
    · simpa using h
    · split at h
      · rcases List.mem_cons.1 h with e | e
        · exact .inl e
        · exact .inr (List.mem_cons_of_mem _ e)
      · rcases List.mem_cons.1 h with e | e
        · exact .inr (e ▸ List.mem_cons_self ..)
        · exact (ih e).imp_right (List.mem_cons_of_mem _)

theorem keysRise_assocSet (k : Nat) (v : α) (l : List (Nat × α)) (h : keysRise l = true) : keysRise (assocSet k v l) = true := by
  induction l with
  | nil => rfl
  | cons p t ih =>
    obtain ⟨j, w⟩ := p
    obtain ⟨ht, hl⟩ := (keysRise_cons _ _).1 h
    unfold assocSet
    split
    · rename_i hk
      refine (keysRise_cons _ _).2 ⟨h, fun q hq => ?_⟩
      rcases List.mem_cons.1 hq with e | e
      · exact e ▸ hk
      · exact Nat.lt_trans hk (hl q e)
    · split
      · rename_i _ e
        exact (keysRise_cons _ _).2 ⟨ht, fun q hq => e ▸ hl q hq⟩
      · rename_i h1 h2
        refine (keysRise_cons _ _).2 ⟨ih ht, fun q hq => ?_⟩
        rcases mem_assocSet hq with e | e
        · subst e
          exact Nat.lt_of_le_of_ne (Nat.not_lt.1 h1) fun x => h2 x.symm
        · exact hl q e

theorem keysRise_assocDel (k : Nat) (l : List (Nat × α)) (h : keysRise l = true) : keysRise (assocDel k l) = true := by
  induction l with
  | nil => rfl
  | cons p t ih =>
    obtain ⟨ht, hl⟩ := (keysRise_cons _ _).1 h
    simp only [assocDel, List.filter_cons] at *
    split
    · exact (keysRise_cons _ _).2 ⟨ih ht, fun q hq => hl q (List.mem_filter.1 hq).1⟩
    · exact ih ht

theorem keysRise_assocPut [DecidableEq α] (z : α) (k : Nat) (v : α) (l : List (Nat × α)) (h : keysRise l = true) :
    keysRise (assocPut z k v l) = true := by
  unfold assocPut
  split
  · exact keysRise_assocDel k l h
  · exact keysRise_assocSet k v l h

end Sys2Proof.Machine
end

