-- ==== Sys2Proof/Laws/Memory.lean ====
section
/-!
SUPPORT. Hold's cells: a read after a write, the canonical form that every write keeps (R516).
-/

namespace Sys2Proof.Machine.Memory

/-- The byte just written reads as written. -/
theorem read_write_same (m : List Host.Cell) (a : Nat) (b : Byte) : read (write m a b) a = b :=
  getD_assocPut_same blank a b m

/-- Every other byte reads as before. -/
theorem read_write_ne (m : List Host.Cell) {a x : Nat} (h : x ≠ a) (b : Byte) : read (write m a b) x = read m x := by
  unfold read write
  rw [assoc?_assocPut_ne blank h]

/-- A byte outside a run of bytes written reads as before. -/
theorem read_writeN_out (bs : Bytes) (m : List Host.Cell) (a x : Nat) (h : x < a ∨ a + bs.length ≤ x) :
    read (writeN m a bs) x = read m x := by
  induction bs generalizing m a with
  | nil => rfl
  | cons b t ih =>
    rw [writeN, ih _ _ (by simp only [List.length_cons] at h; omega)]
    exact read_write_ne m (by simp only [List.length_cons] at h; omega) b

/-- A byte of a run written reads as written. -/
theorem read_writeN_in (bs : Bytes) (m : List Host.Cell) (a i : Nat) (h : i < bs.length) :
    read (writeN m a bs) (a + i) = bs[i] := by
  induction bs generalizing m a i with
  | nil => cases h
  | cons b t ih =>
    rw [writeN]
    cases i with
    | zero =>
      rw [read_writeN_out t _ _ _ (.inl (by omega))]
      exact read_write_same m a b
    | succ j =>
      have := ih (write m a b) (a + 1) j (by simpa using h)
      rw [show a + (j + 1) = a + 1 + j by omega, this]; rfl

/-- A write keeps the canonical form. -/
theorem wf_write (m : List Host.Cell) (a : Nat) (b : Byte) (h : wf m = true) : wf (write m a b) = true := by
  simp only [wf, Bool.and_eq_true, List.all_eq_true] at *
  refine ⟨keysRise_assocPut blank a b m h.1, fun c hc => ?_⟩
  unfold write assocPut at hc
  split at hc
  · exact h.2 c (List.mem_filter.1 hc).1
  · rename_i hb
    rcases mem_assocSet hc with e | e
    · subst e
      simpa using hb
    · exact h.2 c e

/-- A run of bytes written keeps the canonical form. -/
theorem wf_writeN (bs : Bytes) (m : List Host.Cell) (a : Nat) (h : wf m = true) : wf (writeN m a bs) = true := by
  induction bs generalizing m a with
  | nil => exact h
  | cons b t ih => exact ih _ _ (wf_write m a b h)

/-- Cells dropped keep the canonical form. -/
theorem wf_filter (p : Host.Cell → Bool) (m : List Host.Cell) (h : wf m = true) : wf (m.filter p) = true := by
  simp only [wf, Bool.and_eq_true, List.all_eq_true] at *
  refine ⟨?_, fun c hc => h.2 c (List.mem_filter.1 hc).1⟩
  have hr := h.1
  clear h
  induction m with
  | nil => rfl
  | cons q t ih =>
    obtain ⟨ht, hl⟩ := (keysRise_cons _ _).1 hr
    simp only [List.filter_cons]
    split
    · exact (keysRise_cons _ _).2 ⟨ih ht, fun x hx => hl x (List.mem_filter.1 hx).1⟩
    · exact ih ht

end Sys2Proof.Machine.Memory
end

