-- ==== Sys2Proof/Laws/State.lean ====
section
/-!
SUPPORT. What each update of a register, a counter, a vector, an event or the error log leaves as it was: one lemma for each
field of `Dev` that it keeps. The proofs are `Eq.trans rfl rfl`, not `rfl`, so that simp rewrites with these lemmas: a step that
simp takes by definition alone has the kernel compare whole register files.
-/

namespace Sys2Proof.Machine

/-! ### A register written -/

@[simp] theorem Dev.setWord_variant (d : Dev) (a : Nat) (w : Word) : (d.setWord a w).variant = d.variant := Eq.trans rfl rfl
@[simp] theorem Dev.setWord_staged (d : Dev) (a : Nat) (w : Word) : (d.setWord a w).staged = d.staged := Eq.trans rfl rfl
@[simp] theorem Dev.setWord_applied (d : Dev) (a : Nat) (w : Word) : (d.setWord a w).applied = d.applied := Eq.trans rfl rfl
@[simp] theorem Dev.setWord_loHeld (d : Dev) (a : Nat) (w : Word) : (d.setWord a w).loHeld = d.loHeld := Eq.trans rfl rfl
@[simp] theorem Dev.setWord_hiCaptured (d : Dev) (a : Nat) (w : Word) : (d.setWord a w).hiCaptured = d.hiCaptured := Eq.trans rfl rfl
@[simp] theorem Dev.setWord_tk (d : Dev) (a : Nat) (w : Word) : (d.setWord a w).tk = d.tk := Eq.trans rfl rfl
@[simp] theorem Dev.setWord_ldg (d : Dev) (a : Nat) (w : Word) : (d.setWord a w).ldg = d.ldg := Eq.trans rfl rfl
@[simp] theorem Dev.setWord_wfg (d : Dev) (a : Nat) (w : Word) : (d.setWord a w).wfg = d.wfg := Eq.trans rfl rfl
@[simp] theorem Dev.setWord_btc (d : Dev) (a : Nat) (w : Word) : (d.setWord a w).btc = d.btc := Eq.trans rfl rfl
@[simp] theorem Dev.setWord_qay (d : Dev) (a : Nat) (w : Word) : (d.setWord a w).qay = d.qay := Eq.trans rfl rfl
@[simp] theorem Dev.setWord_bwr (d : Dev) (a : Nat) (w : Word) : (d.setWord a w).bwr = d.bwr := Eq.trans rfl rfl
@[simp] theorem Dev.setWord_bnd (d : Dev) (a : Nat) (w : Word) : (d.setWord a w).bnd = d.bnd := Eq.trans rfl rfl
@[simp] theorem Dev.setWord_fry (d : Dev) (a : Nat) (w : Word) : (d.setWord a w).fry = d.fry := Eq.trans rfl rfl
@[simp] theorem Dev.setWord_tly (d : Dev) (a : Nat) (w : Word) : (d.setWord a w).tly = d.tly := Eq.trans rfl rfl
@[simp] theorem Dev.setWord_abx (d : Dev) (a : Nat) (w : Word) : (d.setWord a w).abx = d.abx := Eq.trans rfl rfl
@[simp] theorem Dev.setWord_apu (d : Dev) (a : Nat) (w : Word) : (d.setWord a w).apu = d.apu := Eq.trans rfl rfl
@[simp] theorem Dev.setWord_ess (d : Dev) (a : Nat) (w : Word) : (d.setWord a w).ess = d.ess := Eq.trans rfl rfl
@[simp] theorem Dev.setWord_rkn (d : Dev) (a : Nat) (w : Word) : (d.setWord a w).rkn = d.rkn := Eq.trans rfl rfl
@[simp] theorem Dev.setWord_dec (d : Dev) (a : Nat) (w : Word) : (d.setWord a w).dec = d.dec := Eq.trans rfl rfl
@[simp] theorem Dev.setWord_enc (d : Dev) (a : Nat) (w : Word) : (d.setWord a w).enc = d.enc := Eq.trans rfl rfl
@[simp] theorem Dev.setWord_cmp (d : Dev) (a : Nat) (w : Word) : (d.setWord a w).cmp = d.cmp := Eq.trans rfl rfl
@[simp] theorem Dev.setWord_mrg (d : Dev) (a : Nat) (w : Word) : (d.setWord a w).mrg = d.mrg := Eq.trans rfl rfl
@[simp] theorem Dev.setWord_hold (d : Dev) (a : Nat) (w : Word) : (d.setWord a w).hold = d.hold := Eq.trans rfl rfl
@[simp] theorem Dev.setWord_slw (d : Dev) (a : Nat) (w : Word) : (d.setWord a w).slw = d.slw := Eq.trans rfl rfl
@[simp] theorem Dev.setWord_tgg (d : Dev) (a : Nat) (w : Word) : (d.setWord a w).tgg = d.tgg := Eq.trans rfl rfl
@[simp] theorem Dev.setWord_lfi (d : Dev) (a : Nat) (w : Word) : (d.setWord a w).lfi = d.lfi := Eq.trans rfl rfl
@[simp] theorem Dev.setWord_pwr (d : Dev) (a : Nat) (w : Word) : (d.setWord a w).pwr = d.pwr := Eq.trans rfl rfl
@[simp] theorem Dev.setWord_free (d : Dev) (a : Nat) (w : Word) : (d.setWord a w).free = d.free := Eq.trans rfl rfl
@[simp] theorem Dev.setWord_gwy (d : Dev) (a : Nat) (w : Word) : (d.setWord a w).gwy = d.gwy := Eq.trans rfl rfl
@[simp] theorem Dev.setWord_out (d : Dev) (a : Nat) (w : Word) : (d.setWord a w).out = d.out := Eq.trans rfl rfl

/-! ### A field written -/

@[simp] theorem Dev.set_variant (d : Dev) (r : RegField) (v : Nat) (ix : List Nat) : (d.set r v ix).variant = d.variant := Eq.trans rfl rfl
@[simp] theorem Dev.set_staged (d : Dev) (r : RegField) (v : Nat) (ix : List Nat) : (d.set r v ix).staged = d.staged := Eq.trans rfl rfl
@[simp] theorem Dev.set_applied (d : Dev) (r : RegField) (v : Nat) (ix : List Nat) : (d.set r v ix).applied = d.applied := Eq.trans rfl rfl
@[simp] theorem Dev.set_loHeld (d : Dev) (r : RegField) (v : Nat) (ix : List Nat) : (d.set r v ix).loHeld = d.loHeld := Eq.trans rfl rfl
@[simp] theorem Dev.set_hiCaptured (d : Dev) (r : RegField) (v : Nat) (ix : List Nat) : (d.set r v ix).hiCaptured = d.hiCaptured := Eq.trans rfl rfl
@[simp] theorem Dev.set_tk (d : Dev) (r : RegField) (v : Nat) (ix : List Nat) : (d.set r v ix).tk = d.tk := Eq.trans rfl rfl
@[simp] theorem Dev.set_ldg (d : Dev) (r : RegField) (v : Nat) (ix : List Nat) : (d.set r v ix).ldg = d.ldg := Eq.trans rfl rfl
@[simp] theorem Dev.set_wfg (d : Dev) (r : RegField) (v : Nat) (ix : List Nat) : (d.set r v ix).wfg = d.wfg := Eq.trans rfl rfl
@[simp] theorem Dev.set_btc (d : Dev) (r : RegField) (v : Nat) (ix : List Nat) : (d.set r v ix).btc = d.btc := Eq.trans rfl rfl
@[simp] theorem Dev.set_qay (d : Dev) (r : RegField) (v : Nat) (ix : List Nat) : (d.set r v ix).qay = d.qay := Eq.trans rfl rfl
@[simp] theorem Dev.set_bwr (d : Dev) (r : RegField) (v : Nat) (ix : List Nat) : (d.set r v ix).bwr = d.bwr := Eq.trans rfl rfl
@[simp] theorem Dev.set_bnd (d : Dev) (r : RegField) (v : Nat) (ix : List Nat) : (d.set r v ix).bnd = d.bnd := Eq.trans rfl rfl
@[simp] theorem Dev.set_fry (d : Dev) (r : RegField) (v : Nat) (ix : List Nat) : (d.set r v ix).fry = d.fry := Eq.trans rfl rfl
@[simp] theorem Dev.set_tly (d : Dev) (r : RegField) (v : Nat) (ix : List Nat) : (d.set r v ix).tly = d.tly := Eq.trans rfl rfl
@[simp] theorem Dev.set_abx (d : Dev) (r : RegField) (v : Nat) (ix : List Nat) : (d.set r v ix).abx = d.abx := Eq.trans rfl rfl
@[simp] theorem Dev.set_apu (d : Dev) (r : RegField) (v : Nat) (ix : List Nat) : (d.set r v ix).apu = d.apu := Eq.trans rfl rfl
@[simp] theorem Dev.set_ess (d : Dev) (r : RegField) (v : Nat) (ix : List Nat) : (d.set r v ix).ess = d.ess := Eq.trans rfl rfl
@[simp] theorem Dev.set_rkn (d : Dev) (r : RegField) (v : Nat) (ix : List Nat) : (d.set r v ix).rkn = d.rkn := Eq.trans rfl rfl
@[simp] theorem Dev.set_dec (d : Dev) (r : RegField) (v : Nat) (ix : List Nat) : (d.set r v ix).dec = d.dec := Eq.trans rfl rfl
@[simp] theorem Dev.set_enc (d : Dev) (r : RegField) (v : Nat) (ix : List Nat) : (d.set r v ix).enc = d.enc := Eq.trans rfl rfl
@[simp] theorem Dev.set_cmp (d : Dev) (r : RegField) (v : Nat) (ix : List Nat) : (d.set r v ix).cmp = d.cmp := Eq.trans rfl rfl
@[simp] theorem Dev.set_mrg (d : Dev) (r : RegField) (v : Nat) (ix : List Nat) : (d.set r v ix).mrg = d.mrg := Eq.trans rfl rfl
@[simp] theorem Dev.set_hold (d : Dev) (r : RegField) (v : Nat) (ix : List Nat) : (d.set r v ix).hold = d.hold := Eq.trans rfl rfl
@[simp] theorem Dev.set_slw (d : Dev) (r : RegField) (v : Nat) (ix : List Nat) : (d.set r v ix).slw = d.slw := Eq.trans rfl rfl
@[simp] theorem Dev.set_tgg (d : Dev) (r : RegField) (v : Nat) (ix : List Nat) : (d.set r v ix).tgg = d.tgg := Eq.trans rfl rfl
@[simp] theorem Dev.set_lfi (d : Dev) (r : RegField) (v : Nat) (ix : List Nat) : (d.set r v ix).lfi = d.lfi := Eq.trans rfl rfl
@[simp] theorem Dev.set_pwr (d : Dev) (r : RegField) (v : Nat) (ix : List Nat) : (d.set r v ix).pwr = d.pwr := Eq.trans rfl rfl
@[simp] theorem Dev.set_free (d : Dev) (r : RegField) (v : Nat) (ix : List Nat) : (d.set r v ix).free = d.free := Eq.trans rfl rfl
@[simp] theorem Dev.set_gwy (d : Dev) (r : RegField) (v : Nat) (ix : List Nat) : (d.set r v ix).gwy = d.gwy := Eq.trans rfl rfl
@[simp] theorem Dev.set_out (d : Dev) (r : RegField) (v : Nat) (ix : List Nat) : (d.set r v ix).out = d.out := Eq.trans rfl rfl

/-! ### A counter advanced -/

@[simp] theorem Dev.bump_variant (d : Dev) (r : RegField) (ix : List Nat) (k : Nat) : (d.bump r ix k).variant = d.variant := Eq.trans rfl rfl
@[simp] theorem Dev.bump_staged (d : Dev) (r : RegField) (ix : List Nat) (k : Nat) : (d.bump r ix k).staged = d.staged := Eq.trans rfl rfl
@[simp] theorem Dev.bump_applied (d : Dev) (r : RegField) (ix : List Nat) (k : Nat) : (d.bump r ix k).applied = d.applied := Eq.trans rfl rfl
@[simp] theorem Dev.bump_loHeld (d : Dev) (r : RegField) (ix : List Nat) (k : Nat) : (d.bump r ix k).loHeld = d.loHeld := Eq.trans rfl rfl
@[simp] theorem Dev.bump_hiCaptured (d : Dev) (r : RegField) (ix : List Nat) (k : Nat) : (d.bump r ix k).hiCaptured = d.hiCaptured := Eq.trans rfl rfl
@[simp] theorem Dev.bump_tk (d : Dev) (r : RegField) (ix : List Nat) (k : Nat) : (d.bump r ix k).tk = d.tk := Eq.trans rfl rfl
@[simp] theorem Dev.bump_ldg (d : Dev) (r : RegField) (ix : List Nat) (k : Nat) : (d.bump r ix k).ldg = d.ldg := Eq.trans rfl rfl
@[simp] theorem Dev.bump_wfg (d : Dev) (r : RegField) (ix : List Nat) (k : Nat) : (d.bump r ix k).wfg = d.wfg := Eq.trans rfl rfl
@[simp] theorem Dev.bump_btc (d : Dev) (r : RegField) (ix : List Nat) (k : Nat) : (d.bump r ix k).btc = d.btc := Eq.trans rfl rfl
@[simp] theorem Dev.bump_qay (d : Dev) (r : RegField) (ix : List Nat) (k : Nat) : (d.bump r ix k).qay = d.qay := Eq.trans rfl rfl
@[simp] theorem Dev.bump_bwr (d : Dev) (r : RegField) (ix : List Nat) (k : Nat) : (d.bump r ix k).bwr = d.bwr := Eq.trans rfl rfl
@[simp] theorem Dev.bump_bnd (d : Dev) (r : RegField) (ix : List Nat) (k : Nat) : (d.bump r ix k).bnd = d.bnd := Eq.trans rfl rfl
@[simp] theorem Dev.bump_fry (d : Dev) (r : RegField) (ix : List Nat) (k : Nat) : (d.bump r ix k).fry = d.fry := Eq.trans rfl rfl
@[simp] theorem Dev.bump_tly (d : Dev) (r : RegField) (ix : List Nat) (k : Nat) : (d.bump r ix k).tly = d.tly := Eq.trans rfl rfl
@[simp] theorem Dev.bump_abx (d : Dev) (r : RegField) (ix : List Nat) (k : Nat) : (d.bump r ix k).abx = d.abx := Eq.trans rfl rfl
@[simp] theorem Dev.bump_apu (d : Dev) (r : RegField) (ix : List Nat) (k : Nat) : (d.bump r ix k).apu = d.apu := Eq.trans rfl rfl
@[simp] theorem Dev.bump_ess (d : Dev) (r : RegField) (ix : List Nat) (k : Nat) : (d.bump r ix k).ess = d.ess := Eq.trans rfl rfl
@[simp] theorem Dev.bump_rkn (d : Dev) (r : RegField) (ix : List Nat) (k : Nat) : (d.bump r ix k).rkn = d.rkn := Eq.trans rfl rfl
@[simp] theorem Dev.bump_dec (d : Dev) (r : RegField) (ix : List Nat) (k : Nat) : (d.bump r ix k).dec = d.dec := Eq.trans rfl rfl
@[simp] theorem Dev.bump_enc (d : Dev) (r : RegField) (ix : List Nat) (k : Nat) : (d.bump r ix k).enc = d.enc := Eq.trans rfl rfl
@[simp] theorem Dev.bump_cmp (d : Dev) (r : RegField) (ix : List Nat) (k : Nat) : (d.bump r ix k).cmp = d.cmp := Eq.trans rfl rfl
@[simp] theorem Dev.bump_mrg (d : Dev) (r : RegField) (ix : List Nat) (k : Nat) : (d.bump r ix k).mrg = d.mrg := Eq.trans rfl rfl
@[simp] theorem Dev.bump_hold (d : Dev) (r : RegField) (ix : List Nat) (k : Nat) : (d.bump r ix k).hold = d.hold := Eq.trans rfl rfl
@[simp] theorem Dev.bump_slw (d : Dev) (r : RegField) (ix : List Nat) (k : Nat) : (d.bump r ix k).slw = d.slw := Eq.trans rfl rfl
@[simp] theorem Dev.bump_tgg (d : Dev) (r : RegField) (ix : List Nat) (k : Nat) : (d.bump r ix k).tgg = d.tgg := Eq.trans rfl rfl
@[simp] theorem Dev.bump_lfi (d : Dev) (r : RegField) (ix : List Nat) (k : Nat) : (d.bump r ix k).lfi = d.lfi := Eq.trans rfl rfl
@[simp] theorem Dev.bump_pwr (d : Dev) (r : RegField) (ix : List Nat) (k : Nat) : (d.bump r ix k).pwr = d.pwr := Eq.trans rfl rfl
@[simp] theorem Dev.bump_free (d : Dev) (r : RegField) (ix : List Nat) (k : Nat) : (d.bump r ix k).free = d.free := Eq.trans rfl rfl
@[simp] theorem Dev.bump_gwy (d : Dev) (r : RegField) (ix : List Nat) (k : Nat) : (d.bump r ix k).gwy = d.gwy := Eq.trans rfl rfl
@[simp] theorem Dev.bump_out (d : Dev) (r : RegField) (ix : List Nat) (k : Nat) : (d.bump r ix k).out = d.out := Eq.trans rfl rfl

/-! ### A header register written -/

@[simp] theorem Dev.setHdr_variant (d : Dev) (p : Page) (off hi lo v : Nat) : (d.setHdr p off hi lo v).variant = d.variant := Eq.trans rfl rfl
@[simp] theorem Dev.setHdr_staged (d : Dev) (p : Page) (off hi lo v : Nat) : (d.setHdr p off hi lo v).staged = d.staged := Eq.trans rfl rfl
@[simp] theorem Dev.setHdr_applied (d : Dev) (p : Page) (off hi lo v : Nat) : (d.setHdr p off hi lo v).applied = d.applied := Eq.trans rfl rfl
@[simp] theorem Dev.setHdr_loHeld (d : Dev) (p : Page) (off hi lo v : Nat) : (d.setHdr p off hi lo v).loHeld = d.loHeld := Eq.trans rfl rfl
@[simp] theorem Dev.setHdr_hiCaptured (d : Dev) (p : Page) (off hi lo v : Nat) : (d.setHdr p off hi lo v).hiCaptured = d.hiCaptured := Eq.trans rfl rfl
@[simp] theorem Dev.setHdr_tk (d : Dev) (p : Page) (off hi lo v : Nat) : (d.setHdr p off hi lo v).tk = d.tk := Eq.trans rfl rfl
@[simp] theorem Dev.setHdr_ldg (d : Dev) (p : Page) (off hi lo v : Nat) : (d.setHdr p off hi lo v).ldg = d.ldg := Eq.trans rfl rfl
@[simp] theorem Dev.setHdr_wfg (d : Dev) (p : Page) (off hi lo v : Nat) : (d.setHdr p off hi lo v).wfg = d.wfg := Eq.trans rfl rfl
@[simp] theorem Dev.setHdr_btc (d : Dev) (p : Page) (off hi lo v : Nat) : (d.setHdr p off hi lo v).btc = d.btc := Eq.trans rfl rfl
@[simp] theorem Dev.setHdr_qay (d : Dev) (p : Page) (off hi lo v : Nat) : (d.setHdr p off hi lo v).qay = d.qay := Eq.trans rfl rfl
@[simp] theorem Dev.setHdr_bwr (d : Dev) (p : Page) (off hi lo v : Nat) : (d.setHdr p off hi lo v).bwr = d.bwr := Eq.trans rfl rfl
@[simp] theorem Dev.setHdr_bnd (d : Dev) (p : Page) (off hi lo v : Nat) : (d.setHdr p off hi lo v).bnd = d.bnd := Eq.trans rfl rfl
@[simp] theorem Dev.setHdr_fry (d : Dev) (p : Page) (off hi lo v : Nat) : (d.setHdr p off hi lo v).fry = d.fry := Eq.trans rfl rfl
@[simp] theorem Dev.setHdr_tly (d : Dev) (p : Page) (off hi lo v : Nat) : (d.setHdr p off hi lo v).tly = d.tly := Eq.trans rfl rfl
@[simp] theorem Dev.setHdr_abx (d : Dev) (p : Page) (off hi lo v : Nat) : (d.setHdr p off hi lo v).abx = d.abx := Eq.trans rfl rfl
@[simp] theorem Dev.setHdr_apu (d : Dev) (p : Page) (off hi lo v : Nat) : (d.setHdr p off hi lo v).apu = d.apu := Eq.trans rfl rfl
@[simp] theorem Dev.setHdr_ess (d : Dev) (p : Page) (off hi lo v : Nat) : (d.setHdr p off hi lo v).ess = d.ess := Eq.trans rfl rfl
@[simp] theorem Dev.setHdr_rkn (d : Dev) (p : Page) (off hi lo v : Nat) : (d.setHdr p off hi lo v).rkn = d.rkn := Eq.trans rfl rfl
@[simp] theorem Dev.setHdr_dec (d : Dev) (p : Page) (off hi lo v : Nat) : (d.setHdr p off hi lo v).dec = d.dec := Eq.trans rfl rfl
@[simp] theorem Dev.setHdr_enc (d : Dev) (p : Page) (off hi lo v : Nat) : (d.setHdr p off hi lo v).enc = d.enc := Eq.trans rfl rfl
@[simp] theorem Dev.setHdr_cmp (d : Dev) (p : Page) (off hi lo v : Nat) : (d.setHdr p off hi lo v).cmp = d.cmp := Eq.trans rfl rfl
@[simp] theorem Dev.setHdr_mrg (d : Dev) (p : Page) (off hi lo v : Nat) : (d.setHdr p off hi lo v).mrg = d.mrg := Eq.trans rfl rfl
@[simp] theorem Dev.setHdr_hold (d : Dev) (p : Page) (off hi lo v : Nat) : (d.setHdr p off hi lo v).hold = d.hold := Eq.trans rfl rfl
@[simp] theorem Dev.setHdr_slw (d : Dev) (p : Page) (off hi lo v : Nat) : (d.setHdr p off hi lo v).slw = d.slw := Eq.trans rfl rfl
@[simp] theorem Dev.setHdr_tgg (d : Dev) (p : Page) (off hi lo v : Nat) : (d.setHdr p off hi lo v).tgg = d.tgg := Eq.trans rfl rfl
@[simp] theorem Dev.setHdr_lfi (d : Dev) (p : Page) (off hi lo v : Nat) : (d.setHdr p off hi lo v).lfi = d.lfi := Eq.trans rfl rfl
@[simp] theorem Dev.setHdr_pwr (d : Dev) (p : Page) (off hi lo v : Nat) : (d.setHdr p off hi lo v).pwr = d.pwr := Eq.trans rfl rfl
@[simp] theorem Dev.setHdr_free (d : Dev) (p : Page) (off hi lo v : Nat) : (d.setHdr p off hi lo v).free = d.free := Eq.trans rfl rfl
@[simp] theorem Dev.setHdr_gwy (d : Dev) (p : Page) (off hi lo v : Nat) : (d.setHdr p off hi lo v).gwy = d.gwy := Eq.trans rfl rfl
@[simp] theorem Dev.setHdr_out (d : Dev) (p : Page) (off hi lo v : Nat) : (d.setHdr p off hi lo v).out = d.out := Eq.trans rfl rfl

/-! ### Something sent -/

@[simp] theorem Dev.emit_variant (d : Dev) (x : Out) : (d.emit x).variant = d.variant := Eq.trans rfl rfl
@[simp] theorem Dev.emit_staged (d : Dev) (x : Out) : (d.emit x).staged = d.staged := Eq.trans rfl rfl
@[simp] theorem Dev.emit_applied (d : Dev) (x : Out) : (d.emit x).applied = d.applied := Eq.trans rfl rfl
@[simp] theorem Dev.emit_loHeld (d : Dev) (x : Out) : (d.emit x).loHeld = d.loHeld := Eq.trans rfl rfl
@[simp] theorem Dev.emit_hiCaptured (d : Dev) (x : Out) : (d.emit x).hiCaptured = d.hiCaptured := Eq.trans rfl rfl
@[simp] theorem Dev.emit_tk (d : Dev) (x : Out) : (d.emit x).tk = d.tk := Eq.trans rfl rfl
@[simp] theorem Dev.emit_ldg (d : Dev) (x : Out) : (d.emit x).ldg = d.ldg := Eq.trans rfl rfl
@[simp] theorem Dev.emit_wfg (d : Dev) (x : Out) : (d.emit x).wfg = d.wfg := Eq.trans rfl rfl
@[simp] theorem Dev.emit_btc (d : Dev) (x : Out) : (d.emit x).btc = d.btc := Eq.trans rfl rfl
@[simp] theorem Dev.emit_qay (d : Dev) (x : Out) : (d.emit x).qay = d.qay := Eq.trans rfl rfl
@[simp] theorem Dev.emit_bwr (d : Dev) (x : Out) : (d.emit x).bwr = d.bwr := Eq.trans rfl rfl
@[simp] theorem Dev.emit_bnd (d : Dev) (x : Out) : (d.emit x).bnd = d.bnd := Eq.trans rfl rfl
@[simp] theorem Dev.emit_fry (d : Dev) (x : Out) : (d.emit x).fry = d.fry := Eq.trans rfl rfl
@[simp] theorem Dev.emit_tly (d : Dev) (x : Out) : (d.emit x).tly = d.tly := Eq.trans rfl rfl
@[simp] theorem Dev.emit_abx (d : Dev) (x : Out) : (d.emit x).abx = d.abx := Eq.trans rfl rfl
@[simp] theorem Dev.emit_apu (d : Dev) (x : Out) : (d.emit x).apu = d.apu := Eq.trans rfl rfl
@[simp] theorem Dev.emit_ess (d : Dev) (x : Out) : (d.emit x).ess = d.ess := Eq.trans rfl rfl
@[simp] theorem Dev.emit_rkn (d : Dev) (x : Out) : (d.emit x).rkn = d.rkn := Eq.trans rfl rfl
@[simp] theorem Dev.emit_dec (d : Dev) (x : Out) : (d.emit x).dec = d.dec := Eq.trans rfl rfl
@[simp] theorem Dev.emit_enc (d : Dev) (x : Out) : (d.emit x).enc = d.enc := Eq.trans rfl rfl
@[simp] theorem Dev.emit_cmp (d : Dev) (x : Out) : (d.emit x).cmp = d.cmp := Eq.trans rfl rfl
@[simp] theorem Dev.emit_mrg (d : Dev) (x : Out) : (d.emit x).mrg = d.mrg := Eq.trans rfl rfl
@[simp] theorem Dev.emit_hold (d : Dev) (x : Out) : (d.emit x).hold = d.hold := Eq.trans rfl rfl
@[simp] theorem Dev.emit_slw (d : Dev) (x : Out) : (d.emit x).slw = d.slw := Eq.trans rfl rfl
@[simp] theorem Dev.emit_tgg (d : Dev) (x : Out) : (d.emit x).tgg = d.tgg := Eq.trans rfl rfl
@[simp] theorem Dev.emit_lfi (d : Dev) (x : Out) : (d.emit x).lfi = d.lfi := Eq.trans rfl rfl
@[simp] theorem Dev.emit_pwr (d : Dev) (x : Out) : (d.emit x).pwr = d.pwr := Eq.trans rfl rfl
@[simp] theorem Dev.emit_free (d : Dev) (x : Out) : (d.emit x).free = d.free := Eq.trans rfl rfl
@[simp] theorem Dev.emit_gwy (d : Dev) (x : Out) : (d.emit x).gwy = d.gwy := Eq.trans rfl rfl
@[simp] theorem Dev.emit_regs (d : Dev) (x : Out) : (d.emit x).regs = d.regs := Eq.trans rfl rfl

/-! ### A vector -/

@[simp] theorem Dev.signal_variant (d : Dev) (f : Fn) (v : Nat) : (d.signal f v).variant = d.variant := by
  unfold Dev.signal
  split
  · rfl
  · split
    · rfl
    · split <;> rfl
@[simp] theorem Dev.signal_staged (d : Dev) (f : Fn) (v : Nat) : (d.signal f v).staged = d.staged := by
  unfold Dev.signal
  split
  · rfl
  · split
    · rfl
    · split <;> rfl
@[simp] theorem Dev.signal_applied (d : Dev) (f : Fn) (v : Nat) : (d.signal f v).applied = d.applied := by
  unfold Dev.signal
  split
  · rfl
  · split
    · rfl
    · split <;> rfl
@[simp] theorem Dev.signal_loHeld (d : Dev) (f : Fn) (v : Nat) : (d.signal f v).loHeld = d.loHeld := by
  unfold Dev.signal
  split
  · rfl
  · split
    · rfl
    · split <;> rfl
@[simp] theorem Dev.signal_hiCaptured (d : Dev) (f : Fn) (v : Nat) : (d.signal f v).hiCaptured = d.hiCaptured := by
  unfold Dev.signal
  split
  · rfl
  · split
    · rfl
    · split <;> rfl
@[simp] theorem Dev.signal_tk (d : Dev) (f : Fn) (v : Nat) : (d.signal f v).tk = d.tk := by
  unfold Dev.signal
  split
  · rfl
  · split
    · rfl
    · split <;> rfl
@[simp] theorem Dev.signal_ldg (d : Dev) (f : Fn) (v : Nat) : (d.signal f v).ldg = d.ldg := by
  unfold Dev.signal
  split
  · rfl
  · split
    · rfl
    · split <;> rfl
@[simp] theorem Dev.signal_wfg (d : Dev) (f : Fn) (v : Nat) : (d.signal f v).wfg = d.wfg := by
  unfold Dev.signal
  split
  · rfl
  · split
    · rfl
    · split <;> rfl
@[simp] theorem Dev.signal_btc (d : Dev) (f : Fn) (v : Nat) : (d.signal f v).btc = d.btc := by
  unfold Dev.signal
  split
  · rfl
  · split
    · rfl
    · split <;> rfl
@[simp] theorem Dev.signal_qay (d : Dev) (f : Fn) (v : Nat) : (d.signal f v).qay = d.qay := by
  unfold Dev.signal
  split
  · rfl
  · split
    · rfl
    · split <;> rfl
@[simp] theorem Dev.signal_bwr (d : Dev) (f : Fn) (v : Nat) : (d.signal f v).bwr = d.bwr := by
  unfold Dev.signal
  split
  · rfl
  · split
    · rfl
    · split <;> rfl
@[simp] theorem Dev.signal_bnd (d : Dev) (f : Fn) (v : Nat) : (d.signal f v).bnd = d.bnd := by
  unfold Dev.signal
  split
  · rfl
  · split
    · rfl
    · split <;> rfl
@[simp] theorem Dev.signal_fry (d : Dev) (f : Fn) (v : Nat) : (d.signal f v).fry = d.fry := by
  unfold Dev.signal
  split
  · rfl
  · split
    · rfl
    · split <;> rfl
@[simp] theorem Dev.signal_tly (d : Dev) (f : Fn) (v : Nat) : (d.signal f v).tly = d.tly := by
  unfold Dev.signal
  split
  · rfl
  · split
    · rfl
    · split <;> rfl
@[simp] theorem Dev.signal_abx (d : Dev) (f : Fn) (v : Nat) : (d.signal f v).abx = d.abx := by
  unfold Dev.signal
  split
  · rfl
  · split
    · rfl
    · split <;> rfl
@[simp] theorem Dev.signal_apu (d : Dev) (f : Fn) (v : Nat) : (d.signal f v).apu = d.apu := by
  unfold Dev.signal
  split
  · rfl
  · split
    · rfl
    · split <;> rfl
@[simp] theorem Dev.signal_ess (d : Dev) (f : Fn) (v : Nat) : (d.signal f v).ess = d.ess := by
  unfold Dev.signal
  split
  · rfl
  · split
    · rfl
    · split <;> rfl
@[simp] theorem Dev.signal_rkn (d : Dev) (f : Fn) (v : Nat) : (d.signal f v).rkn = d.rkn := by
  unfold Dev.signal
  split
  · rfl
  · split
    · rfl
    · split <;> rfl
@[simp] theorem Dev.signal_dec (d : Dev) (f : Fn) (v : Nat) : (d.signal f v).dec = d.dec := by
  unfold Dev.signal
  split
  · rfl
  · split
    · rfl
    · split <;> rfl
@[simp] theorem Dev.signal_enc (d : Dev) (f : Fn) (v : Nat) : (d.signal f v).enc = d.enc := by
  unfold Dev.signal
  split
  · rfl
  · split
    · rfl
    · split <;> rfl
@[simp] theorem Dev.signal_cmp (d : Dev) (f : Fn) (v : Nat) : (d.signal f v).cmp = d.cmp := by
  unfold Dev.signal
  split
  · rfl
  · split
    · rfl
    · split <;> rfl
@[simp] theorem Dev.signal_mrg (d : Dev) (f : Fn) (v : Nat) : (d.signal f v).mrg = d.mrg := by
  unfold Dev.signal
  split
  · rfl
  · split
    · rfl
    · split <;> rfl
@[simp] theorem Dev.signal_hold (d : Dev) (f : Fn) (v : Nat) : (d.signal f v).hold = d.hold := by
  unfold Dev.signal
  split
  · rfl
  · split
    · rfl
    · split <;> rfl
@[simp] theorem Dev.signal_slw (d : Dev) (f : Fn) (v : Nat) : (d.signal f v).slw = d.slw := by
  unfold Dev.signal
  split
  · rfl
  · split
    · rfl
    · split <;> rfl
@[simp] theorem Dev.signal_tgg (d : Dev) (f : Fn) (v : Nat) : (d.signal f v).tgg = d.tgg := by
  unfold Dev.signal
  split
  · rfl
  · split
    · rfl
    · split <;> rfl
@[simp] theorem Dev.signal_lfi (d : Dev) (f : Fn) (v : Nat) : (d.signal f v).lfi = d.lfi := by
  unfold Dev.signal
  split
  · rfl
  · split
    · rfl
    · split <;> rfl
@[simp] theorem Dev.signal_pwr (d : Dev) (f : Fn) (v : Nat) : (d.signal f v).pwr = d.pwr := by
  unfold Dev.signal
  split
  · rfl
  · split
    · rfl
    · split <;> rfl
@[simp] theorem Dev.signal_free (d : Dev) (f : Fn) (v : Nat) : (d.signal f v).free = d.free := by
  unfold Dev.signal
  split
  · rfl
  · split
    · rfl
    · split <;> rfl
@[simp] theorem Dev.signal_regs (d : Dev) (f : Fn) (v : Nat) : (d.signal f v).regs = d.regs := by
  unfold Dev.signal
  split
  · rfl
  · split
    · rfl
    · split <;> rfl

/-! ### A page that signals -/

@[simp] theorem Dev.signalPage_variant (d : Dev) (p : Page) : (d.signalPage p).variant = d.variant := by
  unfold Dev.signalPage; split <;> split <;> first | rfl | exact Dev.signal_variant ..
@[simp] theorem Dev.signalPage_staged (d : Dev) (p : Page) : (d.signalPage p).staged = d.staged := by
  unfold Dev.signalPage; split <;> split <;> first | rfl | exact Dev.signal_staged ..
@[simp] theorem Dev.signalPage_applied (d : Dev) (p : Page) : (d.signalPage p).applied = d.applied := by
  unfold Dev.signalPage; split <;> split <;> first | rfl | exact Dev.signal_applied ..
@[simp] theorem Dev.signalPage_loHeld (d : Dev) (p : Page) : (d.signalPage p).loHeld = d.loHeld := by
  unfold Dev.signalPage; split <;> split <;> first | rfl | exact Dev.signal_loHeld ..
@[simp] theorem Dev.signalPage_hiCaptured (d : Dev) (p : Page) : (d.signalPage p).hiCaptured = d.hiCaptured := by
  unfold Dev.signalPage; split <;> split <;> first | rfl | exact Dev.signal_hiCaptured ..
@[simp] theorem Dev.signalPage_tk (d : Dev) (p : Page) : (d.signalPage p).tk = d.tk := by
  unfold Dev.signalPage; split <;> split <;> first | rfl | exact Dev.signal_tk ..
@[simp] theorem Dev.signalPage_ldg (d : Dev) (p : Page) : (d.signalPage p).ldg = d.ldg := by
  unfold Dev.signalPage; split <;> split <;> first | rfl | exact Dev.signal_ldg ..
@[simp] theorem Dev.signalPage_wfg (d : Dev) (p : Page) : (d.signalPage p).wfg = d.wfg := by
  unfold Dev.signalPage; split <;> split <;> first | rfl | exact Dev.signal_wfg ..
@[simp] theorem Dev.signalPage_btc (d : Dev) (p : Page) : (d.signalPage p).btc = d.btc := by
  unfold Dev.signalPage; split <;> split <;> first | rfl | exact Dev.signal_btc ..
@[simp] theorem Dev.signalPage_qay (d : Dev) (p : Page) : (d.signalPage p).qay = d.qay := by
  unfold Dev.signalPage; split <;> split <;> first | rfl | exact Dev.signal_qay ..
@[simp] theorem Dev.signalPage_bwr (d : Dev) (p : Page) : (d.signalPage p).bwr = d.bwr := by
  unfold Dev.signalPage; split <;> split <;> first | rfl | exact Dev.signal_bwr ..
@[simp] theorem Dev.signalPage_bnd (d : Dev) (p : Page) : (d.signalPage p).bnd = d.bnd := by
  unfold Dev.signalPage; split <;> split <;> first | rfl | exact Dev.signal_bnd ..
@[simp] theorem Dev.signalPage_fry (d : Dev) (p : Page) : (d.signalPage p).fry = d.fry := by
  unfold Dev.signalPage; split <;> split <;> first | rfl | exact Dev.signal_fry ..
@[simp] theorem Dev.signalPage_tly (d : Dev) (p : Page) : (d.signalPage p).tly = d.tly := by
  unfold Dev.signalPage; split <;> split <;> first | rfl | exact Dev.signal_tly ..
@[simp] theorem Dev.signalPage_abx (d : Dev) (p : Page) : (d.signalPage p).abx = d.abx := by
  unfold Dev.signalPage; split <;> split <;> first | rfl | exact Dev.signal_abx ..
@[simp] theorem Dev.signalPage_apu (d : Dev) (p : Page) : (d.signalPage p).apu = d.apu := by
  unfold Dev.signalPage; split <;> split <;> first | rfl | exact Dev.signal_apu ..
@[simp] theorem Dev.signalPage_ess (d : Dev) (p : Page) : (d.signalPage p).ess = d.ess := by
  unfold Dev.signalPage; split <;> split <;> first | rfl | exact Dev.signal_ess ..
@[simp] theorem Dev.signalPage_rkn (d : Dev) (p : Page) : (d.signalPage p).rkn = d.rkn := by
  unfold Dev.signalPage; split <;> split <;> first | rfl | exact Dev.signal_rkn ..
@[simp] theorem Dev.signalPage_dec (d : Dev) (p : Page) : (d.signalPage p).dec = d.dec := by
  unfold Dev.signalPage; split <;> split <;> first | rfl | exact Dev.signal_dec ..
@[simp] theorem Dev.signalPage_enc (d : Dev) (p : Page) : (d.signalPage p).enc = d.enc := by
  unfold Dev.signalPage; split <;> split <;> first | rfl | exact Dev.signal_enc ..
@[simp] theorem Dev.signalPage_cmp (d : Dev) (p : Page) : (d.signalPage p).cmp = d.cmp := by
  unfold Dev.signalPage; split <;> split <;> first | rfl | exact Dev.signal_cmp ..
@[simp] theorem Dev.signalPage_mrg (d : Dev) (p : Page) : (d.signalPage p).mrg = d.mrg := by
  unfold Dev.signalPage; split <;> split <;> first | rfl | exact Dev.signal_mrg ..
@[simp] theorem Dev.signalPage_hold (d : Dev) (p : Page) : (d.signalPage p).hold = d.hold := by
  unfold Dev.signalPage; split <;> split <;> first | rfl | exact Dev.signal_hold ..
@[simp] theorem Dev.signalPage_slw (d : Dev) (p : Page) : (d.signalPage p).slw = d.slw := by
  unfold Dev.signalPage; split <;> split <;> first | rfl | exact Dev.signal_slw ..
@[simp] theorem Dev.signalPage_tgg (d : Dev) (p : Page) : (d.signalPage p).tgg = d.tgg := by
  unfold Dev.signalPage; split <;> split <;> first | rfl | exact Dev.signal_tgg ..
@[simp] theorem Dev.signalPage_lfi (d : Dev) (p : Page) : (d.signalPage p).lfi = d.lfi := by
  unfold Dev.signalPage; split <;> split <;> first | rfl | exact Dev.signal_lfi ..
@[simp] theorem Dev.signalPage_pwr (d : Dev) (p : Page) : (d.signalPage p).pwr = d.pwr := by
  unfold Dev.signalPage; split <;> split <;> first | rfl | exact Dev.signal_pwr ..
@[simp] theorem Dev.signalPage_free (d : Dev) (p : Page) : (d.signalPage p).free = d.free := by
  unfold Dev.signalPage; split <;> split <;> first | rfl | exact Dev.signal_free ..
@[simp] theorem Dev.signalPage_regs (d : Dev) (p : Page) : (d.signalPage p).regs = d.regs := by
  unfold Dev.signalPage; split <;> split <;> first | rfl | exact Dev.signal_regs ..

/-! ### An event latched -/

@[simp] theorem Dev.latch_variant (d : Dev) (p : Page) (m : Nat) : (d.latch p m).variant = d.variant := by
  unfold Dev.latch
  split <;> simp only [Dev.signalPage_variant, Dev.set_variant, Dev.setHdr_variant]
@[simp] theorem Dev.latch_staged (d : Dev) (p : Page) (m : Nat) : (d.latch p m).staged = d.staged := by
  unfold Dev.latch
  split <;> simp only [Dev.signalPage_staged, Dev.set_staged, Dev.setHdr_staged]
@[simp] theorem Dev.latch_applied (d : Dev) (p : Page) (m : Nat) : (d.latch p m).applied = d.applied := by
  unfold Dev.latch
  split <;> simp only [Dev.signalPage_applied, Dev.set_applied, Dev.setHdr_applied]
@[simp] theorem Dev.latch_loHeld (d : Dev) (p : Page) (m : Nat) : (d.latch p m).loHeld = d.loHeld := by
  unfold Dev.latch
  split <;> simp only [Dev.signalPage_loHeld, Dev.set_loHeld, Dev.setHdr_loHeld]
@[simp] theorem Dev.latch_hiCaptured (d : Dev) (p : Page) (m : Nat) : (d.latch p m).hiCaptured = d.hiCaptured := by
  unfold Dev.latch
  split <;> simp only [Dev.signalPage_hiCaptured, Dev.set_hiCaptured, Dev.setHdr_hiCaptured]
@[simp] theorem Dev.latch_tk (d : Dev) (p : Page) (m : Nat) : (d.latch p m).tk = d.tk := by
  unfold Dev.latch
  split <;> simp only [Dev.signalPage_tk, Dev.set_tk, Dev.setHdr_tk]
@[simp] theorem Dev.latch_ldg (d : Dev) (p : Page) (m : Nat) : (d.latch p m).ldg = d.ldg := by
  unfold Dev.latch
  split <;> simp only [Dev.signalPage_ldg, Dev.set_ldg, Dev.setHdr_ldg]
@[simp] theorem Dev.latch_wfg (d : Dev) (p : Page) (m : Nat) : (d.latch p m).wfg = d.wfg := by
  unfold Dev.latch
  split <;> simp only [Dev.signalPage_wfg, Dev.set_wfg, Dev.setHdr_wfg]
@[simp] theorem Dev.latch_btc (d : Dev) (p : Page) (m : Nat) : (d.latch p m).btc = d.btc := by
  unfold Dev.latch
  split <;> simp only [Dev.signalPage_btc, Dev.set_btc, Dev.setHdr_btc]
@[simp] theorem Dev.latch_qay (d : Dev) (p : Page) (m : Nat) : (d.latch p m).qay = d.qay := by
  unfold Dev.latch
  split <;> simp only [Dev.signalPage_qay, Dev.set_qay, Dev.setHdr_qay]
@[simp] theorem Dev.latch_bwr (d : Dev) (p : Page) (m : Nat) : (d.latch p m).bwr = d.bwr := by
  unfold Dev.latch
  split <;> simp only [Dev.signalPage_bwr, Dev.set_bwr, Dev.setHdr_bwr]
@[simp] theorem Dev.latch_bnd (d : Dev) (p : Page) (m : Nat) : (d.latch p m).bnd = d.bnd := by
  unfold Dev.latch
  split <;> simp only [Dev.signalPage_bnd, Dev.set_bnd, Dev.setHdr_bnd]
@[simp] theorem Dev.latch_fry (d : Dev) (p : Page) (m : Nat) : (d.latch p m).fry = d.fry := by
  unfold Dev.latch
  split <;> simp only [Dev.signalPage_fry, Dev.set_fry, Dev.setHdr_fry]
@[simp] theorem Dev.latch_tly (d : Dev) (p : Page) (m : Nat) : (d.latch p m).tly = d.tly := by
  unfold Dev.latch
  split <;> simp only [Dev.signalPage_tly, Dev.set_tly, Dev.setHdr_tly]
@[simp] theorem Dev.latch_abx (d : Dev) (p : Page) (m : Nat) : (d.latch p m).abx = d.abx := by
  unfold Dev.latch
  split <;> simp only [Dev.signalPage_abx, Dev.set_abx, Dev.setHdr_abx]
@[simp] theorem Dev.latch_apu (d : Dev) (p : Page) (m : Nat) : (d.latch p m).apu = d.apu := by
  unfold Dev.latch
  split <;> simp only [Dev.signalPage_apu, Dev.set_apu, Dev.setHdr_apu]
@[simp] theorem Dev.latch_ess (d : Dev) (p : Page) (m : Nat) : (d.latch p m).ess = d.ess := by
  unfold Dev.latch
  split <;> simp only [Dev.signalPage_ess, Dev.set_ess, Dev.setHdr_ess]
@[simp] theorem Dev.latch_rkn (d : Dev) (p : Page) (m : Nat) : (d.latch p m).rkn = d.rkn := by
  unfold Dev.latch
  split <;> simp only [Dev.signalPage_rkn, Dev.set_rkn, Dev.setHdr_rkn]
@[simp] theorem Dev.latch_dec (d : Dev) (p : Page) (m : Nat) : (d.latch p m).dec = d.dec := by
  unfold Dev.latch
  split <;> simp only [Dev.signalPage_dec, Dev.set_dec, Dev.setHdr_dec]
@[simp] theorem Dev.latch_enc (d : Dev) (p : Page) (m : Nat) : (d.latch p m).enc = d.enc := by
  unfold Dev.latch
  split <;> simp only [Dev.signalPage_enc, Dev.set_enc, Dev.setHdr_enc]
@[simp] theorem Dev.latch_cmp (d : Dev) (p : Page) (m : Nat) : (d.latch p m).cmp = d.cmp := by
  unfold Dev.latch
  split <;> simp only [Dev.signalPage_cmp, Dev.set_cmp, Dev.setHdr_cmp]
@[simp] theorem Dev.latch_mrg (d : Dev) (p : Page) (m : Nat) : (d.latch p m).mrg = d.mrg := by
  unfold Dev.latch
  split <;> simp only [Dev.signalPage_mrg, Dev.set_mrg, Dev.setHdr_mrg]
@[simp] theorem Dev.latch_hold (d : Dev) (p : Page) (m : Nat) : (d.latch p m).hold = d.hold := by
  unfold Dev.latch
  split <;> simp only [Dev.signalPage_hold, Dev.set_hold, Dev.setHdr_hold]
@[simp] theorem Dev.latch_slw (d : Dev) (p : Page) (m : Nat) : (d.latch p m).slw = d.slw := by
  unfold Dev.latch
  split <;> simp only [Dev.signalPage_slw, Dev.set_slw, Dev.setHdr_slw]
@[simp] theorem Dev.latch_tgg (d : Dev) (p : Page) (m : Nat) : (d.latch p m).tgg = d.tgg := by
  unfold Dev.latch
  split <;> simp only [Dev.signalPage_tgg, Dev.set_tgg, Dev.setHdr_tgg]
@[simp] theorem Dev.latch_lfi (d : Dev) (p : Page) (m : Nat) : (d.latch p m).lfi = d.lfi := by
  unfold Dev.latch
  split <;> simp only [Dev.signalPage_lfi, Dev.set_lfi, Dev.setHdr_lfi]
@[simp] theorem Dev.latch_pwr (d : Dev) (p : Page) (m : Nat) : (d.latch p m).pwr = d.pwr := by
  unfold Dev.latch
  split <;> simp only [Dev.signalPage_pwr, Dev.set_pwr, Dev.setHdr_pwr]
@[simp] theorem Dev.latch_free (d : Dev) (p : Page) (m : Nat) : (d.latch p m).free = d.free := by
  unfold Dev.latch
  split <;> simp only [Dev.signalPage_free, Dev.set_free, Dev.setHdr_free]

/-! ### An event -/

@[simp] theorem Dev.raise_variant (d : Dev) (p : Page) (b : Nat) : (d.raise p b).variant = d.variant := d.latch_variant p _
@[simp] theorem Dev.raise_staged (d : Dev) (p : Page) (b : Nat) : (d.raise p b).staged = d.staged := d.latch_staged p _
@[simp] theorem Dev.raise_applied (d : Dev) (p : Page) (b : Nat) : (d.raise p b).applied = d.applied := d.latch_applied p _
@[simp] theorem Dev.raise_loHeld (d : Dev) (p : Page) (b : Nat) : (d.raise p b).loHeld = d.loHeld := d.latch_loHeld p _
@[simp] theorem Dev.raise_hiCaptured (d : Dev) (p : Page) (b : Nat) : (d.raise p b).hiCaptured = d.hiCaptured := d.latch_hiCaptured p _
@[simp] theorem Dev.raise_tk (d : Dev) (p : Page) (b : Nat) : (d.raise p b).tk = d.tk := d.latch_tk p _
@[simp] theorem Dev.raise_ldg (d : Dev) (p : Page) (b : Nat) : (d.raise p b).ldg = d.ldg := d.latch_ldg p _
@[simp] theorem Dev.raise_wfg (d : Dev) (p : Page) (b : Nat) : (d.raise p b).wfg = d.wfg := d.latch_wfg p _
@[simp] theorem Dev.raise_btc (d : Dev) (p : Page) (b : Nat) : (d.raise p b).btc = d.btc := d.latch_btc p _
@[simp] theorem Dev.raise_qay (d : Dev) (p : Page) (b : Nat) : (d.raise p b).qay = d.qay := d.latch_qay p _
@[simp] theorem Dev.raise_bwr (d : Dev) (p : Page) (b : Nat) : (d.raise p b).bwr = d.bwr := d.latch_bwr p _
@[simp] theorem Dev.raise_bnd (d : Dev) (p : Page) (b : Nat) : (d.raise p b).bnd = d.bnd := d.latch_bnd p _
@[simp] theorem Dev.raise_fry (d : Dev) (p : Page) (b : Nat) : (d.raise p b).fry = d.fry := d.latch_fry p _
@[simp] theorem Dev.raise_tly (d : Dev) (p : Page) (b : Nat) : (d.raise p b).tly = d.tly := d.latch_tly p _
@[simp] theorem Dev.raise_abx (d : Dev) (p : Page) (b : Nat) : (d.raise p b).abx = d.abx := d.latch_abx p _
@[simp] theorem Dev.raise_apu (d : Dev) (p : Page) (b : Nat) : (d.raise p b).apu = d.apu := d.latch_apu p _
@[simp] theorem Dev.raise_ess (d : Dev) (p : Page) (b : Nat) : (d.raise p b).ess = d.ess := d.latch_ess p _
@[simp] theorem Dev.raise_rkn (d : Dev) (p : Page) (b : Nat) : (d.raise p b).rkn = d.rkn := d.latch_rkn p _
@[simp] theorem Dev.raise_dec (d : Dev) (p : Page) (b : Nat) : (d.raise p b).dec = d.dec := d.latch_dec p _
@[simp] theorem Dev.raise_enc (d : Dev) (p : Page) (b : Nat) : (d.raise p b).enc = d.enc := d.latch_enc p _
@[simp] theorem Dev.raise_cmp (d : Dev) (p : Page) (b : Nat) : (d.raise p b).cmp = d.cmp := d.latch_cmp p _
@[simp] theorem Dev.raise_mrg (d : Dev) (p : Page) (b : Nat) : (d.raise p b).mrg = d.mrg := d.latch_mrg p _
@[simp] theorem Dev.raise_hold (d : Dev) (p : Page) (b : Nat) : (d.raise p b).hold = d.hold := d.latch_hold p _
@[simp] theorem Dev.raise_slw (d : Dev) (p : Page) (b : Nat) : (d.raise p b).slw = d.slw := d.latch_slw p _
@[simp] theorem Dev.raise_tgg (d : Dev) (p : Page) (b : Nat) : (d.raise p b).tgg = d.tgg := d.latch_tgg p _
@[simp] theorem Dev.raise_lfi (d : Dev) (p : Page) (b : Nat) : (d.raise p b).lfi = d.lfi := d.latch_lfi p _
@[simp] theorem Dev.raise_pwr (d : Dev) (p : Page) (b : Nat) : (d.raise p b).pwr = d.pwr := d.latch_pwr p _
@[simp] theorem Dev.raise_free (d : Dev) (p : Page) (b : Nat) : (d.raise p b).free = d.free := d.latch_free p _

/-! ### The error log -/

@[simp] theorem Dev.log_variant (d : Dev) (p : Page) (c k r t : Nat) (x : Bytes) : (d.log p c k r t x).variant = d.variant := by
  unfold Dev.log
  dsimp only
  split <;> simp only [Dev.raise_variant, Dev.bump_variant, Dev.setHdr_variant]
@[simp] theorem Dev.log_staged (d : Dev) (p : Page) (c k r t : Nat) (x : Bytes) : (d.log p c k r t x).staged = d.staged := by
  unfold Dev.log
  dsimp only
  split <;> simp only [Dev.raise_staged, Dev.bump_staged, Dev.setHdr_staged]
@[simp] theorem Dev.log_applied (d : Dev) (p : Page) (c k r t : Nat) (x : Bytes) : (d.log p c k r t x).applied = d.applied := by
  unfold Dev.log
  dsimp only
  split <;> simp only [Dev.raise_applied, Dev.bump_applied, Dev.setHdr_applied]
@[simp] theorem Dev.log_loHeld (d : Dev) (p : Page) (c k r t : Nat) (x : Bytes) : (d.log p c k r t x).loHeld = d.loHeld := by
  unfold Dev.log
  dsimp only
  split <;> simp only [Dev.raise_loHeld, Dev.bump_loHeld, Dev.setHdr_loHeld]
@[simp] theorem Dev.log_hiCaptured (d : Dev) (p : Page) (c k r t : Nat) (x : Bytes) : (d.log p c k r t x).hiCaptured = d.hiCaptured := by
  unfold Dev.log
  dsimp only
  split <;> simp only [Dev.raise_hiCaptured, Dev.bump_hiCaptured, Dev.setHdr_hiCaptured]
@[simp] theorem Dev.log_tk (d : Dev) (p : Page) (c k r t : Nat) (x : Bytes) : (d.log p c k r t x).tk = d.tk := by
  unfold Dev.log
  dsimp only
  split <;> simp only [Dev.raise_tk, Dev.bump_tk, Dev.setHdr_tk]
@[simp] theorem Dev.log_ldg (d : Dev) (p : Page) (c k r t : Nat) (x : Bytes) : (d.log p c k r t x).ldg = d.ldg := by
  unfold Dev.log
  dsimp only
  split <;> simp only [Dev.raise_ldg, Dev.bump_ldg, Dev.setHdr_ldg]
@[simp] theorem Dev.log_wfg (d : Dev) (p : Page) (c k r t : Nat) (x : Bytes) : (d.log p c k r t x).wfg = d.wfg := by
  unfold Dev.log
  dsimp only
  split <;> simp only [Dev.raise_wfg, Dev.bump_wfg, Dev.setHdr_wfg]
@[simp] theorem Dev.log_btc (d : Dev) (p : Page) (c k r t : Nat) (x : Bytes) : (d.log p c k r t x).btc = d.btc := by
  unfold Dev.log
  dsimp only
  split <;> simp only [Dev.raise_btc, Dev.bump_btc, Dev.setHdr_btc]
@[simp] theorem Dev.log_qay (d : Dev) (p : Page) (c k r t : Nat) (x : Bytes) : (d.log p c k r t x).qay = d.qay := by
  unfold Dev.log
  dsimp only
  split <;> simp only [Dev.raise_qay, Dev.bump_qay, Dev.setHdr_qay]
@[simp] theorem Dev.log_bwr (d : Dev) (p : Page) (c k r t : Nat) (x : Bytes) : (d.log p c k r t x).bwr = d.bwr := by
  unfold Dev.log
  dsimp only
  split <;> simp only [Dev.raise_bwr, Dev.bump_bwr, Dev.setHdr_bwr]
@[simp] theorem Dev.log_bnd (d : Dev) (p : Page) (c k r t : Nat) (x : Bytes) : (d.log p c k r t x).bnd = d.bnd := by
  unfold Dev.log
  dsimp only
  split <;> simp only [Dev.raise_bnd, Dev.bump_bnd, Dev.setHdr_bnd]
@[simp] theorem Dev.log_fry (d : Dev) (p : Page) (c k r t : Nat) (x : Bytes) : (d.log p c k r t x).fry = d.fry := by
  unfold Dev.log
  dsimp only
  split <;> simp only [Dev.raise_fry, Dev.bump_fry, Dev.setHdr_fry]
@[simp] theorem Dev.log_tly (d : Dev) (p : Page) (c k r t : Nat) (x : Bytes) : (d.log p c k r t x).tly = d.tly := by
  unfold Dev.log
  dsimp only
  split <;> simp only [Dev.raise_tly, Dev.bump_tly, Dev.setHdr_tly]
@[simp] theorem Dev.log_abx (d : Dev) (p : Page) (c k r t : Nat) (x : Bytes) : (d.log p c k r t x).abx = d.abx := by
  unfold Dev.log
  dsimp only
  split <;> simp only [Dev.raise_abx, Dev.bump_abx, Dev.setHdr_abx]
@[simp] theorem Dev.log_apu (d : Dev) (p : Page) (c k r t : Nat) (x : Bytes) : (d.log p c k r t x).apu = d.apu := by
  unfold Dev.log
  dsimp only
  split <;> simp only [Dev.raise_apu, Dev.bump_apu, Dev.setHdr_apu]
@[simp] theorem Dev.log_ess (d : Dev) (p : Page) (c k r t : Nat) (x : Bytes) : (d.log p c k r t x).ess = d.ess := by
  unfold Dev.log
  dsimp only
  split <;> simp only [Dev.raise_ess, Dev.bump_ess, Dev.setHdr_ess]
@[simp] theorem Dev.log_rkn (d : Dev) (p : Page) (c k r t : Nat) (x : Bytes) : (d.log p c k r t x).rkn = d.rkn := by
  unfold Dev.log
  dsimp only
  split <;> simp only [Dev.raise_rkn, Dev.bump_rkn, Dev.setHdr_rkn]
@[simp] theorem Dev.log_dec (d : Dev) (p : Page) (c k r t : Nat) (x : Bytes) : (d.log p c k r t x).dec = d.dec := by
  unfold Dev.log
  dsimp only
  split <;> simp only [Dev.raise_dec, Dev.bump_dec, Dev.setHdr_dec]
@[simp] theorem Dev.log_enc (d : Dev) (p : Page) (c k r t : Nat) (x : Bytes) : (d.log p c k r t x).enc = d.enc := by
  unfold Dev.log
  dsimp only
  split <;> simp only [Dev.raise_enc, Dev.bump_enc, Dev.setHdr_enc]
@[simp] theorem Dev.log_cmp (d : Dev) (p : Page) (c k r t : Nat) (x : Bytes) : (d.log p c k r t x).cmp = d.cmp := by
  unfold Dev.log
  dsimp only
  split <;> simp only [Dev.raise_cmp, Dev.bump_cmp, Dev.setHdr_cmp]
@[simp] theorem Dev.log_mrg (d : Dev) (p : Page) (c k r t : Nat) (x : Bytes) : (d.log p c k r t x).mrg = d.mrg := by
  unfold Dev.log
  dsimp only
  split <;> simp only [Dev.raise_mrg, Dev.bump_mrg, Dev.setHdr_mrg]
@[simp] theorem Dev.log_hold (d : Dev) (p : Page) (c k r t : Nat) (x : Bytes) : (d.log p c k r t x).hold = d.hold := by
  unfold Dev.log
  dsimp only
  split <;> simp only [Dev.raise_hold, Dev.bump_hold, Dev.setHdr_hold]
@[simp] theorem Dev.log_slw (d : Dev) (p : Page) (c k r t : Nat) (x : Bytes) : (d.log p c k r t x).slw = d.slw := by
  unfold Dev.log
  dsimp only
  split <;> simp only [Dev.raise_slw, Dev.bump_slw, Dev.setHdr_slw]
@[simp] theorem Dev.log_tgg (d : Dev) (p : Page) (c k r t : Nat) (x : Bytes) : (d.log p c k r t x).tgg = d.tgg := by
  unfold Dev.log
  dsimp only
  split <;> simp only [Dev.raise_tgg, Dev.bump_tgg, Dev.setHdr_tgg]
@[simp] theorem Dev.log_lfi (d : Dev) (p : Page) (c k r t : Nat) (x : Bytes) : (d.log p c k r t x).lfi = d.lfi := by
  unfold Dev.log
  dsimp only
  split <;> simp only [Dev.raise_lfi, Dev.bump_lfi, Dev.setHdr_lfi]
@[simp] theorem Dev.log_pwr (d : Dev) (p : Page) (c k r t : Nat) (x : Bytes) : (d.log p c k r t x).pwr = d.pwr := by
  unfold Dev.log
  dsimp only
  split <;> simp only [Dev.raise_pwr, Dev.bump_pwr, Dev.setHdr_pwr]
@[simp] theorem Dev.log_free (d : Dev) (p : Page) (c k r t : Nat) (x : Bytes) : (d.log p c k r t x).free = d.free := by
  unfold Dev.log
  dsimp only
  split <;> simp only [Dev.raise_free, Dev.bump_free, Dev.setHdr_free]

/-! ### A write ignored and logged -/

@[simp] theorem Dev.logIgnored_variant (d : Dev) (p : Page) (a : Nat) : (d.logIgnored p a).variant = d.variant := d.log_variant ..
@[simp] theorem Dev.logIgnored_staged (d : Dev) (p : Page) (a : Nat) : (d.logIgnored p a).staged = d.staged := d.log_staged ..
@[simp] theorem Dev.logIgnored_applied (d : Dev) (p : Page) (a : Nat) : (d.logIgnored p a).applied = d.applied := d.log_applied ..
@[simp] theorem Dev.logIgnored_loHeld (d : Dev) (p : Page) (a : Nat) : (d.logIgnored p a).loHeld = d.loHeld := d.log_loHeld ..
@[simp] theorem Dev.logIgnored_hiCaptured (d : Dev) (p : Page) (a : Nat) : (d.logIgnored p a).hiCaptured = d.hiCaptured := d.log_hiCaptured ..
@[simp] theorem Dev.logIgnored_tk (d : Dev) (p : Page) (a : Nat) : (d.logIgnored p a).tk = d.tk := d.log_tk ..
@[simp] theorem Dev.logIgnored_ldg (d : Dev) (p : Page) (a : Nat) : (d.logIgnored p a).ldg = d.ldg := d.log_ldg ..
@[simp] theorem Dev.logIgnored_wfg (d : Dev) (p : Page) (a : Nat) : (d.logIgnored p a).wfg = d.wfg := d.log_wfg ..
@[simp] theorem Dev.logIgnored_btc (d : Dev) (p : Page) (a : Nat) : (d.logIgnored p a).btc = d.btc := d.log_btc ..
@[simp] theorem Dev.logIgnored_qay (d : Dev) (p : Page) (a : Nat) : (d.logIgnored p a).qay = d.qay := d.log_qay ..
@[simp] theorem Dev.logIgnored_bwr (d : Dev) (p : Page) (a : Nat) : (d.logIgnored p a).bwr = d.bwr := d.log_bwr ..
@[simp] theorem Dev.logIgnored_bnd (d : Dev) (p : Page) (a : Nat) : (d.logIgnored p a).bnd = d.bnd := d.log_bnd ..
@[simp] theorem Dev.logIgnored_fry (d : Dev) (p : Page) (a : Nat) : (d.logIgnored p a).fry = d.fry := d.log_fry ..
@[simp] theorem Dev.logIgnored_tly (d : Dev) (p : Page) (a : Nat) : (d.logIgnored p a).tly = d.tly := d.log_tly ..
@[simp] theorem Dev.logIgnored_abx (d : Dev) (p : Page) (a : Nat) : (d.logIgnored p a).abx = d.abx := d.log_abx ..
@[simp] theorem Dev.logIgnored_apu (d : Dev) (p : Page) (a : Nat) : (d.logIgnored p a).apu = d.apu := d.log_apu ..
@[simp] theorem Dev.logIgnored_ess (d : Dev) (p : Page) (a : Nat) : (d.logIgnored p a).ess = d.ess := d.log_ess ..
@[simp] theorem Dev.logIgnored_rkn (d : Dev) (p : Page) (a : Nat) : (d.logIgnored p a).rkn = d.rkn := d.log_rkn ..
@[simp] theorem Dev.logIgnored_dec (d : Dev) (p : Page) (a : Nat) : (d.logIgnored p a).dec = d.dec := d.log_dec ..
@[simp] theorem Dev.logIgnored_enc (d : Dev) (p : Page) (a : Nat) : (d.logIgnored p a).enc = d.enc := d.log_enc ..
@[simp] theorem Dev.logIgnored_cmp (d : Dev) (p : Page) (a : Nat) : (d.logIgnored p a).cmp = d.cmp := d.log_cmp ..
@[simp] theorem Dev.logIgnored_mrg (d : Dev) (p : Page) (a : Nat) : (d.logIgnored p a).mrg = d.mrg := d.log_mrg ..
@[simp] theorem Dev.logIgnored_hold (d : Dev) (p : Page) (a : Nat) : (d.logIgnored p a).hold = d.hold := d.log_hold ..
@[simp] theorem Dev.logIgnored_slw (d : Dev) (p : Page) (a : Nat) : (d.logIgnored p a).slw = d.slw := d.log_slw ..
@[simp] theorem Dev.logIgnored_tgg (d : Dev) (p : Page) (a : Nat) : (d.logIgnored p a).tgg = d.tgg := d.log_tgg ..
@[simp] theorem Dev.logIgnored_lfi (d : Dev) (p : Page) (a : Nat) : (d.logIgnored p a).lfi = d.lfi := d.log_lfi ..
@[simp] theorem Dev.logIgnored_pwr (d : Dev) (p : Page) (a : Nat) : (d.logIgnored p a).pwr = d.pwr := d.log_pwr ..
@[simp] theorem Dev.logIgnored_free (d : Dev) (p : Page) (a : Nat) : (d.logIgnored p a).free = d.free := d.log_free ..

/-! ### An event that is logged -/

@[simp] theorem Dev.raiseLog_variant (d : Dev) (p : Page) (b k r t : Nat) (x : Bytes) : (d.raiseLog p b k r t x).variant = d.variant := (Dev.log_variant ..).trans (d.raise_variant p b)
@[simp] theorem Dev.raiseLog_staged (d : Dev) (p : Page) (b k r t : Nat) (x : Bytes) : (d.raiseLog p b k r t x).staged = d.staged := (Dev.log_staged ..).trans (d.raise_staged p b)
@[simp] theorem Dev.raiseLog_applied (d : Dev) (p : Page) (b k r t : Nat) (x : Bytes) : (d.raiseLog p b k r t x).applied = d.applied := (Dev.log_applied ..).trans (d.raise_applied p b)
@[simp] theorem Dev.raiseLog_loHeld (d : Dev) (p : Page) (b k r t : Nat) (x : Bytes) : (d.raiseLog p b k r t x).loHeld = d.loHeld := (Dev.log_loHeld ..).trans (d.raise_loHeld p b)
@[simp] theorem Dev.raiseLog_hiCaptured (d : Dev) (p : Page) (b k r t : Nat) (x : Bytes) : (d.raiseLog p b k r t x).hiCaptured = d.hiCaptured := (Dev.log_hiCaptured ..).trans (d.raise_hiCaptured p b)
@[simp] theorem Dev.raiseLog_tk (d : Dev) (p : Page) (b k r t : Nat) (x : Bytes) : (d.raiseLog p b k r t x).tk = d.tk := (Dev.log_tk ..).trans (d.raise_tk p b)
@[simp] theorem Dev.raiseLog_ldg (d : Dev) (p : Page) (b k r t : Nat) (x : Bytes) : (d.raiseLog p b k r t x).ldg = d.ldg := (Dev.log_ldg ..).trans (d.raise_ldg p b)
@[simp] theorem Dev.raiseLog_wfg (d : Dev) (p : Page) (b k r t : Nat) (x : Bytes) : (d.raiseLog p b k r t x).wfg = d.wfg := (Dev.log_wfg ..).trans (d.raise_wfg p b)
@[simp] theorem Dev.raiseLog_btc (d : Dev) (p : Page) (b k r t : Nat) (x : Bytes) : (d.raiseLog p b k r t x).btc = d.btc := (Dev.log_btc ..).trans (d.raise_btc p b)
@[simp] theorem Dev.raiseLog_qay (d : Dev) (p : Page) (b k r t : Nat) (x : Bytes) : (d.raiseLog p b k r t x).qay = d.qay := (Dev.log_qay ..).trans (d.raise_qay p b)
@[simp] theorem Dev.raiseLog_bwr (d : Dev) (p : Page) (b k r t : Nat) (x : Bytes) : (d.raiseLog p b k r t x).bwr = d.bwr := (Dev.log_bwr ..).trans (d.raise_bwr p b)
@[simp] theorem Dev.raiseLog_bnd (d : Dev) (p : Page) (b k r t : Nat) (x : Bytes) : (d.raiseLog p b k r t x).bnd = d.bnd := (Dev.log_bnd ..).trans (d.raise_bnd p b)
@[simp] theorem Dev.raiseLog_fry (d : Dev) (p : Page) (b k r t : Nat) (x : Bytes) : (d.raiseLog p b k r t x).fry = d.fry := (Dev.log_fry ..).trans (d.raise_fry p b)
@[simp] theorem Dev.raiseLog_tly (d : Dev) (p : Page) (b k r t : Nat) (x : Bytes) : (d.raiseLog p b k r t x).tly = d.tly := (Dev.log_tly ..).trans (d.raise_tly p b)
@[simp] theorem Dev.raiseLog_abx (d : Dev) (p : Page) (b k r t : Nat) (x : Bytes) : (d.raiseLog p b k r t x).abx = d.abx := (Dev.log_abx ..).trans (d.raise_abx p b)
@[simp] theorem Dev.raiseLog_apu (d : Dev) (p : Page) (b k r t : Nat) (x : Bytes) : (d.raiseLog p b k r t x).apu = d.apu := (Dev.log_apu ..).trans (d.raise_apu p b)
@[simp] theorem Dev.raiseLog_ess (d : Dev) (p : Page) (b k r t : Nat) (x : Bytes) : (d.raiseLog p b k r t x).ess = d.ess := (Dev.log_ess ..).trans (d.raise_ess p b)
@[simp] theorem Dev.raiseLog_rkn (d : Dev) (p : Page) (b k r t : Nat) (x : Bytes) : (d.raiseLog p b k r t x).rkn = d.rkn := (Dev.log_rkn ..).trans (d.raise_rkn p b)
@[simp] theorem Dev.raiseLog_dec (d : Dev) (p : Page) (b k r t : Nat) (x : Bytes) : (d.raiseLog p b k r t x).dec = d.dec := (Dev.log_dec ..).trans (d.raise_dec p b)
@[simp] theorem Dev.raiseLog_enc (d : Dev) (p : Page) (b k r t : Nat) (x : Bytes) : (d.raiseLog p b k r t x).enc = d.enc := (Dev.log_enc ..).trans (d.raise_enc p b)
@[simp] theorem Dev.raiseLog_cmp (d : Dev) (p : Page) (b k r t : Nat) (x : Bytes) : (d.raiseLog p b k r t x).cmp = d.cmp := (Dev.log_cmp ..).trans (d.raise_cmp p b)
@[simp] theorem Dev.raiseLog_mrg (d : Dev) (p : Page) (b k r t : Nat) (x : Bytes) : (d.raiseLog p b k r t x).mrg = d.mrg := (Dev.log_mrg ..).trans (d.raise_mrg p b)
@[simp] theorem Dev.raiseLog_hold (d : Dev) (p : Page) (b k r t : Nat) (x : Bytes) : (d.raiseLog p b k r t x).hold = d.hold := (Dev.log_hold ..).trans (d.raise_hold p b)
@[simp] theorem Dev.raiseLog_slw (d : Dev) (p : Page) (b k r t : Nat) (x : Bytes) : (d.raiseLog p b k r t x).slw = d.slw := (Dev.log_slw ..).trans (d.raise_slw p b)
@[simp] theorem Dev.raiseLog_tgg (d : Dev) (p : Page) (b k r t : Nat) (x : Bytes) : (d.raiseLog p b k r t x).tgg = d.tgg := (Dev.log_tgg ..).trans (d.raise_tgg p b)
@[simp] theorem Dev.raiseLog_lfi (d : Dev) (p : Page) (b k r t : Nat) (x : Bytes) : (d.raiseLog p b k r t x).lfi = d.lfi := (Dev.log_lfi ..).trans (d.raise_lfi p b)
@[simp] theorem Dev.raiseLog_pwr (d : Dev) (p : Page) (b k r t : Nat) (x : Bytes) : (d.raiseLog p b k r t x).pwr = d.pwr := (Dev.log_pwr ..).trans (d.raise_pwr p b)
@[simp] theorem Dev.raiseLog_free (d : Dev) (p : Page) (b k r t : Nat) (x : Bytes) : (d.raiseLog p b k r t x).free = d.free := (Dev.log_free ..).trans (d.raise_free p b)

end Sys2Proof.Machine
end

