-- ==== Sys2Proof/Laws/Reckoner.lean ====
section
/-!
SUPPORT. A Reckoner core: reads after writes of its registers, and the device after an instruction that completed.
-/

namespace Sys2Proof.Machine

/-! ### Registers -/

/-- What a register takes of a value written (R378, R379). -/
def rkTakes (n : Nat) (v : Half) : Half := if n = 34 ∨ n = 37 then guardPart v else if n = 38 then v &&& srMask else v

theorem RkCore.set_eq (c : RkCore) (n : Nat) (v : Half) : c.set n v = { c with regs := c.regs.setIfInBounds n (rkTakes n v) } := rfl

theorem RkCore.get_set_same (c : RkCore) (v : Half) {n : Nat} (h : n < 52) : (c.set n v).get n = rkTakes n v := by
  rw [RkCore.set_eq]
  unfold RkCore.get
  simp [h]

theorem RkCore.get_set_ne (c : RkCore) (v : Half) {n q : Nat} (h : q ≠ n) : (c.set n v).get q = c.get q := by
  rw [RkCore.set_eq]
  unfold RkCore.get RkCore.cyc
  simp only
  split
  · rename_i hq
    rw [Vector.getElem_setIfInBounds, if_neg (Ne.symm h)]
  · rfl

theorem RkCore.get_set (c : RkCore) (v : Half) {n : Nat} (h : n < 52) (q : Nat) :
    (c.set n v).get q = if q = n then rkTakes n v else c.get q := by
  split
  · next e => rw [e, RkCore.get_set_same c v h]
  · next e => exact RkCore.get_set_ne c v e

/-- A register that takes every value. -/
theorem rkTakes_plain {n : Nat} (v : Half) (h : n ≠ 34 ∧ n ≠ 37 ∧ n ≠ 38) : rkTakes n v = v := by
  unfold rkTakes
  rw [if_neg (by omega), if_neg h.2.2]

@[simp] theorem RkCore.set_num (c : RkCore) (n : Nat) (v : Half) : (c.set n v).num = c.num := Eq.trans rfl rfl
@[simp] theorem RkCore.set_mode (c : RkCore) (n : Nat) (v : Half) : (c.set n v).mode = c.mode := Eq.trans rfl rfl
@[simp] theorem RkCore.set_pc (c : RkCore) (n : Nat) (v : Half) : (c.set n v).pc = c.pc := Eq.trans rfl rfl
@[simp] theorem RkCore.set_branch (c : RkCore) (n : Nat) (v : Half) : (c.set n v).branch = c.branch := Eq.trans rfl rfl
@[simp] theorem RkCore.set_loads (c : RkCore) (n : Nat) (v : Half) : (c.set n v).loads = c.loads := Eq.trans rfl rfl
@[simp] theorem RkCore.set_ram (c : RkCore) (n : Nat) (v : Half) : (c.set n v).ram = c.ram := Eq.trans rfl rfl
@[simp] theorem RkCore.set_ops (c : RkCore) (n : Nat) (v : Half) : (c.set n v).ops = c.ops := Eq.trans rfl rfl
@[simp] theorem RkCore.set_request (c : RkCore) (n : Nat) (v : Half) : (c.set n v).request = c.request := Eq.trans rfl rfl
@[simp] theorem RkCore.set_dma (c : RkCore) (n : Nat) (v : Half) : (c.set n v).dma = c.dma := Eq.trans rfl rfl
@[simp] theorem RkCore.set_moved (c : RkCore) (n : Nat) (v : Half) : (c.set n v).moved = c.moved := Eq.trans rfl rfl

/-! ### Bits of sr -/

theorem RkCore.srBit_setSr (c : RkCore) (i j : Nat) (b : Bool) (h : srMask.getLsbD j = true) :
    (c.setSr i b).srBit j = if j = i then b else c.srBit j := by
  have hj : j < 16 := BitVec.lt_of_getLsbD h
  unfold RkCore.srBit RkCore.setSr
  rw [RkCore.get_set_same _ _ (by decide)]
  have t (v : Half) : rkTakes rSr v = v &&& srMask := by rfl
  rw [t]
  by_cases e : j = i
  · subst e; cases b <;> simp [h, hj]
  · have e' : i ≠ j := fun x => e x.symm
    cases b
    · simp [h, hj, e]
    · simp [h, BitVec.getLsbD_twoPow, e, e']

@[simp] theorem RkCore.get_setSr_ne (c : RkCore) (i : Nat) (b : Bool) {q : Nat} (h : q ≠ 38) : (c.setSr i b).get q = c.get q :=
  RkCore.get_set_ne _ _ h

@[simp] theorem RkCore.setSr_num (c : RkCore) (i : Nat) (b : Bool) : (c.setSr i b).num = c.num := c.set_num ..
@[simp] theorem RkCore.setSr_mode (c : RkCore) (i : Nat) (b : Bool) : (c.setSr i b).mode = c.mode := c.set_mode ..
@[simp] theorem RkCore.setSr_pc (c : RkCore) (i : Nat) (b : Bool) : (c.setSr i b).pc = c.pc := c.set_pc ..
@[simp] theorem RkCore.setSr_branch (c : RkCore) (i : Nat) (b : Bool) : (c.setSr i b).branch = c.branch := c.set_branch ..
@[simp] theorem RkCore.setSr_loads (c : RkCore) (i : Nat) (b : Bool) : (c.setSr i b).loads = c.loads := c.set_loads ..
@[simp] theorem RkCore.setSr_ram (c : RkCore) (i : Nat) (b : Bool) : (c.setSr i b).ram = c.ram := c.set_ram ..
@[simp] theorem RkCore.setSr_ops (c : RkCore) (i : Nat) (b : Bool) : (c.setSr i b).ops = c.ops := c.set_ops ..
@[simp] theorem RkCore.setSr_request (c : RkCore) (i : Nat) (b : Bool) : (c.setSr i b).request = c.request := c.set_request ..
@[simp] theorem RkCore.setSr_dma (c : RkCore) (i : Nat) (b : Bool) : (c.setSr i b).dma = c.dma := c.set_dma ..
@[simp] theorem RkCore.setSr_moved (c : RkCore) (i : Nat) (b : Bool) : (c.setSr i b).moved = c.moved := c.set_moved ..

/-! ### Flags -/

@[simp] theorem RkCore.setFlags_num (c : RkCore) (r : Half) (x y : Bool) : (c.setFlags r x y).num = c.num := by
  simp only [RkCore.setFlags, RkCore.setSr_num]
@[simp] theorem RkCore.setFlags_mode (c : RkCore) (r : Half) (x y : Bool) : (c.setFlags r x y).mode = c.mode := by
  simp only [RkCore.setFlags, RkCore.setSr_mode]
@[simp] theorem RkCore.setFlags_pc (c : RkCore) (r : Half) (x y : Bool) : (c.setFlags r x y).pc = c.pc := by
  simp only [RkCore.setFlags, RkCore.setSr_pc]
@[simp] theorem RkCore.setFlags_branch (c : RkCore) (r : Half) (x y : Bool) : (c.setFlags r x y).branch = c.branch := by
  simp only [RkCore.setFlags, RkCore.setSr_branch]
@[simp] theorem RkCore.setFlags_loads (c : RkCore) (r : Half) (x y : Bool) : (c.setFlags r x y).loads = c.loads := by
  simp only [RkCore.setFlags, RkCore.setSr_loads]
@[simp] theorem RkCore.setFlags_ram (c : RkCore) (r : Half) (x y : Bool) : (c.setFlags r x y).ram = c.ram := by
  simp only [RkCore.setFlags, RkCore.setSr_ram]
@[simp] theorem RkCore.setFlags_ops (c : RkCore) (r : Half) (x y : Bool) : (c.setFlags r x y).ops = c.ops := by
  simp only [RkCore.setFlags, RkCore.setSr_ops]
@[simp] theorem RkCore.setFlags_request (c : RkCore) (r : Half) (x y : Bool) : (c.setFlags r x y).request = c.request := by
  simp only [RkCore.setFlags, RkCore.setSr_request]
@[simp] theorem RkCore.setFlags_dma (c : RkCore) (r : Half) (x y : Bool) : (c.setFlags r x y).dma = c.dma := by
  simp only [RkCore.setFlags, RkCore.setSr_dma]
@[simp] theorem RkCore.setFlags_moved (c : RkCore) (r : Half) (x y : Bool) : (c.setFlags r x y).moved = c.moved := by
  simp only [RkCore.setFlags, RkCore.setSr_moved]

theorem RkCore.get_setFlags_ne (c : RkCore) (r : Half) (x y : Bool) {q : Nat} (h : q ≠ 38) :
    (c.setFlags r x y).get q = c.get q := by
  unfold RkCore.setFlags
  rw [RkCore.get_setSr_ne _ _ _ h, RkCore.get_setSr_ne _ _ _ h, RkCore.get_setSr_ne _ _ _ h, RkCore.get_setSr_ne _ _ _ h]

/-- The flags that an ALU instruction sets. -/
theorem RkCore.srBit_setFlags (c : RkCore) (r : Half) (x y : Bool) (j : Nat) (h : srMask.getLsbD j = true) :
    (c.setFlags r x y).srBit j =
      if j = srV then y else if j = srC then x else if j = srN then r.msb else if j = srZ then r == 0 else c.srBit j := by
  unfold RkCore.setFlags
  rw [RkCore.srBit_setSr _ _ _ _ h, RkCore.srBit_setSr _ _ _ _ h, RkCore.srBit_setSr _ _ _ _ h, RkCore.srBit_setSr _ _ _ _ h]

/-! ### The device after an instruction -/

theorem Dev.core_num (d : Dev) (n : Nat) : (d.core n).num = n := by
  unfold Dev.core
  cases h : d.rkn.cores.find? (·.num == n) with
  | none => rfl
  | some x => simpa using List.find?_some h

theorem Dev.core_setCore (d : Dev) (x : RkCore) : (d.setCore x).core x.num = x := by
  unfold Dev.core Dev.setCore
  have : (d.rkn.cores.filter fun y => y.num != x.num).find? (fun y => y.num == x.num) = none := by
    rw [List.find?_eq_none]
    intro y hy
    simpa using (List.mem_filter.1 hy).2
  simp [List.find?_append, this]

theorem Dev.core_setCore_ne (d : Dev) (x : RkCore) {m : Nat} (h : m ≠ x.num) : (d.setCore x).core m = d.core m := by
  have e : (d.setCore x).rkn.cores.find? (·.num == m) = d.rkn.cores.find? (·.num == m) := by
    unfold Dev.setCore
    simp only [List.find?_append, List.find?_filter]
    have hx : (x.num == m) = false := beq_eq_false_iff_ne.2 (Ne.symm h)
    have : [x].find? (fun y => y.num == m) = none := by simp [List.find?, hx]
    rw [this, Option.or_none]
    congr 1
    funext y
    by_cases e : y.num = m
    · subst e; simp [h]
    · simp [e]
  unfold Dev.core
  rw [e]
  rfl

/-- A calm core that completes an instruction and goes nowhere of its own: the next index, one cycle more. -/
theorem RkCore.complete_calm (c x : RkCore) (h : c.calm) (hp : x.pc = c.pc) (hl : x.loads = []) (hb : x.branch = none) :
    c.complete x none = ({ x with pc := rkIndex (c.pc + 1), branch := none, loads := [] } : RkCore).tick := by
  obtain ⟨h1, h2, h3, h4, h5⟩ := h
  have t (l : Nat) (hl : c.srBit (srLA l) = false) (y : RkCore) : c.loopTest y l = (y, none) := by
    unfold RkCore.loopTest RkCore.loopHit
    rw [hl]; rfl
  unfold RkCore.complete RkCore.advance
  simp only [t 1 h5, t 0 h4, h1, Option.isSome_none, Bool.false_eq_true, if_false]
  unfold RkCore.loadStep
  simp [hl, hp, hb]

/-- A calm core's instruction that completes, as the device takes it up. -/
theorem Dev.issue_calm (d : Dev) (n : Nat) (f : RkCore → RkStep) (x : RkCore) (h : d.ready n) (hf : f (d.core n) = .next x)
    (hp : x.pc = (d.core n).pc) (hl : x.loads = []) (hb : x.branch = none) (hr : x.request = none) :
    d.issue n f = d.setCore ({ x with pc := rkIndex ((d.core n).pc + 1), branch := none, loads := [] } : RkCore).tick := by
  obtain ⟨_, he, hc⟩ := h
  unfold Dev.issue
  rw [if_pos he, hf]
  unfold Dev.issued
  simp only [RkCore.complete_calm _ x hc hp hl hb]
  have : (({ x with pc := rkIndex ((d.core n).pc + 1), branch := none, loads := [] } : RkCore).tick).request = none := by
    unfold RkCore.tick
    split <;> exact hr
  rw [if_neg]
  unfold RkCore.open_
  rw [this]
  simp

@[simp] theorem RkCore.tick_get (c : RkCore) {q : Nat} (h : q < 52) : c.tick.get q = c.get q := by
  unfold RkCore.tick
  split
  · unfold RkCore.get; simp [h]
  · rfl

@[simp] theorem RkCore.tick_num (c : RkCore) : c.tick.num = c.num := by unfold RkCore.tick; split <;> rfl
@[simp] theorem RkCore.tick_pc (c : RkCore) : c.tick.pc = c.pc := by unfold RkCore.tick; split <;> rfl
@[simp] theorem RkCore.tick_ram (c : RkCore) : c.tick.ram = c.ram := by unfold RkCore.tick; split <;> rfl

/-- The registers below cyc depend on nothing else of a core. -/
theorem RkCore.get_congr {c e : RkCore} (h : c.regs = e.regs) {q : Nat} (hq : q < 52) : c.get q = e.get q := by
  unfold RkCore.get
  simp only [hq, dite_true, h]

/-- What setting core `n` leaves alone. -/
theorem Dev.onlyCore_setCore (d : Dev) (x : RkCore) : onlyCore x.num d (d.setCore x) :=
  ⟨rfl, rfl, fun _ h => d.core_setCore_ne x h⟩

/-- The device after an instruction that a calm core completes: one core is replaced, and that core is as the instruction left
it but for its pc, its cycles and its calm. -/
theorem Dev.issue_done (d : Dev) (n : Nat) (f : RkCore → RkStep) (x : RkCore) (h : d.ready n) (hf : f (d.core n) = .next x)
    (hn : x.num = n) (hp : x.pc = (d.core n).pc) (hl : x.loads = []) (hb : x.branch = none) (hr : x.request = none) :
    onlyCore n d (d.issue n f) ∧ ((d.issue n f).core n).pc = ((d.core n).pc + 1) % 8192 ∧
      ((d.issue n f).core n).ram = x.ram ∧ ∀ q, q < 52 → ((d.issue n f).core n).get q = x.get q := by
  rw [d.issue_calm n f x h hf hp hl hb hr]
  generalize hw : ({ x with pc := rkIndex ((d.core n).pc + 1), branch := none, loads := [] } : RkCore) = w
  have wr : w.regs = x.regs ∧ w.num = n ∧ w.ram = x.ram ∧ w.pc = rkIndex ((d.core n).pc + 1) := by
    subst hw
    exact ⟨rfl, hn, rfl, rfl⟩
  have e : (d.setCore w.tick).core n = w.tick := by
    have := d.core_setCore w.tick
    rwa [RkCore.tick_num, wr.2.1] at this
  rw [e]
  refine ⟨?_, ?_, ?_, fun q hq => ?_⟩
  · have := d.onlyCore_setCore w.tick
    rwa [RkCore.tick_num, wr.2.1] at this
  · rw [RkCore.tick_pc, wr.2.2.2]; rfl
  · rw [RkCore.tick_ram, wr.2.2.1]
  · rw [RkCore.tick_get _ hq, RkCore.get_congr wr.1 hq]

end Sys2Proof.Machine
end

