-- ==== Sys2Proof/Laws/Regs.lean ====
section
/-!
SUPPORT. Fields of words and registers: what a field reads after it, or another field or register, is written.
-/

namespace Sys2Proof.Machine

/-! ### Bits of a number -/

theorem bits_lt (n hi lo : Nat) : bits n hi lo < 2 ^ (hi + 1 - lo) := Nat.mod_lt _ (Nat.two_pow_pos _)

/-- The bits just put are the value's low bits. -/
theorem bits_putBits (n v : Nat) {hi lo : Nat} (h : lo ≤ hi) : bits (putBits n hi lo v) hi lo = v % 2 ^ (hi + 1 - lo) := by
  have e : hi + 1 = lo + (hi + 1 - lo) := by omega
  unfold bits putBits
  generalize hk : hi + 1 - lo = k at *
  rw [e, Nat.pow_add]
  have hp := Nat.two_pow_pos lo
  have : n / (2 ^ lo * 2 ^ k) * (2 ^ lo * 2 ^ k) + v % 2 ^ k * 2 ^ lo + n % 2 ^ lo =
      2 ^ lo * (2 ^ k * (n / (2 ^ lo * 2 ^ k)) + v % 2 ^ k) + n % 2 ^ lo := by
    simp only [Nat.mul_add]; ac_rfl
  rw [this, Nat.mul_add_div hp, Nat.div_eq_of_lt (Nat.mod_lt _ hp), Nat.add_zero, Nat.mul_add_mod, Nat.mod_mod]

/-- Bits put below others leave those. -/
theorem bits_putBits_above (n v : Nat) {hi lo h l : Nat} (e : hi < l) (g : lo ≤ hi) :
    bits (putBits n hi lo v) h l = bits n h l := by
  unfold bits
  congr 1
  have hl : l = hi + 1 + (l - (hi + 1)) := by omega
  have low : v % 2 ^ (hi + 1 - lo) * 2 ^ lo + n % 2 ^ lo < 2 ^ (hi + 1) := by
    have h1 : v % 2 ^ (hi + 1 - lo) + 1 ≤ 2 ^ (hi + 1 - lo) := Nat.mod_lt _ (Nat.two_pow_pos _)
    have h2 : n % 2 ^ lo < 2 ^ lo := Nat.mod_lt _ (Nat.two_pow_pos _)
    have h3 : (v % 2 ^ (hi + 1 - lo) + 1) * 2 ^ lo ≤ 2 ^ (hi + 1 - lo) * 2 ^ lo := Nat.mul_le_mul_right _ h1
    rw [← Nat.pow_add, show hi + 1 - lo + lo = hi + 1 by omega, Nat.add_mul, Nat.one_mul] at h3
    omega
  have : putBits n hi lo v / 2 ^ (hi + 1) = n / 2 ^ (hi + 1) := by
    unfold putBits
    rw [Nat.add_assoc, Nat.mul_comm, Nat.mul_add_div (Nat.two_pow_pos _), Nat.div_eq_of_lt low, Nat.add_zero]
  rw [hl, Nat.pow_add, ← Nat.div_div_eq_div_mul, this, Nat.div_div_eq_div_mul]

/-- Bits put above others leave those. -/
theorem bits_putBits_below (n v : Nat) {hi lo h l : Nat} (e : h < lo) (g : lo ≤ hi) :
    bits (putBits n hi lo v) h l = bits n h l := by
  unfold bits
  by_cases hl : l ≤ h
  · have key : putBits n hi lo v % 2 ^ lo = n % 2 ^ lo := by
      unfold putBits
      rw [show hi + 1 = (hi + 1 - lo) + lo by omega, Nat.pow_add]
      rw [show n / (2 ^ (hi + 1 - lo) * 2 ^ lo) * (2 ^ (hi + 1 - lo) * 2 ^ lo) + v % 2 ^ (hi + 1 - lo + lo - lo) * 2 ^ lo +
          n % 2 ^ lo = 2 ^ lo * (n / (2 ^ (hi + 1 - lo) * 2 ^ lo) * 2 ^ (hi + 1 - lo) + v % 2 ^ (hi + 1 - lo + lo - lo)) +
          n % 2 ^ lo by simp only [Nat.mul_add]; ac_rfl]
      rw [Nat.mul_add_mod, Nat.mod_mod]
    have cut : ∀ m : Nat, m / 2 ^ l % 2 ^ (h + 1 - l) = m % 2 ^ lo / 2 ^ l % 2 ^ (h + 1 - l) := by
      intro m
      have e2 : lo = l + ((h + 1 - l) + (lo - (h + 1))) := by omega
      have h1 : m % 2 ^ lo / 2 ^ l = m / 2 ^ l % 2 ^ ((h + 1 - l) + (lo - (h + 1))) := by
        conv => lhs; rw [e2, Nat.pow_add]
        exact Nat.mod_mul_right_div_self m (2 ^ l) _
      rw [h1, Nat.pow_add, Nat.mod_mul_right_mod]
    rw [cut, key, ← cut]
  · have : h + 1 - l = 0 := by omega
    rw [this, Nat.pow_zero, Nat.mod_one, Nat.mod_one]

/-- Putting bits into a number of 32 bits keeps it one. -/
theorem putBits_lt (n v : Nat) {hi lo : Nat} (hn : n < 2 ^ 32) (h : lo ≤ hi) (hh : hi < 32) : putBits n hi lo v < 2 ^ 32 := by
  have low : v % 2 ^ (hi + 1 - lo) * 2 ^ lo + n % 2 ^ lo < 2 ^ (hi + 1) := by
    have h1 : v % 2 ^ (hi + 1 - lo) + 1 ≤ 2 ^ (hi + 1 - lo) := Nat.mod_lt _ (Nat.two_pow_pos _)
    have h2 : n % 2 ^ lo < 2 ^ lo := Nat.mod_lt _ (Nat.two_pow_pos _)
    have h3 : (v % 2 ^ (hi + 1 - lo) + 1) * 2 ^ lo ≤ 2 ^ (hi + 1 - lo) * 2 ^ lo := Nat.mul_le_mul_right _ h1
    rw [← Nat.pow_add, show hi + 1 - lo + lo = hi + 1 by omega, Nat.add_mul, Nat.one_mul] at h3
    omega
  have top : n / 2 ^ (hi + 1) + 1 ≤ 2 ^ (32 - (hi + 1)) := by
    have : n / 2 ^ (hi + 1) < 2 ^ (32 - (hi + 1)) := by
      rw [Nat.div_lt_iff_lt_mul (Nat.two_pow_pos _), ← Nat.pow_add]
      rwa [show 32 - (hi + 1) + (hi + 1) = 32 by omega]
    exact this
  have h4 := Nat.mul_le_mul_right (2 ^ (hi + 1)) top
  rw [← Nat.pow_add, show 32 - (hi + 1) + (hi + 1) = 32 by omega, Nat.add_mul, Nat.one_mul] at h4
  unfold putBits
  omega

/-! ### Fields of a word -/

/-- The field just set. -/
theorem fld_withFld (w : Word) (v : Nat) {hi lo : Nat} (h : lo ≤ hi) (hh : hi < 32) :
    Word.fld (Word.withFld w hi lo v) hi lo = v % 2 ^ (hi + 1 - lo) := by
  unfold Word.fld Word.withFld
  rw [BitVec.toNat_ofNat, Nat.mod_eq_of_lt (putBits_lt _ _ w.isLt h hh), bits_putBits _ _ h]

/-- A field beside the one set. -/
theorem fld_withFld_off (w : Word) (v : Nat) {hi lo g f : Nat} (h : lo ≤ hi) (hh : hi < 32) (e : hi < f ∨ g < lo) :
    Word.fld (Word.withFld w hi lo v) g f = Word.fld w g f := by
  unfold Word.fld Word.withFld
  rw [BitVec.toNat_ofNat, Nat.mod_eq_of_lt (putBits_lt _ _ w.isLt h hh)]
  rcases e with e | e
  · exact bits_putBits_above _ _ e h
  · exact bits_putBits_below _ _ e h

theorem fld_lt (w : Word) (hi lo : Nat) : Word.fld w hi lo < 2 ^ (hi + 1 - lo) := bits_lt ..

/-! ### Registers -/

/-- The register just written. -/
theorem Dev.word_setWord (d : Dev) (a : Nat) (w : Word) : (d.setWord a w).word a = w :=
  getD_assocPut_same (resetWord a) a w d.regs

/-- Every other register. -/
theorem Dev.word_setWord_ne (d : Dev) {a x : Nat} (h : x ≠ a) (w : Word) : (d.setWord a w).word x = d.word x := by
  unfold Dev.word Dev.setWord RegFile.word RegFile.put
  rw [assoc?_assocPut_ne _ h]

/-- The field just set. -/
theorem Dev.get_set (d : Dev) (r : RegField) (v : Nat) (ix : List Nat) (h : r.lo ≤ r.hi) (hh : r.hi < 32) :
    (d.set r v ix).get r ix = v % 2 ^ (r.hi + 1 - r.lo) := by
  unfold Dev.get Dev.set
  rw [Dev.word_setWord, fld_withFld _ _ h hh]

/-- A field of another register. -/
theorem Dev.get_set_ne (d : Dev) (r q : RegField) (v : Nat) (ix jx : List Nat) (h : q.addrAt jx ≠ r.addrAt ix) :
    (d.set r v ix).get q jx = d.get q jx := by
  unfold Dev.get Dev.set
  rw [Dev.word_setWord_ne _ h]

/-- Another field of the same register. -/
theorem Dev.get_set_off (d : Dev) (r q : RegField) (v : Nat) (ix jx : List Nat) (h : r.lo ≤ r.hi) (hh : r.hi < 32)
    (e : r.hi < q.lo ∨ q.hi < r.lo) : (d.set r v ix).get q jx = d.get q jx := by
  by_cases a : q.addrAt jx = r.addrAt ix
  · unfold Dev.get Dev.set
    rw [a, Dev.word_setWord, fld_withFld_off _ _ h hh e]
  · exact d.get_set_ne r q v ix jx a

end Sys2Proof.Machine
end

