-- ==== Sys2Proof/Tests/Slice0.lean ====
section
/-!
SUPPORT. Tests: ill-formed commands, words of Reckoner instructions, one step here and there, and for every statement with
hypotheses a state and operands that meet them.
-/

namespace Sys2Proof.Tests

open Sys2Proof Machine

-- One theorem after another: the kernel's evaluations side by side take more memory than a checker may give them.
set_option Elab.async false

/-- A machine with nothing waiting, nothing burnt and the device `d`. -/
def st (d : Dev) : State := { pending := [], fuse := Fuse.factory .spt8832, dev := d }

/-- A device after reset with every domain on. -/
def dev0 : Dev := (Dev.fresh .spt8832).setWord 0x1C0044 0x1FFFFFE

/-- The same with device time anchored. -/
def dev1 : Dev := dev0.set Reg.tkp_ANCHORED 1


/-! ### Well-formedness: each check refuses an operand out of its range -/

theorem test_wf_time : ([.pauseExpired 0 0 2000000, .ref10mInEdge 65536 0, .tideBreak (2 ^ 64) 0 0, .tideBreak 0 0 (2 ^ 20),
    .edgeLoss 3 0, .tevtEdge 2 false 0 0 0] : List Instr).all (fun i => !i.wf) = true := by decide

theorem test_wf_numbers : ([.gateArm 0 2 0, .pauseExpired 0 8 0, .capture 256 false, .flowSkip 65536 0,
    .polBurstWrite 0 (2 ^ 24) 0, .ctxSet 0 (2 ^ 32)] : List Instr).all (fun i => !i.wf) = true := by decide

theorem test_wf_words : ([.setSend .pf [0, 0] (List.replicate 24 0), .tallyNodeGo [0], .routeSet 0 [0],
    .wrapSet .pf 0 [0], .setSend .pf [0, 0, 0] [0],
    .berthOpen (.pf 0) (List.replicate 8 0) [0]] : List Instr).all (fun i => !i.wf) = true := by decide

theorem test_wf_ledger : ([.admitStanding 4 (List.replicate 8 0), .wrapLock (.vf 65) 0, .drain (.pf 4) (List.replicate 8 0),
    .wfgCancel 32768, .withdraw 65536, .flush 4096, .btcTrangeWrite 64 0, .unbookedSubmit (.pf 0) (2 ^ 40),
    .drainExpire (2 ^ 25)] : List Instr).all (fun i => !i.wf) = true := by decide

theorem test_wf_ports : ([.gateEntry 16 0, .txtsPop 4, .linkChange 0 true false false 16, .fanLaunch 65536 0,
    .fanCopy 0 0 65536 0, .ferryQueueItem 0 (some 65536), .nhEntryWrite 0 4096 0 0, .tallyAgeDrop (2 ^ 18) 0,
    .rxFrame { lport := 0, bytes := [], frac := 65536 }] : List Instr).all (fun i => !i.wf) = true := by decide

theorem test_wf_audio_video : ([.talkFadeIn 4096, .xpRampEnd 8192 0, .abxMacFault 0 [8192], .xpRampEnd 0 64,
    .essAudioTx 64 0, .essVideoPktTx 8 0, .aes3CsApply 4, .aes3BlockRx 0 [] [] 0 true,
    .aes3BlockRx 0 (List.replicate 12 0) (List.replicate 12 0) 16 true, .clkLost 15 0, .asmTimeout 4096,
    .viewRead 256 0 false 0] : List Instr).all (fun i => !i.wf) = true := by decide

theorem test_wf_memory : ([.coreFault 1088, .dmaDone 0 4 0, .patrolScrub (2 ^ 40) {}, .retrain 64 true,
    .refreshRateRead 0 3, .holdWriteBlock 0 (List.replicate 65 0) hldPage 0,
    .patrolScrub 0 { errs := [(17, 1)] }] : List Instr).all (fun i => !i.wf) = true := by decide

theorem test_wf_mooring : ([.deltaEnd { tideLo := 2 ^ 32, claim := 0 } 0,
    .heartbeat { tideLo := 0, claim := 0 } ⟨256, 0, 0, true, 0⟩ 0,
    .joinReq { tideLo := 0, claim := 0 } [] 0] : List Instr).all (fun i => !i.wf) = true := by decide

theorem test_wf_slipway : ([.retire 16 0, .retire 0 2048, .fuseReadUser 32, .fuseDone [1024],
    .bootSelftestDone { failing := [(16, 0)] }, .lfiHoldTimeout 16 0 0] : List Instr).all (fun i => !i.wf) = true := by decide

theorem test_wf_host : ([.vfFlr 0, .vecRearm 2048 0, .vfRearm 1 32 0, .hostRingEnable 64 0, .bar2Access (2 ^ 34) 4 none,
    .bar2Access 0 4097 none, .loRead (2 ^ 32) 0,
    .pcieLinkChange 0 64] : List Instr).all (fun i => !i.wf) = true := by decide

theorem test_wf_bar2_data : bar2DataOk (some (List.replicate 4097 0)) = false := by
  show decide ((List.replicate 4097 (0 : BitVec 8)).length ≤ 4096) = false
  rw [List.length_replicate]; decide

theorem test_wf_power_and_pages : ([.domainOnDone 0, .domainOnDone 25, .evtForce ⟨.qay, 4⟩ 0, .softReset ⟨.vf, 1⟩,
    .cntClear 0, .tideBoundary { members := [{ member := 16 }] },
    .tideBoundary { units := [⟨0, 0, 8⟩] }] : List Instr).all (fun i => !i.wf) = true := by decide

/-! ### The words of Reckoner instructions, bit by bit from R382 -/

/-- The example of R383. -/
theorem test_word_mac : rkDecode 3 0x21114912 = some (.rkMac 3 false 2 2 true false (some ⟨2, 1, 1⟩)) := by decide
theorem test_word_add : rkDecode 0 0x00345800 = some (.rkAdd 0 3 4 5 true) := by decide
theorem test_word_cmp : rkDecode 0 0x0D067000 = some (.rkCmp 0 6 7) := by decide
theorem test_word_addi : rkDecode 0 0x1012FFFE = some (.rkAddi 0 1 2 0xFFFE) := by decide
theorem test_word_amovi : rkDecode 0 0x19501234 = some (.rkAmovi 0 5 0x1234) := by decide
theorem test_word_mva : rkDecode 0 0x31B7F000 = some (.rkMva 0 true 6 0x3F true) := by decide
theorem test_word_ld : rkDecode 0 0x408EE7FC = some (.rkLd 0 2 3 5 6 false 0x7FC) := by decide
theorem test_word_ble : rkDecode 0 0x56001234 = some (.rkBle 0 0x1234) := by decide
theorem test_word_loop : rkDecode 0 0x5AE581FF = some (.rkLoop 0 true (.imm 300) 0x1FF) ∧
    rkDecode 0 0x5A1C1000 = some (.rkLoop 0 false (.reg 7) 0x1000) := by decide
theorem test_word_movx : rkDecode 0 0x609AD000 = some (.rkMovx 0 38 45) := by decide
theorem test_word_dma : rkDecode 0 0x74980000 = some (.rkDma 0 2 3) := by decide
/-- Groups and functions that R382 and R383 reserve, and a bit that no format names. -/
theorem test_word_reserved : [0x80000000, 0x0E000000, 0x23000000, 0x76000000, 0x00000001].all
    (fun w => (rkDecode 0 w).isNone) = true := by decide
theorem test_word_table : decodeTableWord 32 0x21114912 = none := rfl

/-! ### Witnesses: the Reckoner -/

/-- Core 0 running an operation of 100 cycles, with registers to be changed. -/
def core0 : RkCore := { dev1.freshCore 0 with mode := .run, ops := [⟨0, 0, 100, 0, 0⟩] }

/-- The device with a core as it is given. -/
def rkDev (c : RkCore) : Dev := dev1.setCore c

/-- A state whose core 0 is ready. -/
def rk0 : State := st (rkDev core0)

theorem test_hyp_core_ready : rk0.dev.ready 0 :=
  ⟨by decide, by decide, by decide, by decide, by decide, by decide, by decide⟩

/-- ReckonerMac with a parallel load through a1 = 0x40. -/
theorem test_hyp_ReckonerMac : (st (rkDev (core0.set 17 0x40))).dev.ready 0 ∧ coreOk 0 = true ∧
    ∀ p, some (⟨2, 1, 1⟩ : RkPar) = some p →
      (((st (rkDev (core0.set 17 0x40))).dev.core 0).get (16 + p.pa.toNat)).getLsbD 0 = false := by
  refine ⟨⟨by decide, by decide, by decide, by decide, by decide, by decide, by decide⟩, by decide, ?_⟩
  intro p hp; cases hp; decide

/-- ReckonerCompareAndAccumulators: the largest SH that MVA takes. -/
theorem test_hyp_ReckonerCompareAndAccumulators : (24 : BitVec 6).toNat ≤ 24 := by decide +kernel

/-- ReckonerLoadsAndStores: a load, and stores at the last address below the information area. -/
theorem test_hyp_ReckonerLoadsAndStores :
    let c := (rkDev ((core0.set 16 0xFFBE).set 51 0x0100)).core 0
    (c.get 16).getLsbD 0 = false ∧ (∀ o ∈ c.ops, o.cyc + 3 ≤ o.limit) ∧ (c.get 51).getLsbD 0 = false ∧ (53 : BitVec 6).toNat < 54 ∧
      rkClassReg 2 3 = some 27 ∧ (c.get 16).toNat < 0xFFC0 ∧ (c.get 51 - 2).getLsbD 0 = false ∧
      (c.get 51 - 2).toNat < 0xFFC0 := by decide +kernel

/-- ReckonerControlFlow: END of an operation that is done, and a state for TAKE and one for RTI. -/
theorem test_hyp_ReckonerControlFlow_end :
    let c := rk0.dev.core 0
    (∀ o ∈ c.ops, o.cyc + 2 ≤ o.limit) ∧ c.ops = ⟨0, 0, 100, 0, 0⟩ :: [] ∧ c.branch = none ∧ c.atLoopEnd = false ∧ c.mode = .run ∧
      c.request = none ∧ (c.get 0).toNat % 256 ∈ [0x00, 0x01, 0x02, 0x22, 0x24] := by decide +kernel

/-- A slot of an unbooked DSP operation of task 1. -/
def taskSlot : Slot :=
  { num := 5, order := 7, owner := .tenant 0, tenant := 0, desc := [0x80000000, 0, 0, 0, 0, 0, 0, 0, 0, 0, 1, 0, 0, 0, 0, 0] }

/-- Pier 0 with an image of one DSP task at index 0x40, and that slot. -/
def takeDev : Dev :=
  let d := rkDev { core0 with request := some 7, mode := .handler }
  { d with rkn := { d.rkn with images := [(0, ⟨1, 0, [⟨0x40, 8, 50⟩], 0, 0, 0, 0, []⟩)] }
           wfg := { d.wfg with slots := [taskSlot] } }

theorem test_hyp_ReckonerControlFlow_take :
    coreOk 0 = true ∧ takeDev.executes 0 = true ∧ (takeDev.core 0).ops = ⟨0, 0, 100, 0, 0⟩ :: [] ∧ (takeDev.core 0).branch = none ∧
      (takeDev.core 0).atLoopEnd = false ∧ (takeDev.core 0).request = some 7 ∧ takeDev.slotByOrder 7 = some taskSlot ∧
      takeDev.slotTask taskSlot 0 = some ⟨0x40, 8, 50⟩ ∧ ([] : List RkOp).length < 2 := by decide +kernel

theorem test_hyp_ReckonerControlFlow_rti :
    let c := (rkDev { core0 with mode := .resume }).core 0
    (rkDev { core0 with mode := .resume }).executes 0 = true ∧ c.mode = .resume ∧ c.loads = [] ∧ (c.get 48).toNat % 4 = 0 ∧
      (c.get 48).toNat / 256 % 4 = 0 := by decide +kernel

/-- Core 0 at the last instruction of a loop of level 0 with `n` turns left. -/
def loopDev (n : Half) : Dev := rkDev (((core0.set 38 0x0100).set 39 n).set 41 0)

theorem test_hyp_ReckonerLoopsAndMoves (n : Half) (h : n = 1 ∨ n = 2) :
    (loopDev n).executes 0 = true ∧ ((loopDev n).core 0).branch = none ∧ ((loopDev n).core 0).loads = [] ∧
      ((loopDev n).core 0).request = none ∧ ((loopDev n).core 0).srBit 8 = true ∧ ((loopDev n).core 0).srBit 9 = false ∧
      (((loopDev n).core 0).get 41).toNat = ((loopDev n).core 0).pc := by
  rcases h with rfl | rfl <;> decide +kernel

theorem test_hyp_ReckonerLoopsAndMoves_registers :
    (rk0.dev.core 0).atLoopEnd = false ∧ (51 : BitVec 6).toNat < 52 ∧ (53 : BitVec 6).toNat < 54 := by decide +kernel

/-- ReckonerTraps: cores that the hypotheses allow, on which the conditions of `trapRows` are met in turn. -/
def trapCores : List RkCore :=
  [core0.set 17 1, { core0 with branch := some 9 }, core0.set 38 0x0100, (core0.set 38 0x0100).set 41 0, core0.set 17 0xFFC0,
   core0.set 0 0x7F]

theorem test_hyp_ReckonerTraps :
    ∀ c ∈ trapCores, (rkDev c).executes 0 = true ∧ ((rkDev c).core 0).ops = [⟨0, 0, 100, 0, 0⟩] ∧ ((rkDev c).core 0).mode = .run ∧
      ((rkDev c).core 0).request = none := by decide +kernel

theorem test_hyp_ReckonerTraps_rows :
    ((core0.set 17 1).get 17).getLsbD 0 = true ∧ (some 9 : Option Nat).isSome = true ∧
      (core0.set 38 0x0100).branch = none ∧ (core0.set 38 0x0100).srBit 8 = true ∧
      ((core0.set 38 0x0100).set 41 2).atLoopEnd = false ∧ ((core0.set 38 0x0100).set 41 0).atLoopEnd = true ∧
      core0.branch = none ∧ core0.atLoopEnd = false ∧
      ((core0.set 17 0xFFC0).get 17).getLsbD 0 = false ∧ 0xFFC0 ≤ ((core0.set 17 0xFFC0).get 17).toNat ∧
      ((core0.set 0 0x7F).get 0).toNat % 256 ∉ [0x00, 0x01, 0x02, 0x22, 0x24] := by decide +kernel

/-- ReckonerDma: a descriptor at the last address at which it lies below the information area. -/
theorem test_hyp_ReckonerDma :
    let c := (rkDev (core0.set 16 0xFFB0)).core 0
    c.dmaBusy 3 = false ∧ (c.get 16).getLsbD 0 = false ∧ (c.get 16 + 14).toNat < 0xFFC0 := by decide +kernel

/-! ### Witnesses: the Tide, the reference inputs, the Quays -/

theorem test_hyp_TideTurns : tideInOk {} = true := by decide

/-- TideCommandsAndRoles: operands at the ends of their ranges. -/
theorem test_hyp_TideCommandsAndRoles : phaseOk 1999999 = true ∧ tideOk (2 ^ 64 - 1) = true ∧ phase20Ok (2 ^ 20 - 1) = true ∧ 15 < 16 := by
  decide

/-- The three reference inputs in use, their last edges or Sync long ago. -/
def refDev : Dev :=
  let d := dev1.set Reg.tkp_SRC_OK 7
  { d with tk := { d.tk with lastSync := some (0, 1000), ref10m := ⟨some 0, some 0, false⟩, pps := ⟨some 0, some 0, false⟩,
                             tide := 5000 } }

theorem test_hyp_ReferenceInputs :
    let c := refDev.atPhase 0
    fracOk 65535 = true ∧ phaseOk 0 = true ∧ c.tk.pps.outside = false ∧ c.tk.lastSync = some (0, 1000) ∧
      0 + atLeast1 (c.get Reg.tkp_SYNC_LOSS) * 1000 ≤ c.ns ∧ c.tk.ref10m.expect = some 0 ∧
      0 + 2 * refPeriod + c.refWindow < c.ns * 65536 ∧ c.srcOk 1 = true ∧ c.tk.pps.expect = some 0 ∧
      0 + 2 * ppsPeriod + c.ppsWindow < c.ns * 65536 ∧ c.srcOk 2 = true := by decide +kernel

/-- ReferenceInputs: an edge in the window after one missed, and one outside it that shows a jump of a source in use. -/
theorem test_hyp_ReferenceInputs_edges :
    let d := refDev.set Reg.tkp_SRC_SEL 2
    let c := { d with tk := { d.tk with tide := 1000, pps := ⟨some 0, some 65536000, false⟩ } }
    edgeFits 0 ppsPeriod (refDev.atPhase 0).ppsWindow (5 * ppsPeriod) = some 5 ∧
      edgeFits 0 ppsPeriod c.ppsWindow (ppsPeriod / 2) = none ∧ c.selects 2 = true ∧
      c.ppsJumped 0 (ppsPeriod / 2) = true ∧ c.ppsJumped 0 (ppsPeriod + 65536000) = false := by decide +kernel

/-- TimeEventsAndPtp: an enabled edge of the shortest pulse, and PPS_OUT high for as long as it may be. -/
def evtDev : Dev :=
  let d := dev1.set Reg.tkp_TEVT_EN 8
  { d with tk := { d.tk with ppsHigh := some 0, tide := 1000 } }

theorem test_hyp_TimeEventsAndPtp :
    tevtInputOk 1 = true ∧ evtDev.get Reg.dev_DEV_STATE ≠ devEbb ∧ 20 ≤ 20 ∧
      bitAt (evtDev.get Reg.tkp_TEVT_EN) (2 * 1 + bitOf true) = true ∧
      (∀ x ∈ evtDev.hiCaptured, x.1 ≠ Reg.tkp_TEVT_FRAC.addr) ∧ (evtDev.atPhase 999000).tk.ppsHigh = some 0 ∧
      0 + clampN 1 999999 (evtDev.get Reg.tkp_PPS_WIDTH) * 1000 ≤ (evtDev.atPhase 999000).ns := by decide +kernel

/-- Port `l` of PTP with EN, a role and P2P, and a follow-up that has its timestamp. -/
def ptpDev (role p2p : Nat) : Dev :=
  let d := ((dev1.set Reg.tkp_PTP_EN 1 [15]).set Reg.tkp_PTP_ROLE role [15]).set Reg.tkp_PTP_P2P p2p [15]
  d.setPtpPort { d.ptpPort 15 with followUps := [⟨8, 1, some 5, 0, []⟩] }

theorem test_hyp_TimeEventsAndPtp_master :
    let c := (ptpDev 1 0).atPhase 0
    c.ptpIs 15 roleMaster = true ∧ c.ptpDue (c.ptpPort 15).lastSync (c.get Reg.tkp_PTP_LOG_SYNC [15]) = true ∧
      c.ptpDue (c.ptpPort 15).lastAnnounce (c.get Reg.tkp_PTP_LOG_ANNOUNCE [15]) = true ∧
      (c.ptpPort 15).followUps.find? (·.ts.isSome) = some ⟨8, 1, some 5, 0, []⟩ := by decide +kernel

theorem test_hyp_TimeEventsAndPtp_slave :
    let c := (ptpDev 2 0).atPhase 0
    let e := (ptpDev 2 1).atPhase 0
    c.ptpIs 15 roleSlave = true ∧ c.flag Reg.tkp_PTP_P2P [15] = false ∧
      c.ptpDue (c.ptpPort 15).lastDelay (c.get Reg.tkp_PTP_LOG_DELAY [15]) = true ∧
      e.flag Reg.tkp_PTP_EN [15] = true ∧ e.flag Reg.tkp_PTP_P2P [15] = true ∧ e.get Reg.tkp_PTP_ROLE [15] ≠ 0 ∧
      e.ptpDue (e.ptpPort 15).lastDelay (e.get Reg.tkp_PTP_LOG_DELAY [15]) = true := by decide +kernel

/-- A gate list whose start has come, pending on port 15. -/
def gateDev : Dev := (dev1.set Reg.qay_MODE 3 [3]).setPort { dev1.port 15 with pend := some (⟨1, 1000, 0, [(255, 1000)]⟩, 5000) }

theorem test_hyp_GateLists :
    15 < 16 ∧ 1 < 2 ∧ gateDev.live (qayPage 15) = true ∧ gateDev.portExists 15 = true ∧ dev1.portExists 15 = false ∧
      ((gateDev.atPhase 5000).port 15).pend = some (⟨1, 1000, 0, [(255, 1000)]⟩, 5000) ∧ 5000 ≤ (gateDev.atPhase 5000).ns := by
  decide +kernel

/-- Quay 0 in mode 1 with its port up and enabled, a frame in queue 7, a frame due for PFC, an old pause of priority 7. -/
def portDev : Dev :=
  let d := (((((dev1.set Reg.qay_MODE 1 [0]).set Reg.qay_LINK_UP 1 [0]).set Reg.qay_PORT_EN 1 (portIx 0)).set Reg.lfi_EN 0).set
    Reg.pwr_CLK_OK 0xFF).set Reg.qay_PFC_TX_EN 1 (portIx 0)
  let d := d.setPort { d.port 0 with
    txq := [[], [], [], [], [], [], [], [⟨List.replicate 60 0, some 3, .plain⟩]], xoff := [(3, 0)], rxbXoff := true, pfcDue := [(3, 65535)],
    pauses := [⟨7, 10 ^ 18, 0, false⟩] }
  { d with tk := { d.tk with tide := 10 ^ 6 } }

theorem test_hyp_PortsAndFlowControl :
    let c := portDev.atPhase 0
    let b := c.rxDrained 0
    (b.port 0).pfcDue ≠ [] ∧ c.portExists 0 = true ∧ c.flag Reg.qay_PORT_EN (portIx 0) = true ∧
      c.flag Reg.qay_PFC_TX_EN (portIx 0) = true ∧ dev1.flag Reg.qay_PFC_TX_EN (portIx 0) = false ∧ c.linkUp 0 = true ∧
      c.flag Reg.lfi_EN = false ∧ 7 < 8 ∧ c.pauseOf 0 7 = some ⟨7, 10 ^ 18, 0, false⟩ ∧
      atLeast1 (c.get Reg.wfg_PAUSE_LIMIT) * 1000000 ≤ c.ns - 0 ∧ 0 < 4 ∧ c.live ⟨.qay, 0⟩ = true ∧
      ∀ x ∈ c.hiCaptured, x.1 ≠ Reg.qay_TXTS_FRAC.addrAt [0] := by decide +kernel

/-- FrameStart: the port with nothing due for PFC and no pause. -/
def startDev : Dev := portDev.setPort { portDev.port 0 with pfcDue := [], pauses := [] }

theorem test_hyp_FrameStart :
    let c := (startDev.atPhase 0).rxDrained 0
    c.portExists 0 = true ∧ c.flag Reg.qay_PORT_EN (portIx 0) = true ∧ c.pfcReady 0 = false ∧ 7 < 8 ∧ c.eligible 0 7 65535 = true ∧
      (∀ p, p < 8 → 7 < p → c.eligible 0 p 65535 = false) ∧
      (c.port 0).txq.getD 7 [] = ⟨List.replicate 60 0, some 3, .plain⟩ :: [] ∧ (c.pauseOf 0 (c.txqPrio 0 7)).isSome = false ∧
      c.linkUp 0 = true ∧ c.outputsOpen = true ∧ c.flag Reg.lfi_EN = false ∧
      (c.qay.stamps.filter fun x => x.1 == 0 / 4).length < 64 := by decide +kernel

/-! ### Whole blocks reach Hold, whatever their bytes are: for witnesses whose bytes are free values -/

/-- A device whose Hold differs in what writes change. -/
def holdAs (d : Dev) (h : Hold) : Dev :=
  { d with hold := { d.hold with cells := h.cells, poison := h.poison, poisonLogged := h.poisonLogged, bad := h.bad,
                                 lastAccess := h.lastAccess } }

/-- What an access needs: it is not awake from self-refresh, and no injection is armed. -/
structure Steady (d : Dev) (a ch loc : Nat) : Prop where
  ready : d.holdNotReady (if d.get Reg.dev_DEV_STATE = 3 then none else d.holdPlace a) = false
  place : (if d.get Reg.dev_DEV_STATE = 3 then none else d.holdPlace a) = some (ch, loc)
  here : d.hold.lost.contains ch = false
  awake : d.get Reg.hld_CH_STATE [ch] ≠ 3
  calm : d.hold.injection = none

theorem steady_as {d : Dev} {a ch loc : Nat} (h : Hold) (s : Steady d a ch loc) : Steady (holdAs d h) a ch loc :=
  ⟨s.ready, s.place, s.here, s.awake, s.calm⟩

theorem access_steady {d : Dev} {a ch loc : Nat} (who : Page) (s : Steady d a ch loc) :
    ∃ h, d.holdAccess a who = (holdAs d h, .ok (ch, loc)) := by
  refine ⟨{ d.hold with lastAccess := assocSet ch d.ns d.hold.lastAccess }, ?_⟩
  unfold Dev.holdAccess
  extract_lets place
  have hr : d.holdNotReady place = false := s.ready
  have hp : place = some (ch, loc) := s.place
  rw [hr, hp]
  have hl := s.here
  have ha : ({ d with hold := { d.hold with lastAccess := assocSet ch d.ns d.hold.lastAccess } } : Dev).get Reg.hld_CH_STATE [ch] ≠ 3 :=
    s.awake
  dsimp only
  rw [if_neg (by decide), if_neg (by rw [hl]; decide), if_neg ha]
  rfl

theorem write_steady {d : Dev} {a ch loc : Nat} (b : Bytes) (who : Page) (h : b.length = 64) (s : Steady d a ch loc) :
    ∃ x, d.writeBlock a b who = (holdAs d x, none) := by
  obtain ⟨y, hy⟩ := access_steady who s
  have hw : (b.length == 64) = true := beq_iff_eq.2 h
  have hi : ∀ blk, (holdAs d y).inject ch blk true = (holdAs d y, 0) := by
    intro blk
    unfold Dev.inject
    rw [show (holdAs d y).hold.injection = none from s.calm]
  unfold Dev.writeBlock
  rw [hy]
  split
  · rename_i heq; cases heq
  rename_i x ch' loc' heq
  cases heq
  extract_lets blk whole store
  have ht : whole = true := hw
  rw [if_pos ht]
  refine ⟨{ y with cells := Memory.writeN y.cells a b, poison := if whole then y.poison.filter (· != blk) else y.poison,
                   poisonLogged := if whole then y.poisonLogged.filter (· != blk) else y.poisonLogged,
                   bad := assocDel blk y.bad }, ?_⟩
  show (store (holdAs d y), none) = _
  have hs : store (holdAs d y) = (match (holdAs d y).inject ch blk true with
    | (d, inj) =>
      { d with hold := { d.hold with
        cells := Memory.writeN d.hold.cells a b
        poison := if whole then d.hold.poison.filter (· != blk) else d.hold.poison
        poisonLogged := if whole then d.hold.poisonLogged.filter (· != blk) else d.hold.poisonLogged
        bad := if inj = 0 then assocDel blk d.hold.bad else assocSet blk inj d.hold.bad } }) := rfl
  rw [hs, hi]
  rfl

theorem fold_steady (who : Page) : ∀ (l : List (Nat × Bytes)) (d : Dev),
    (∀ x ∈ l, x.2.length = 64 ∧ ∃ ch loc, Steady d x.1 ch loc) →
    (l.foldl (fun (acc : Dev × Option HoldErr) x =>
      match acc with
      | (d, some e) => (d, some e)
      | (d, none) => d.writeBlock x.1 x.2 who) (d, none)).2 = none
  | [], _, _ => rfl
  | x :: t, d, h => by
    obtain ⟨hl, ch, loc, hs⟩ := h x (List.mem_cons_self ..)
    obtain ⟨y, hy⟩ := write_steady x.2 who hl hs
    rw [List.foldl_cons]
    show (t.foldl _ (d.writeBlock x.1 x.2 who)).2 = none
    rw [hy]
    refine fold_steady who t (holdAs d y) fun z hz => ?_
    obtain ⟨hl', ch', loc', hs'⟩ := h z (List.mem_cons_of_mem _ hz)
    exact ⟨hl', ch', loc', steady_as y hs'⟩

theorem split_all (a n : Nat) (b : Bytes) (hb : b.length = 64 * n) (ha : a % 64 = 0) :
    ∀ x ∈ splitBlocks a b, x.2.length = 64 ∧ ∃ k, k < n ∧ x.1 = a + 64 * k := by
  intro x hx
  unfold splitBlocks at hx
  rw [hb] at hx
  obtain ⟨blk, hblk, rfl⟩ := List.mem_map.1 hx
  unfold blocksOf at hblk
  split at hblk
  · cases hblk
  · obtain ⟨i, hi, rfl⟩ := List.mem_map.1 hblk
    rw [List.mem_range] at hi
    have hm : max a ((a / 64 + i) * 64) = a + 64 * i := by omega
    have hk : i < n := by omega
    have hj : min (a + 64 * n) ((a / 64 + i) * 64 + 64) - (a + 64 * i) = 64 := by omega
    dsimp only
    rw [hm]
    refine ⟨?_, i, hk, rfl⟩
    unfold slice
    rw [hj, List.length_take, List.length_drop, hb]
    omega

/-- A write of whole blocks that are mapped is complete. -/
theorem write_all (d : Dev) (a n : Nat) (b : Bytes) (who : Page) (hb : b.length = 64 * n) (ha : a % 64 = 0)
    (hs : ∀ k, k < n → ∃ ch loc, Steady d (a + 64 * k) ch loc) : (d.holdWrite a b who).2 = none :=
  fold_steady who _ d fun x hx => by
    obtain ⟨hl, k, hk, he⟩ := split_all a n b hb ha x hx
    rw [he]
    exact ⟨hl, hs k hk⟩

/-- `Steady` as a test on a device. -/
def steadyOk (d : Dev) (a : Nat) : Bool :=
  match (if d.get Reg.dev_DEV_STATE = 3 then none else d.holdPlace a) with
  | none => false
  | some (ch, loc) => !d.holdNotReady (some (ch, loc)) && !d.hold.lost.contains ch && d.get Reg.hld_CH_STATE [ch] != 3 &&
    d.hold.injection.isNone

theorem steady_of {d : Dev} {a : Nat} (h : steadyOk d a = true) : ∃ ch loc, Steady d a ch loc := by
  unfold steadyOk at h
  split at h
  · cases h
  · rename_i ch loc hp
    simp only [Bool.and_eq_true, Bool.not_eq_true', bne_iff_ne, ne_eq, Option.isNone_iff_eq_none] at h
    exact ⟨ch, loc, ⟨by rw [hp]; exact h.1.1.1, hp, h.1.1.2, h.1.2, h.2⟩⟩

theorem length_padTo (n : Nat) (b : Bytes) : (padTo n b).length = n := by
  unfold padTo
  rw [List.length_append, List.length_take, List.length_replicate]
  omega

/-! ### Witnesses: the Ledger, the Wharfinger, queues -/

/-- A device whose Hold serves requests: it is initialised and region 0 maps 64 MiB. -/
def holdDev : Dev :=
  let d := (((dev1.set Reg.hld_EN 1).set Reg.hld_INIT_DONE 1).set Reg.dev_STEP 9).set Reg.dev_DEV_STATE 1
  (d.set Reg.hld_REG_VALID 1 [0]).set Reg.hld_REG_SIZE 64 [0]

/-- The same with words in Hold at an address. -/
def withWords (d : Dev) (a : Nat) (ws : List Word) : Dev :=
  { d with hold := { d.hold with cells := Memory.writeN d.hold.cells a (bytesOfWords ws) } }

/-- A Manifest of one CRY operation of 64 bytes, of the PF, released every Tide. -/
def cryHeader : List Word := [0x4D4E0100, 1, 0, 0, 0, 0, 0, 0, 0, 0, 0, 0, 0, 0, 0, 0]
def cryDesc : List Word := [0xA4000101, 0xFFFFFFFF, 0, 0, 0, 0, 0x03FFFFFF, 0, 0, 0, 64, 0, 0, 0, 0, 0]

/-- A device with that Manifest at 0x1000, ready for an admission. -/
def admDev : Dev :=
  withWords ((((holdDev.set Reg.ldg_ADMIT_EN 1).set Reg.bnd_EN 1).set Reg.ldg_COUNT 1 [7]).set Reg.ldg_CAP 1000000 [7]) 0x1000
    (cryHeader ++ cryDesc)

/-- The words of ADMIT_STANDING that name it. -/
def admWords : List Word := [0, 0x1000, 0, 1, 0, 0, 0, 0]

/-- A device whose port is BUSY, the device once the port holds the command, once it has read the Manifest, and what it found. -/
def busyDev (d : Dev) (p : Nat) : Dev := { d with ldg := { d.ldg with busy := p :: d.ldg.busy } }
def admGo : Dev := (busyDev (admDev.ldgPosted 1 3 admWords) 3).wakeChannels
def admChecked : Checked := ⟨[cryDesc], [], 0, none, true, true, 0⟩
def admRead : Dev := ((admGo.holdWords 0x1000 32 ldgPage).1.readLayouts admChecked.ops).1

theorem ok_of {ε α : Type} {x : Except ε α} {v : α} (h : x.toOption = some v) : x = .ok v := by
  cases x <;> cases h; rfl

theorem pair_of {α β : Type} {p : α × β} {b : β} (h : p.2 = b) : p = (p.1, b) := by cases h; rfl

theorem test_hyp_LedgerAdmits_search : ∃ bs, admRead.search admChecked (admRead.manifestStart (admGo.admitWords 3))
    (admRead.manifestStart (admGo.admitWords 3) + wfld (admGo.admitWords 3) 6 6 0) = .ok bs := by
  have h : (admRead.search admChecked (admRead.manifestStart (admGo.admitWords 3))
    (admRead.manifestStart (admGo.admitWords 3) + wfld (admGo.admitWords 3) 6 6 0)).isOk = true := by decide +kernel
  revert h
  generalize admRead.search admChecked _ _ = x
  intro h
  cases x with
  | ok bs => exact ⟨bs, rfl⟩
  | error e => cases h

theorem test_hyp_LedgerAdmits : words8Ok admWords = true ∧ admDev.live ldgPage = true ∧ admDev.flag Reg.ldg_ADMIT_EN = true ∧
    admDev.anchored = true ∧ 3 ∉ admDev.ldg.busy ∧ 3 ∈ admGo.ldg.busy ∧ ∃ c m bs, ManifestFits admGo (admGo.admitWords 3) true c m bs := by
  refine ⟨by decide +kernel, by decide +kernel, by decide +kernel, by decide +kernel, by decide +kernel, by decide +kernel,
    admRead, admChecked, ?_⟩
  obtain ⟨bs, h⟩ := test_hyp_LedgerAdmits_search
  refine ⟨bs, ⟨⟨(admGo.holdWords 0x1000 32 ldgPage).1, cryHeader ++ cryDesc, [], ?_, ?_, ?_, rfl, ?_, ?_, ?_, ?_⟩, ?_, ?_, ?_, ?_, ?_, h, ?_⟩⟩
  · have e : wfld (admGo.admitWords 3) 1 31 8 * 256 + 2 ^ 32 * wfld (admGo.admitWords 3) 2 7 0 = 0x1000 ∧
        16 * (min 256 (wfld (admGo.admitWords 3) 3 8 0) + 1) = 32 := by decide +kernel
    rw [e.1, e.2]
    exact pair_of (ok_of (by decide +kernel))
  · unfold admRead; exact pair_of (by decide +kernel)
  · decide +kernel
  · decide +kernel
  · decide +kernel
  · decide +kernel
  · decide +kernel
  · decide +kernel
  · intro b t hb; cases hb
  · decide +kernel
  · decide +kernel
  · decide +kernel
  · decide +kernel

/-- LedgerCommands: a port, a pinned row and a fan list to reserve for. -/
def resDev : Dev :=
  let d := (((admDev.set Reg.qay_MODE 1 [0]).set Reg.fry_CELL 300 [0]).set Reg.fry_FAN_SLOT_SIZE 64)
  let d := ([8, 9, 10] : List Nat).foldl (fun d k => d.set Reg.ldg_COUNT 1 [k]) d
  let d := d.setRow 9 ((Row.zero.set RowF.STATE stLive).set RowF.PINNED 1)
  { d with fry := { d.fry with fans := [⟨5, 1, 0, 0, [], none⟩] } }

/-- A reservation of row 9 and one of fan list 5, both on port 0. -/
def resRow : List Word := [0, 9, 1000, 1480, 1, 0, 1000, 0]
def resFan : List Word := [0, 5, 1000, 0x800005C8, 100, 0, 1000, 0]

/-- The device once a port holds the command. -/
def resGo (w : List Word) : Dev := (busyDev (resDev.ldgPosted 3 0 w) 0).wakeChannels

theorem test_hyp_LedgerCommands_row : ReserveFits (resGo resRow) ((resGo resRow).admitWords 0) := by
  refine ⟨by decide +kernel, ?_, by decide +kernel, by decide +kernel, ?_, by decide +kernel⟩
  · rw [show (reserveOf ((resGo resRow).admitWords 0)).fan = false by decide +kernel]; decide +kernel
  · rw [show (reserveOf ((resGo resRow).admitWords 0)).fan = false by decide +kernel]; intro h; cases h

theorem test_hyp_LedgerCommands_fan : ReserveFits (resGo resFan) ((resGo resFan).admitWords 0) := by
  refine ⟨by decide +kernel, ?_, by decide +kernel, by decide +kernel, ?_, by decide +kernel⟩
  · rw [show (reserveOf ((resGo resFan).admitWords 0)).fan = true by decide +kernel]
    intro f hf
    rw [show (resGo resFan).fan? (reserveOf ((resGo resFan).admitWords 0)).target = some ⟨5, 1, 0, 0, [], none⟩ by decide +kernel] at hf
    cases hf; decide +kernel
  · intro _; decide +kernel

theorem test_hyp_LedgerCommands : words8Ok resRow = true ∧ resDev.live ldgPage = true ∧ resDev.flag Reg.ldg_ADMIT_EN = true ∧
    resDev.anchored = true ∧ 0 ∉ resDev.ldg.busy ∧ handleOk 65535 = true := by decide +kernel

/-- UnbookedOperations: a descriptor of an unbooked CRY at 0x2000. -/
def cryLoose : List Word := [0xA8000000, 0xFFFFFFFF, 0, 0, 0, 0, 0x03FFFFFF, 0, 0, 0, 64, 0, 0, 0, 0, 0]
def subDev : Dev :=
  ((withWords admDev 0x2000 cryLoose).set Reg.wfg_SUBMIT_DESC_LO 0x2000 [3]).set Reg.wfg_SUBMIT_DESC_HI 0 [3]

theorem test_hyp_UnbookedOperations_submit : ∃ c, SubmitFits subDev 0x2000 0 cryLoose c ∧ (∀ y ∈ c.wfg.slots, y.order < c.wfg.order) ∧
    ∀ y ∈ c.wfg.stalled, y.frees ≠ some c.wfg.order := by
  refine ⟨((subDev.holdWords 0x2000 16 wfgPage).1.readLayouts [cryLoose]).1,
    ⟨by decide, ⟨(subDev.holdWords 0x2000 16 wfgPage).1, [], ?_, ?_, ?_, ?_⟩, ?_, ?_⟩, ?_, ?_⟩
  · exact pair_of (ok_of (by decide +kernel))
  · exact pair_of (by decide +kernel)
  all_goals decide +kernel

/-- An unbooked CRY in slot 4, its instance in a state. -/
def looseSlot (x : InstState) : Slot :=
  { num := 4, order := 0, owner := .tenant 0, desc := cryLoose, tenant := 0,
    inst := some ⟨1, 0, 0, 100, x, if x = .running then some ⟨7, 0⟩ else none, 0, 0, [], [], false, 0, true, [], none⟩ }
def looseDev (x : InstState) : Dev :=
  let d := (withWords admDev 0 []).set Reg.bnd_EN 1
  { d with tk := { d.tk with tide := 10 ^ 6 }, wfg := { d.wfg with slots := [looseSlot x], order := 1 } }

theorem test_hyp_UnbookedOperations (x : InstState) (h : x = .ready ∨ x = .running) :
    (looseDev x).live wfgPage = true ∧ descAddrOk (2 ^ 40 - 1) = true ∧ slotOk 4 = true ∧
      (looseDev x).slotNow? 4 = some (looseSlot x) ∧ (looseSlot x).admitted = false ∧ ((looseSlot x).inst.map (·.state)) = some x ∧
      (looseSlot x).submitTide + 16 * atLeast1 ((looseDev x).get Reg.wfg_UNBOOKED_TIMEOUT) ≤ (looseDev x).tide := by
  rcases h with rfl | rfl <;> decide +kernel

/-- EngineRuns: an idle CRY lane takes the ready operation; one that runs is ended. -/
theorem test_hyp_EngineRuns_start : ∃ i,
    let c := (looseDev .ready).atPhase 0
    unitIndexOk 0 = true ∧ c.unitTakes ⟨7, 0⟩ = true ∧ c.runningOn ⟨7, 0⟩ = none ∧ c.home ⟨7, 0⟩ = some ⟨7, 0⟩ ∧
      c.nextFor ⟨7, 0⟩ = some (looseSlot .ready) ∧ (looseSlot .ready).inst = some i ∧ Desc.inQueue (looseSlot .ready).desc = none ∧
      Desc.kind (looseSlot .ready).desc ∈ [0x9, 0xA] ∧ looseSlot .ready ∈ c.wfg.slots :=
  ⟨⟨1, 0, 0, 100, .ready, none, 0, 0, [], [], false, 0, true, [], none⟩, by decide +kernel⟩

theorem test_hyp_EngineRuns_complete : ∃ i,
    let c := (looseDev .running).atPhase 0
    c.slot? 4 = some (looseSlot .running) ∧ (looseSlot .running).inst = some i ∧ i.state = .running ∧ i.engine = some ⟨7, 0⟩ ∧
      (c.opResult ⟨7, 0⟩ (looseSlot .running) i .plain).isSome = true :=
  ⟨⟨1, 0, 0, 100, .running, some ⟨7, 0⟩, 0, 0, [], [], false, 0, true, [], none⟩, by decide +kernel⟩

/-- QueueCommands: queue 9, enabled, with a producer that waits for room in lane 2, and a flow that waits for number 5. -/
def waitDev : Dev :=
  let d := (dev1.set Reg.wfg_Q_EN 1 [9]).set Reg.wfg_QSPILL_SIZE 64 [9]
  { d with wfg := { d.wfg with stalled := [⟨9, { words := [0x40000000, 0, 0, 0, 0, 0, 0, 0] }, false, none⟩],
                               flows := [⟨7, .adm 1, 5, [], false⟩] } }

theorem test_hyp_QueueCommands : ∃ x,
    waitDev.live wfgPage = true ∧ (∀ y ∈ waitDev.wfg.stalled, y.queue ≠ 8) ∧ waitDev.wfg.stalled = [x] ∧ x.queue = 9 ∧
      x.egress = false ∧ x.frees = none ∧ x.item.type ≠ 1 ∧ x.item.prio < 8 ∧ (waitDev.queue 9).lanes.length = 8 ∧
      x.item.prio ∉ (waitDev.queue 9).dropping ∧ waitDev.flag Reg.wfg_Q_EN [9] = true ∧ waitDev.openRoom 9 1 = true ∧
      waitDev.flow? 7 = some ⟨7, .adm 1, 5, [], false⟩ :=
  ⟨⟨9, { words := [0x40000000, 0, 0, 0, 0, 0, 0, 0] }, false, none⟩, by decide +kernel⟩

/-- TMARK3 is low while a queue mapped to it is ABOVE_HIGH (R125), and no other pin is. -/
theorem test_tmark_low :
    let d := (waitDev.set Reg.wfg_TMARK_EN 1 [9]).set Reg.wfg_TMARK_PIN 3 [9]
    let e : Dev := { d with wfg := { d.wfg with queues := [⟨9, [], none, [], true⟩] } }
    e.tmarkLow 3 = true ∧ e.tmarkLow 2 = false ∧ d.tmarkLow 3 = false := by decide +kernel

/-! ### Witnesses: the Berth Table, the Breakwater, the Bond -/

/-- A device with row 7 as it is given, its commands open. -/
def btcDev (r : Row) : Dev := ((dev1.set Reg.btc_EN 1).set Reg.btc_PIN_ROWS 16384).setRow 7 r

/-- A HST row of TENANT 0 in a state, and the words of a command to row 7 with LINE_MASK 1. -/
def hstRow (st : Nat) : Row := (Row.zero.set RowF.STATE st).set RowF.CLASS classHst
def btcWords : List Word := [1, 7, 0, 0, 0, 0, 0, 0]
def btcImg : List Word := (hstRow 0).words

/-- The commands to the Berth Table with a row of a state that they take (R147). -/
def btcGood : List (Nat × Row) :=
  [(1, hstRow 0), (2, hstRow 2), (3, hstRow 1), (4, hstRow 2), (5, hstRow 2), (6, hstRow 5), (7, hstRow 3), (8, hstRow 4), (9, hstRow 2),
   (10, (Row.zero.set RowF.STATE stLive)), (11, (hstRow 2).set RowF.PINNED 1), (12, hstRow 2), (13, hstRow 2), (14, hstRow 2)]

/-- RowStates, RowContents: each command is accepted on its row, by the last port of the PF. -/
theorem test_hyp_RowStates : ∀ x ∈ btcGood, btcStaged btcWords = false ∧
    let c := (btcDev x.2).btcPosted x.1 (.pf 3) btcWords (some btcImg)
    c.btcRefusal (.pf 3) (opWords x.1 btcWords) (c.btcImage (.pf 3)) = none ∧
      c.btcShared (.pf 3) (opWords x.1 btcWords) (c.btcImage (.pf 3)) = none := by decide +kernel

theorem test_hyp_RowStates_none : ∀ x ∈ btcGood, 2 < x.1 →
    let c := (btcDev x.2).btcPosted x.1 (.pf 3) btcWords none
    c.btcRefusal (.pf 3) (opWords x.1 btcWords) (c.btcImage (.pf 3)) = none ∧
      c.btcShared (.pf 3) (opWords x.1 btcWords) (c.btcImage (.pf 3)) = none := by decide +kernel

theorem whole_of (r : Row) (h : r.words.length = 64 ∧ r.annex.length = 32) : r.whole := h

theorem rows_wf_of (d : Dev) (h : keysRise d.btc.rows = true ∧ ∀ x ∈ d.btc.rows, x.2.words.length = 64 ∧ x.2.annex.length = 32) :
    d.rowsWf := ⟨h.1, fun x hx => whole_of x.2 (h.2 x hx)⟩

theorem test_hyp_RowContents : btcPortOk (.pf 3) = true ∧ words8Ok btcWords = true ∧ words64Ok btcImg = true ∧
    (btcDev (hstRow 2)).grants (BtcPort.fn (.pf 3)) btcPage ∧ (btcDev (hstRow 2)).rowsWf ∧ (btcDev (hstRow 2)).hold.poison = [] ∧
    (btcDev (hstRow 2)).get Reg.btc_PIN_ROWS ≤ 262144 :=
  ⟨by decide, by decide, by decide +kernel, ⟨by decide +kernel, fun v h => by cases h⟩, rows_wf_of _ (by decide +kernel),
    by decide +kernel, by decide +kernel⟩

/-- The last VF, given to tenant 63. -/
def vfDev (d : Dev) : Dev := d.set Reg.gwy_VF_TENANT 63 [63]

theorem test_hyp_RowContents_vf : btcPortOk (.vf 64) = true ∧ (vfDev (btcDev (hstRow 2))).grants (BtcPort.fn (.vf 64)) btcPage :=
  ⟨by decide, by decide +kernel, fun v h => by cases h; decide +kernel⟩

/-- BtcRefusals: a command that its row's state refuses, and one that is staged. -/
theorem test_hyp_BtcRefusals :
    (let c := (btcDev (hstRow 4)).btcPosted 3 (.pf 3) btcWords none
     c.btcRefusal (.pf 3) (opWords 3 btcWords) (c.btcImage (.pf 3)) = some .refusedParam) ∧
    (let ws : List Word := [0x00010001, 7, 5, 0, 0, 0, 0, 0]
     let c := (btcDev (hstRow 2)).btcPosted 4 (.pf 3) ws none
     c.btcRefusal (.pf 3) (opWords 4 ws) (c.btcImage (.pf 3)) = none ∧ btcStaged ws = true ∧
      ((btcDev (hstRow 2)).btc.staged.filter fun x => x.berth != btcBerth ws).length < 16384) := by decide +kernel

/-- BerthRegisters, RowsStayWhole: a row that has begun to drain. -/
def drainDev : Dev := { btcDev (hstRow 3) with btc := { (btcDev (hstRow 3)).btc with drainSince := [(7, 0)] } }

theorem test_hyp_BerthRegisters : berthOk 7 = true ∧ drainDev.rowsWf ∧ assoc? 7 drainDev.btc.drainSince = some 0 ∧
    drainDev.rowState 7 = stDraining ∧ drainDev.follows = false ∧ drainDev.live btcPage = true ∧ tenantOk 63 = true :=
  ⟨by decide, rows_wf_of _ (by decide +kernel), by decide +kernel, by decide +kernel, by decide +kernel, by decide +kernel, by decide⟩

theorem test_hyp_RowsStayWhole : ∃ t, exec (.btcPinRowsWrite 0) (st drainDev) = .next t := by
  have h : (match exec (.btcPinRowsWrite 0) (st drainDev) with | .next _ => true | _ => false) = true := by decide +kernel
  revert h
  cases exec (.btcPinRowsWrite 0) (st drainDev) with
  | next t => exact fun _ => ⟨t, rfl⟩
  | fault _ => exact fun h => nomatch h
  | refused _ => exact fun h => nomatch h

/-! #### The Breakwater -/

/-- The headers and the payload of an RTP packet to port 5006 of 10.0.0.1. -/
def rtpHead : Headers :=
  { dst := [0x33, 0, 0, 0, 0, 1], src := [2, 0, 0, 0, 0, 2], vlan := none, v6 := false, ipSrc := [10, 0, 0, 2], ipDst := [10, 0, 0, 1],
    dscp := 0, ttl := 64, sport := 5004, dport := 5006, csum4 := true }
def rtpPkt : Bytes := [0x80, 96, 0, 1, 0, 0, 0, 0, 0x11, 0x22, 0x33, 0x44, 1, 2, 3, 4, 5, 6, 7, 8]
def rtpFrame : RxFrame := { lport := 0, bytes := frameOf rtpHead rtpPkt }

/-- The row that the packet is for, in a state. -/
def rtpRow (state : Nat) : Row :=
  (((((Row.zero.set RowF.STATE state).set RowF.REMOTE_PORT 5004).set RowF.LOCAL_PORT 5006).set RowF.LOCAL_ADDR 5).set
    RowF.RX_SSRC 0x11223344).setBytes 0x18 [10, 0, 0, 2]

/-- A device that the packet names row 7 of, in a state. -/
def rtpDev (state role : Nat) : Dev :=
  let d := (((portDev.set Reg.bwr_LADDR_VALID 1 [0, 5]).set Reg.bwr_LADDR_ADDR 0x0100000A [0, 5, 0]).set Reg.mrg_ROLE role).set
    Reg.btc_EN 1
  d.setRow 7 (rtpRow state)

/-- RxFrames: each of its cases is met by a frame on the port. -/
theorem test_hyp_RxFrames :
    let c := portDev.atPhase 1999999
    rxInOk { lport := 0, bytes := withFcs rtpFrame.bytes, phase := 1999999 } = true ∧ c.portExists 0 = true ∧
      c.flag Reg.qay_PORT_EN (portIx 0) = true ∧ c.linkUp 0 = true ∧ ¬c.rxShare 0 < 0 + c.maxFrame 0 ∧
      c.rxShare 0 < 10 ^ 7 + c.maxFrame 0 ∧ c.flag Reg.lfi_EN = false ∧ 64 ≤ (withFcs rtpFrame.bytes).length ∧
      (withFcs rtpFrame.bytes).length ≤ c.maxFrame 0 := by decide +kernel

/-- BreakwaterReasons: a device whose first pipe has failed, and each verdict the statement speaks of. -/
def pipeDev : Dev := { portDev with slw := { portDev.slw with units := [(⟨ukBwr, 0⟩, { fault := true })] } }

theorem test_hyp_BreakwaterReasons :
    pipeDev.live bwrPage = true ∧ pipeDev.inService ⟨ukBwr, 0⟩ = false ∧ (rtpDev 2 0).inService ⟨ukBwr, 0⟩ = true ∧
      (rtpDev 2 0).live bwrPage = true ∧
      ((rtpDev 2 0).verdict { lport := 0, bytes := List.replicate 60 1 }).1 = .host .l2Other 0 noBerth ∧
      ((rtpDev 2 0).verdict { lport := 0, bytes := frameOf rtpHead [] }).1 = .drop .badPayload ∧
      ((rtpDev 2 2).verdict rtpFrame).1 = .rtp 7 rtpPkt ∧ (rtpDev 2 2).outputsOpen = false ∧
      ((rtpDev 3 0).verdict rtpFrame).1 = .rtp 7 rtpPkt ∧ (rtpDev 3 0).outputsOpen = true ∧ (rtpDev 3 0).rowState 7 ≠ stLive ∧
      (rtpDev 3 0).bufRoom ((rtpDev 3 0).maxFrame 0) = true ∧
      { portDev with wfg := { portDev.wfg with queues := [⟨9, [[{ words := [], entry := some (1, 2 ^ 26) }]], none, [], true⟩] } }.bufRoom
        64 = false := by decide +kernel

/-- KeyframesPolicersConsent: a request in the FIFO, and a row whose consent is lost. -/
def kfrDev : Dev := { rtpDev 2 0 with bwr := { (rtpDev 2 0).bwr with kfr := [(true, 7)] } }.set Reg.bwr_SWEEP_EN 1

theorem test_hyp_KeyframesPolicersConsent :
    berthOk (2 ^ 25 - 1) = true ∧ kfrDev.live bwrPage = true ∧ kfrDev.rowsWf ∧ kfrDev.bwr.kfr = (true, 7) :: [] ∧
      kfrDev.bwr.kfrSent < kfrDev.get Reg.bwr_KFR_PER_TIDE ∧ halfOk 65535 = true ∧ rate24Ok (2 ^ 24 - 1) = true ∧
      kfrDev.flag Reg.bwr_SWEEP_EN = true ∧ kfrDev.flag Reg.btc_EN = true ∧ ((kfrDev.atPhase 0).fetch 7 [0, 3]).2 = [] ∧
      kfrDev.follows = false ∧
      assoc? 7 kfrDev.bwr.swept ≠ some (kfrDev.tide / kfrDev.consentSweepTides) ∧
      kfrDev.anchor (kfrDev.row 7).transport = some 7 ∧ kfrDev.consentLost 7 = true :=
  ⟨by decide, by decide +kernel, rows_wf_of _ (by decide +kernel), by decide +kernel, by decide +kernel, by decide, by decide,
    by decide +kernel, by decide +kernel, by decide +kernel, by decide +kernel, by decide +kernel⟩

/-! #### The Bond -/

/-- A LIVE row of class FWD whose tenant's wrapping key is set, the Bond and Hold in service, the Berth Table far up. -/
def keyDev : Dev :=
  let d := (((holdDev.set Reg.bnd_EN 1).set Reg.btc_ROW_BASE (2 ^ 20)).set Reg.btc_ANNEX_BASE (2 ^ 21)).setRow 7
    (Row.zero.set RowF.STATE stLive)
  { d with bnd := { slots := [(0, ⟨List.replicate 32 1 ++ List.replicate 32 2, true, false⟩)] } }

/-- The words of a key command: PROFILE 1 or an ICE password of 22 bytes, row 7; for WRAP an address. -/
def keyWords (op : Nat) : List Word := [if op = 4 then 0x00160000 else 1, 7, 0x30]

/-- Its data: keys of 16 bytes with salts of 14 at each half's head, a password of 22 bytes, a key block of 16. -/
def keyData (op : Nat) : List Word :=
  if op = 4 then wordsOf 24 (List.replicate 22 7 ++ List.replicate 74 0)
  else if op = 5 then wordsOf 24 (List.replicate 16 7 ++ List.replicate 16 0 ++ [16] ++ List.replicate 63 0)
  else List.replicate 24 0

theorem test_hyp_KeySets : ∀ op ∈ [1, 2, 3, 4, 5],
    let c := keyDev.keyPosted op .pf (keyWords op) (keyData op)
    words3Ok (keyWords op) = true ∧ words24Ok (keyData op) = true ∧ (c.keyArgs .pf).op = op ∧ c.keyRefusal .pf (c.keyArgs .pf) = none := by
  decide +kernel

theorem test_hyp_KeySets_device : fnOk .pf = true ∧ keyDev.grants .pf bndPage ∧ keyDev.rowsWf :=
  ⟨by decide, ⟨by decide +kernel, fun v h => by cases h⟩, rows_wf_of _ (by decide +kernel)⟩

theorem test_hyp_WrappingKeys_refused :
    (let c := keyDev.keyPosted 1 .pf [0, 7, 0] (keyData 1)
     c.keyRefusal .pf (c.keyArgs .pf) = some .refusedParam) ∧ tenantOk 63 = true ∧ words16Ok (List.replicate 16 0) = true := by
  decide +kernel

/-- WrappingKeys: WRAP's block reaches Hold, whatever its bytes are. -/
theorem test_hyp_WrappingKeys (b : Bytes) (h : b.length = 64) :
    let c := keyDev.keyPosted 5 .pf (keyWords 5) (keyData 5)
    (c.holdWrite (c.keyArgs .pf).out b bndPage).2 = none := by
  intro c
  have hs : ∀ k, k < 1 → steadyOk c ((c.keyArgs .pf).out + 64 * k) = true := by decide +kernel
  exact write_all c _ 1 b bndPage h (by decide +kernel) fun k hk => steady_of (hs k hk)

/-! ### Witnesses: the Ferry, the Tally -/

/-- Two LIVE rows, one of them a receiver, and a fan list; its packet has a copy due on port 0 in a segment. -/
def fryDev : Dev :=
  let d := ((((portDev.setRow 7 (rtpRow 2)).setRow 8 (Row.zero.set RowF.STATE stLive)).set Reg.fry_FB_EN 1).set Reg.fry_SR_EN 1).set
    Reg.btc_EN 1
  let item : Item := { words := [0x18000008, 0, 0x100, 7, 0, 0, 0, 0], data := [0x81, 206, 0, 2, 0, 0, 0, 0] }
  let rx : RxRec := { berth := 7, group := 3, est := 7, share := 100, stream := 0, curValid := true }
  { d with
    fry := { d.fry with
      fans := [⟨5, 1, 0, 0, [], none⟩, ⟨6, 1, 0, 0, [⟨rtpPkt, 0⟩], none⟩], recs := [(7, rx)],
      segs := [⟨6, 0, 1, [0], 2083, 1, 300, 1480, 1, [(4, 7)], []⟩],
      launches := [⟨6, 0, ⟨rtpPkt, 0⟩, [⟨0, 4, 7, 0⟩]⟩] }
    wfg := { d.wfg with queues := [⟨9, [[item], [], [], [], [], [], [], []], none, [], false⟩] } }.set Reg.bwr_FB_QUEUE 9

/-- The Ferry's commands, each with words that it takes. -/
def fryGood : List (Nat × List Word) :=
  [(1, [0, 65535, 0, 0, 0x0078, 0, 0, 0]), (2, [0, 5, 0, 0, 0, 0, 0, 0]), (3, [0, 16383, 0, 0, 0x8000000F, 7, 1000, 0]),
   (4, [0, 7, 0, 0, 0, 0, 0, 0]), (5, [0, 7, 0, 0, 0, 0, 0, 0]), (6, [0, 8, 0, 0, 3, 0x03FFFFFF, 0x64000000, 0]),
   (7, [0, 7, 0, 0, 0, 0x03FFFFFF, 0, 0]), (8, [0, 7, 0, 0, 0, 0, 0, 0]), (9, [0, 7, 0, 0, 0, 0, 0, 0])]

theorem test_hyp_FerryCommands : ∀ x ∈ fryGood,
    (fryDev.setWords (fryPortAddr 1) (opWords x.1 x.2)).fryRefusal (opWords x.1 x.2) = none ∧ btcStaged (opWords x.1 x.2) = false ∧
      words8Ok x.2 = true := by decide +kernel

theorem test_hyp_FerryCommands_device : pairOk 1 = true ∧ fryDev.live fryPage = true ∧ fryDev.flag Reg.fry_CMD_BUSY [1] = false ∧
    (assoc? 1 fryDev.fry.used).getD 0 < 1000 := by decide +kernel

/-- A route that reaches Hold. -/
theorem test_hyp_FerryCommands_route :
    (let w := opWords 4 [0, 7, 0, 0, 0, 0, 0, 0]
     let d := holdDev.set Reg.fry_ROUTE_BASE 1
     (d.setWords (fryPortAddr 1) w).fryRefusal w = none ∧
      (((d.setWords (fryPortAddr 1) w).holdWrite (0x10000 + 16 * 7) (bytesOfWords [0, 0, 0, 0]) fryPage).2 = none)) := by decide +kernel

/-- Refused: a fan list without a launch interval. Staged: ROUTE_CLEAR for Tide 5. -/
theorem test_hyp_FerryCommands_others :
    (let w := opWords 1 [0, 65535, 0, 0, 0, 0, 0, 0]
     (fryDev.setWords (fryPortAddr 1) w).fryRefusal w = some .refusedParam) ∧
    (let w := opWords 5 [0x00010000, 7, 5, 0, 0, 0, 0, 0]
     (fryDev.setWords (fryPortAddr 1) w).fryRefusal w = none ∧ btcStaged w = true ∧
      (fryDev.fry.staged.filter fun y => y.key != fryKey w).length < 4096) := by decide +kernel

theorem test_hyp_FerryFansAndServices_launch :
    let c := fryDev.atPhase 1999999
    fanOk 65535 = true ∧ phaseOk 1999999 = true ∧ c.fan? 6 = some ⟨6, 1, 0, 0, [⟨rtpPkt, 0⟩], none⟩ ∧ c.tide % 1 = 0 ∧
      (none : Option Nat) ≠ some c.tide := by decide +kernel

theorem test_hyp_FerryFansAndServices_copy : ∃ h,
    let c := fryDev.atPhase 0
    lportOk 15 = true ∧ fanSlotOk 65535 = true ∧ c.fanDue? 6 0 5 = none ∧
      c.fanDue? 6 0 4 = some (⟨6, 0, ⟨rtpPkt, 0⟩, [⟨0, 4, 7, 0⟩]⟩, ⟨0, 4, 7, 0⟩) ∧
      c.seg? 6 0 = some ⟨6, 0, 1, [0], 2083, 1, 300, 1480, 1, [(4, 7)], []⟩ ∧ rtpOf rtpPkt = some h ∧ c.rowsWf :=
  ⟨⟨false, 96, 1, 0, 0x11223344, [], 12⟩, by decide, by decide, by decide +kernel, by decide +kernel, by decide +kernel,
    by decide +kernel, rows_wf_of _ (by decide +kernel)⟩

theorem test_hyp_FerryFansAndServices_item : queueOk 4095 = true ∧ (fryDev.take 9).2.isSome = true ∧
    ((fryDev.take 9).2.map fun i => ((fryDev.take 9).1.itemBytes i fryPage).2.isSome) = some true := by decide +kernel

theorem test_hyp_FerryFansAndServices_feedback :
    let c := fryDev.atPhase 0
    c.live fryPage = true ∧ c.flag Reg.fry_FB_EN = true ∧
      (c.take (c.get Reg.bwr_FB_QUEUE)).2.map (fun i => (i.berth, feedbackKind i.data)) = some (7, some false) ∧
      c.rowGet 7 RowF.CLASS = classFwd ∧ (c.rec? 7).isSome = true := by decide +kernel

theorem test_hyp_FerryFansAndServices_sweep :
    let c := fryDev.atPhase 0
    c.live fryPage = true ∧ c.flag Reg.fry_SR_EN = true ∧ c.flag Reg.btc_EN = true ∧ c.follows = false ∧ (c.fetch 7 [0, 1, 2, 3]).2 = [] ∧
      assoc? 7 c.fry.srSent ≠ some (c.tide / max 256 (c.get Reg.fry_SR_INTERVAL)) ∧ (c.row 7).get RowF.CLASS ≠ classLsn ∧
      portDev.flag Reg.fry_SR_EN = false ∧ quayOk 3 = true ∧ nhIndexOk 4095 = true := by decide +kernel

/-- A node of the Tally whose copy waits for port 0. -/
def tlyDev : Dev :=
  let d := (portDev.set Reg.tly_EN 1).setPort { portDev.port 0 with txq := [[], [], [], [], [], [], [], []] }
  { d with tly := { d.tly with svcs := [(8, { TallyNode.new with fifo := [⟨⟨List.replicate 60 0, none, .plain⟩, 7, 0⟩] })],
                               robin := [8] } }

theorem test_hyp_TallyNodes :
    lportOk 0 = true ∧ tlyDev.flag Reg.tly_EN = true ∧ tlyDev.live tlyPage = true ∧ tlyDev.inService ⟨ukTly, 0⟩ = true ∧
      tlyDev.portExists 0 = true ∧ tlyDev.txBytes 0 < tlyDev.bPort 0 ∧ tlyDev.nextWaiting 0 = some (0, 8) ∧
      (tlyDev.svcNode 8).fifo = ⟨⟨List.replicate 60 0, none, .plain⟩, 7, 0⟩ :: [] ∧
      { tlyDev with tly := { tlyDev.tly with robin := [] } }.nextWaiting 0 = none ∧ subNodeOk (2 ^ 18 - 1) = true ∧
      eightOk 7 = true ∧ words7Ok [0, 0, 0, 0, 0, 0, 0] = true := by decide +kernel

/-! ### Witnesses: the Abacus, the APU -/

/-- A Basin with a swap on its way, an input, a mix of it, an entry that is being cleared. -/
def abxDev (stage : Nat) : Dev :=
  let z : Swap := ⟨1, some 3, none, 0, stage⟩
  let b : Basin := { args := [0, 0, 0, 0], tenant := 0, k := 2, mixBase := 16, hyst := 0, floor := 0, lead := 1, hold := 1, ramp := 1,
                     gain := 65536, slots := [], swaps := [z] }
  let d := withWords holdDev 0x5000 (List.replicate 41 0 ++ [0x10] ++ List.replicate 22 0)
  { d with
    tk := { d.tk with tide := 1000 }
    abx := { d.abx with
      basins := [(5, b)], inputs := [(3, { args := [0, 5, 0x3FF] })], mixes := [(100, { args := some [5, 0, 0, 0] })],
      entries := [(64 * 100 + 2, ⟨[0, 0, 0, 0], 3, false, 0, 0, 0, 1, true⟩)] } }

/-- The Abacus's commands, each with words that it takes. -/
def abxGood : List (Nat × List Word) :=
  [(1, [0, 4095, 0, 0, 0, 0, 0, 0]), (2, [0, 4095, 0, 0, 0, 5, 0x3FF, 0]), (3, [0, 8191, 0, 0, 5, 65536, 0, 0]),
   (4, [0, 64 * 100 + 2, 0, 0, 0x40000003, 0, 0, 0]), (5, [0, 64 * 100 + 2, 0, 0, 0x40000000, 0, 0, 0]),
   (6, [0, 511, 0, 0, 0x50, 0, 0, 0]), (7, [0, 5, 0, 0, 0, 0, 0, 0])]

/-- The block of parameters that DRESS_SET reads. -/
def dressBlock (op : Nat) : List Word := if op = 6 then List.replicate 41 0 ++ [0x10] ++ List.replicate 22 0 else []

theorem test_hyp_AbacusCommands : ∀ x ∈ abxGood,
    let v := opWords x.1 x.2
    let c := (abxDev 0).setWords (abxPortAddr 1) v
    let got := if x.1 = 6 then c.holdWords (256 * wfld v 4 31 0) 64 abxPage else (c, .ok [])
    words8Ok x.2 = true ∧ got.2.toOption = some (dressBlock x.1) ∧ got.1.abxRefusal (v ++ dressBlock x.1) false = none ∧
      btcStaged v = false := by decide +kernel

/-- Refused: an input of a Basin that is not set. Staged: INPUT_SET for Tide 5. Unreadable: DRESS_SET of a block outside Hold. -/
theorem test_hyp_AbacusCommands_others :
    pairOk 1 = true ∧ (abxDev 0).live abxPage = true ∧
    (abxDev 0).abxRefusal (opWords 2 [0, 1, 0, 0, 0, 6, 0x3FF, 0] ++ []) false = some .refusedParam ∧
    (let w := opWords 2 [0x00010000, 1, 5, 0, 0, 5, 0x3FF, 0] ++ []
     (abxDev 0).abxRefusal w false = none ∧ btcStaged w = true ∧
      ((abxDev 0).abx.staged.filter fun y => y.key != abxKey w).length < 8192) ∧
    ((abxDev 0).holdWords (256 * 0xFFFFFFFF) 64 abxPage).2.isOk = false := by decide +kernel

/-- A change that waits for its boundary: each of the five the statement speaks of, on the records it names. -/
theorem test_hyp_AbacusCommands_change :
    ∀ op ∈ [2, 3, 4, 5, 6], btcOp (opWords op [0, 64 * 100 + 2, 0, 0, 0x40000003, 0, 0, 0]) = op ∧
      (assoc? (64 * xpMix [0, 64 * 100 + 2] + xpEntry [0, 64 * 100 + 2]) (abxDev 0).abx.entries).isSome = true := by decide +kernel

theorem test_hyp_AbacusCommands_swap : ∀ n ∈ [0, 1], basinOk 5 = true ∧ ((abxDev n).abx.basins.map (·.1)) = [5] ∧
    ((assoc? 5 (abxDev n).abx.basins).bind fun b => b.swaps.find? fun y => y.stage == 0 && decide (y.at_ + b.lead ≤ (abxDev n).tide)) =
      (if n = 0 then some ⟨1, some 3, none, 0, 0⟩ else none) ∧
    ((assoc? 5 (abxDev n).abx.basins).bind fun b =>
      b.swaps.find? fun y => y.stage == 1 && decide (y.at_ + b.lead + b.ramp ≤ (abxDev n).tide)) =
      (if n = 1 then some ⟨1, some 3, none, 0, 1⟩ else none) ∧
    mixOk 100 = true ∧ entryOk 2 = true ∧
    assoc? (64 * 100 + 2) (abxDev n).abx.entries = some ⟨[0, 0, 0, 0], 3, false, 0, 0, 0, 1, true⟩ := by decide +kernel

theorem test_hyp_ClockMonitors : monitorOk 14 = true ∧ fracOk 65535 = true ∧ phaseOk 1999999 = true := by decide

/-- A monitor that acquired its clock and has missed edges since, of a member of an alignment group. -/
def monDev : Dev :=
  let d := (dev1.set Reg.apu_MON_STATE 2 [0]).set Reg.apu_EN 1
  { d with apu := { d.apu with mons := [⟨0, some 5⟩] }, tk := { d.tk with tide := 1000 } }

theorem test_hyp_ClockMonitors_lost :
    let c := monDev.atPhase 0
    c.monOn 0 = true ∧ c.monLast 0 = some 5 ∧ c.get Reg.apu_MON_STATE [0] ≠ 3 ∧ ¬c.ns * 65536 ≤ 5 + 3 * c.monPeriod 0 + c.monPeriod 0 / 8 ∧
      (dev1.set Reg.apu_MON_STATE 1 [0]).get Reg.apu_MON_STATE [0] = 1 ∧ dev1.monOn 0 = false := by decide +kernel

theorem test_hyp_AudioPorts : aesOk 3 = true ∧ aesBlockOk (List.replicate 12 0) = true ∧ rateCodeOk 15 = true ∧ eightOk 7 = true ∧
    audioFlowOk 63 = true ∧ phaseOk 1999999 = true ∧ dev1.live essPage = true := by decide +kernel

/-! ### Witnesses: video -/

/-- A device with a decode context, a Survey context, a tail and a view, all numbered 9, its control pages enabled, zeros in
Hold but for the parameters of a Survey context at 0x6400 and those of a view at 0x6800; view 9 feeds flow 0. -/
def vidDev : Dev :=
  let d := (((((holdDev.set Reg.decCtl_EN 1).set Reg.encCtl_EN 1).set Reg.cmpCtl_EN 1).set Reg.encCtl_FB_EN 1).set
    Reg.encCtl_FB_QUEUE 9).set Reg.ess_VTX_EN 1 [0]
  let d := withWords (withWords d 0x6400 [0x00400040, 0x00020100, 1000]) 0x6800 [0x00400040, 0x02000000, 1000]
  let item : Item := { words := [0x18000008, 0, 0x100, 7, 0, 0, 0, 0], data := [0x81, 206, 0, 2, 0, 0, 0, 0] }
  let asm : Slot := { num := 4, order := 2, owner := .tenant 0, tenant := 0,
                      desc := [0x08000000, 0xFFFFFFFF, 0, 0, 0, 9, 0, 0, 0, 0, 0, 0, 0, 0, 0, 0] }
  { d with
    dec := { d.dec with ctxs := [(9, { params := List.replicate 64 0 })] }
    enc := { d.enc with svys := [(9, { params := List.replicate 16 0 })], tails := [(9, { params := List.replicate 16 0 })] }
    cmp := { d.cmp with views := [(9, { params := [0, 0x1000] ++ List.replicate 14 0, ess := [(0, 0)] })],
                        tx := [(0, { epoch := none, frame := some (0, 0x6000, 0) })] }
    wfg := { d.wfg with queues := [⟨9, [[item], [], [], [], [], [], [], []], none, [], false⟩], slots := [asm] } }

theorem test_hyp_VideoContexts_decode :
    ctxOk 4095 = true ∧ word32Ok (2 ^ 32 - 1) = true ∧ vidDev.live decPage = true ∧ vidDev.enabled decPage = true ∧
      vidDev.flag Reg.decCtl_EN = true ∧ dev1.flag Reg.decCtl_EN = false ∧
      (∀ op ∈ [1, 2], ((vidDev.decPosted op 9 0x60).holdWords 0x6000 64 decPage).2.isOk = true) ∧
      decTakenOk (List.replicate 64 0) = true ∧ (vidDev.decCtx? 9).isSome = true ∧
      ((vidDev.wfg.slots.find? fun y => Desc.kind y.desc == opDEC && Desc.ctx y.desc == 9).map (·.order)) = some 2 := by
  decide +kernel

/-- CTX_READ of a context that is not set: 512 bytes of free values reach Hold. -/
theorem test_hyp_VideoContexts_image :
    let p := (vidDev.decPosted 4 8 0x60).decImage 8
    (p.1.holdWrite 0x6000 p.2 decPage).2 = none := by
  intro p
  have hs : ∀ k, k < 8 → steadyOk p.1 (0x6000 + 64 * k) = true := by decide +kernel
  have hl : p.2.length = 64 * 8 := by
    have h : (vidDev.decPosted 4 8 0x60).decCtx? 8 = none := by decide +kernel
    show ((vidDev.decPosted 4 8 0x60).decImage 8).2.length = 512
    unfold Dev.decImage
    rw [h]
    exact length_padTo 512 _
  exact write_all p.1 _ 8 p.2 decPage hl (by decide) fun k hk => steady_of (hs k hk)

theorem test_hyp_VideoContexts_encode :
    tideOk (2 ^ 64 - 1) = true ∧ vidDev.live encPage = true ∧ vidDev.enabled encPage = true ∧ vidDev.flag Reg.encCtl_EN = true ∧
      ((vidDev.encPosted 1 9 0x64 false 0).holdWords 0x6400 16 encPage).2.toOption =
        some ([0x00400040, 0x00020100, 1000] ++ List.replicate 13 0) ∧
      svyOk ([0x00400040, 0x00020100, 1000] ++ List.replicate 13 0) = true ∧
      (∀ op ∈ [2, 4, 5], ((vidDev.encPosted op 9 0x60 true 5).holdWords 0x6000 16 encPage).2.isOk = true) ∧
      (vidDev.svy? 9).isSome = true ∧ (vidDev.tail? 9).isSome = true := by decide +kernel

/-- SVY_READ and LTR_READ: 256 bytes, of which the parameters are the context's. -/
theorem test_hyp_VideoContexts_read (op : Nat) (h : op = 8 ∨ op = 9) (ws : List Word) (hw : ws.length = 16) :
    let a := (vidDev.encPosted op 9 0x60 false 0).drawBytes 256
    (a.1.holdWrite (256 * 0x60) (bytesOfWords ws ++ a.2.take 192) encPage).2 = none := by
  intro a
  have hs : ∀ k, k < 4 → steadyOk a.1 (256 * 0x60 + 64 * k) = true := by rcases h with rfl | rfl <;> decide +kernel
  have hb : ∀ l : List Word, (bytesOfWords l).length = 4 * l.length := by
    intro l
    induction l with
    | nil => rfl
    | cons x t ih =>
      show (leBytes 4 x.toNat ++ bytesOfWords t).length = _
      rw [List.length_append, ih, List.length_cons]
      show 4 + _ = _
      omega
  have hl : (bytesOfWords ws ++ a.2.take 192).length = 64 * 4 := by
    have ha : a.2.length = 256 := length_padTo 256 _
    rw [List.length_append, hb, hw, List.length_take, ha]
    rfl
  exact write_all a.1 _ 4 _ encPage hl (by decide) fun k hk => steady_of (hs k hk)

theorem test_hyp_VideoContexts_feedback :
    let c := vidDev.atPhase 0
    phaseOk 0 = true ∧ c.live encPage = true ∧ c.flag Reg.encCtl_FB_EN = true ∧
      (c.take (c.get Reg.encCtl_FB_QUEUE)).2.map (fun i => feedbackKind i.data) = some (some false) := by decide +kernel

theorem test_hyp_ViewCommands :
    viewNumOk 255 = true ∧ vidDev.live cmpPage = true ∧ vidDev.enabled cmpPage = true ∧ vidDev.flag Reg.cmpCtl_EN = true ∧
      ((vidDev.viewPosted 1 9 0x68 false 0).holdWords 0x6800 16 cmpPage).2.toOption =
        some ([0x00400040, 0x02000000, 1000] ++ List.replicate 13 0) ∧
      viewOk ([0x00400040, 0x02000000, 1000] ++ List.replicate 13 0) = true ∧ (vidDev.view? 9).isSome = true ∧
      ((vidDev.viewPosted 2 9 0x60 false 0).holdWords 0x6000 16 cmpPage).2.isOk = true ∧
      ((vidDev.viewPosted 3 9 0x60 true 5).holdWords 0x6000 8 cmpPage).2.toOption = some (List.replicate 8 0) ∧
      (((vidDev.viewPosted 3 9 0x60 true 5).holdWords 0x6000 8 cmpPage).1.holdWords 0x6000
        (8 * (min 32 (layerCount (List.replicate 8 0)) + 1)) cmpPage).2.isOk = true := by decide +kernel

/-- VIEW_READ of a view that is not set: 4,096 bytes of free values reach Hold. -/
theorem test_hyp_ViewCommands_image :
    let p := (vidDev.viewPosted 5 8 0x60 false 0).viewImage 8
    (p.1.holdWrite (256 * 0x60) p.2 cmpPage).2 = none := by
  intro p
  have hs : ∀ k, k < 64 → steadyOk p.1 (256 * 0x60 + 64 * k) = true := by decide +kernel
  have hl : p.2.length = 64 * 64 := by
    have h : (vidDev.viewPosted 5 8 0x60 false 0).view? 8 = none := by decide +kernel
    show ((vidDev.viewPosted 5 8 0x60 false 0).viewImage 8).2.length = 4096
    unfold Dev.viewImage
    rw [h]
    exact length_padTo 4096 _
  exact write_all p.1 _ 64 p.2 cmpPage hl (by decide) fun k hk => steady_of (hs k hk)

theorem test_hyp_VideoFlows :
    let c := vidDev.atPhase 1999999
    videoFlowOk 7 = true ∧ vidRate (c.get Reg.ess_VTX_RATE [0]) = some (25, 1) ∧
      vidSize (c.get Reg.ess_VTX_FORMAT [0]) = some (1280, 720) ∧ (c.vidView 0).isSome = true ∧
      (c.vidTx 0).frame = some (0, 0x6000, 0) ∧ c.live essPage = true ∧ c.essVideo = true ∧ c.flag Reg.ess_VTX_EN [0] = true ∧
      c.flag Reg.ess_VTX_EN [1] = false := by decide +kernel

/-! ### Witnesses: the cores' events -/

/-- Core 0 with a transfer of 64 bytes, or of an item, on channel 3, its operation in slot 4; an image of pier 7 is being loaded,
and one of a single DSP task, its CRC by hand, lies at 0x7000. -/
def image : List Word :=
  [0x4d524b49, 1, 7, 4, 0, 1, 0, 0, 0xbb3a5f50, 0, 0, 0, 0, 0, 0, 0, 0x80000, 0x32] ++ List.replicate 30 0

def coreDev (op : Nat) : Dev :=
  let t : RkDma := { ch := 3, desc := 0x100, words := [BitVec.ofNat 16 (4096 * op), if op < 3 then 64 else 32, 0x200, if op < 3 then 0x6000 else 9,
                                                       0, 0, 0, 0], order := some 0, tenant := 0, booked := false, charged := true }
  let s : Slot := { num := 4, order := 0, owner := .tenant 0, tenant := 0, desc := cryLoose,
                    inst := some ⟨1, 0, 0, 100, .running, some ⟨5, 0⟩, 0, 0, [], [], false, 0, true, [], none⟩ }
  let i : Item := { words := [0x18000008, 0, 0x100, 7, 0, 0, 0, 0] }
  let d := ((withWords holdDev 0x7000 image).set Reg.wfg_Q_EN 1 [9]).set Reg.wfg_QSPILL_SIZE 64 [9]
  let d := (d.set Reg.rkn_EN 1 [6]).setCore { core0 with dma := [t] }
  { d with wfg := { d.wfg with slots := [s], queues := [⟨9, [[i], [], [], [], [], [], [], []], none, [], false⟩] }
           rkn := { d.rkn with loading := [7], images := [(7, ⟨1, 0, [], 0, 0, 0, 0, []⟩)] } }

theorem test_hyp_CoreEvents_overrun :
    let c := (coreDev 1).atPhase 100
    coreOk 1087 = true ∧ (c.core 0).mode = .run ∧ (c.core 0).ops = ⟨0, 0, 100, 0, 0⟩ :: [] ∧ (c.slotByOrder 0).isSome = true := by
  decide +kernel

theorem test_hyp_CoreEvents_dma : ∀ op ∈ [1, 2, 3, 4],
    let c := (coreDev op).atPhase 0
    dmaChannelOk 3 = true ∧ ((c.core 0).dma.find? (·.ch == 3)).map (fun t => (t.op, t.charged)) = some (op, true) ∧
      c.flag Reg.wfg_Q_EN [9] = true := by decide +kernel

theorem test_hyp_CoreEvents_dma_ends :
    ((coreDev 1).core 0).dma.all (fun t => ((coreDev 1).dmaFetch 0 t).2.isOk && t.op == 1) = true ∧
      ((coreDev 2).core 0).dma.all (fun t => ((coreDev 2).dmaStore 0 t ((coreDev 2).coreBytes ((coreDev 2).core 0) t.local_ t.length)).2.isNone &&
        t.op == 2) = true := by decide +kernel

/-- A READ outside its allowance waits. -/
theorem test_hyp_CoreEvents_dma_waits :
    let d := rkDev { core0 with moved := (0, 32768), dma := [⟨3, 0x100, [0x1000, 64, 0, 0, 0, 0, 0, 0], some 0, 0, false, false⟩] }
    (d.core 0).dma.all (fun t => decide (32768 < d.dmaUsed (d.core 0) + t.counted)) = true := by decide +kernel

theorem test_hyp_CoreEvents_load :
    let d := coreDev 1
    let c := d.set Reg.rkn_IMG_ADDR 0x70 [6]
    eightOk 7 = true ∧ d.live ⟨.rkn, 6⟩ = true ∧ d.flag Reg.rkn_LOAD_BUSY [6] = false ∧ 7 ∈ d.rkn.loading ∧
      ((d.set Reg.rkn_IMG_ADDR 0xFFFFFFFF [6]).holdRead (0xFFFFFFFF * 256) 0x40 ⟨.rkn, 6⟩).2.isOk = false ∧
      (c.holdRead (0x70 * 256) 0x40 ⟨.rkn, 6⟩).2.toOption = some (bytesOfWords (image.take 16)) ∧
      imgLengthsOk (bytesOfWords (image.take 16)) = true ∧ imgEnd (bytesOfWords (image.take 16)) - 0x40 = 128 ∧
      ((c.holdRead (0x70 * 256) 0x40 ⟨.rkn, 6⟩).1.holdRead (0x70 * 256 + 0x40) 128 ⟨.rkn, 6⟩).2.toOption =
        some (bytesOfWords (image.drop 16)) ∧
      c.imgError 6 (bytesOfWords (image.take 16)) (some (bytesOfWords image)) = none ∧
      ((d.set Reg.rkn_IMG_ADDR 0x60 [6]).holdRead (0x60 * 256) 0x40 ⟨.rkn, 6⟩).2.toOption = some (List.replicate 64 0) ∧
      imgLengthsOk (List.replicate 64 0) = false := by decide +kernel

/-- An image whose code runs beyond the end of what Hold maps. -/
theorem test_hyp_CoreEvents_load_short :
    let c := (withWords holdDev 0x3FFFF00 [0x4d524b49, 1, 7, 0x100, 0, 1]).set Reg.rkn_IMG_ADDR 0x3FFFF [6]
    let h := bytesOfWords [0x4d524b49, 1, 7, 0x100, 0, 1, 0, 0, 0, 0, 0, 0, 0, 0, 0, 0]
    (c.holdRead (0x3FFFF * 256) 0x40 ⟨.rkn, 6⟩).2.toOption = some h ∧ imgLengthsOk h = true ∧
      ((c.holdRead (0x3FFFF * 256) 0x40 ⟨.rkn, 6⟩).1.holdRead (0x3FFFF * 256 + 0x40) (imgEnd h - 0x40) ⟨.rkn, 6⟩).2.isOk = false := by
  decide +kernel

/-! ### Witnesses: Hold -/

theorem serves_of {d : Dev} (h : d.live hldPage = true ∧ d.flag Reg.hld_EN = true ∧ d.flag Reg.hld_INIT_DONE = true ∧
    d.get Reg.dev_DEV_STATE ≠ 3) : d.holdServes := h

theorem test_hyp_HoldAccesses :
    let c := holdDev.atPhase 1999999
    holdAddrOk (2 ^ 40 - 1) = true ∧ flawOk { errs := [(16, 1)] } = true ∧ pageOk hldPage = true ∧ phaseOk 1999999 = true ∧
      blockDataOk (List.replicate 64 0) = true ∧ c.hold.injection = none ∧ c.holdPlace (2 ^ 26 - 64) ≠ none ∧ c.holdPlace (2 ^ 26) = none ∧
      c.hold.lost = [] ∧ (2 ^ 26 - 64) % 64 = 0 ∧ (List.replicate 64 (0 : BitVec 8)).length = 64 ∧
      c.live hldPage = true ∧ c.flag Reg.hld_EN = true ∧ c.flag Reg.hld_INIT_DONE = true ∧ c.get Reg.dev_DEV_STATE ≠ 3 := by
  decide +kernel

theorem test_hyp_HoldAccesses_serves : (holdDev.atPhase 1999999).holdServes := serves_of (by decide +kernel)

/-- The same Hold with the regions that units own far above what it maps, and one with a LIVE row 7. -/
def farDev : Dev :=
  [Reg.btc_ROW_BASE, Reg.btc_ANNEX_BASE, Reg.fry_ROUTE_BASE, Reg.fry_GROUP_BASE, Reg.fry_FAN_SLOT_BASE, Reg.abx_OUT_BASE,
    Reg.abx_DRESS_DELAY_BASE, Reg.decCtl_CTX_BASE, Reg.encCtl_SVY_CTX_BASE, Reg.encCtl_LTR_CTX_BASE, Reg.cmpCtl_VIEW_CTX_BASE].foldl
    (fun d f => d.set f (2 ^ 22)) holdDev
def rowDev : Dev := holdDev.setRow 7 (Row.zero.set RowF.STATE stLive)

/-- A block with more errors than the code corrects: outside the Berth Table, and in a LIVE row. -/
theorem test_hyp_HoldAccesses_errors :
    let c := farDev.atPhase 0
    let e := rowDev.atPhase 0
    let flaw : ReadFlaw := { errs := [(16, 3), (15, 2)] }
    flawOk flaw = true ∧ c.rowOfBlock 0x3FFFFC0 = none ∧ (c.holdPlace 0x3FFFFC0).isSome = true ∧
      ((c.holdPlace 0x3FFFFC0).map fun p => c.decodeBlock p.1 (c.errsAt p.1 0x3FFFFC0 flaw) false) = some .uncorrectable ∧
      e.rowOfBlock 0x700 = some 7 ∧ 0x700 ∉ e.hold.poisonLogged ∧ e.follows = false ∧ e.rowState 7 = stLive ∧
      ((e.holdPlace 0x700).map fun p => e.decodeBlock p.1 (e.errsAt p.1 0x700 flaw) false) = some .uncorrectable := by decide +kernel

/-- Channel 63 hot for the first time, the last failure of two before it, a scrub of the last block, an idle channel. -/
def upkeepDev : Dev :=
  (((holdDev.set Reg.hld_SCRUB_EN 1).set Reg.hld_AUTO_SR_EN 1).set Reg.hld_CH_STATE 2 [63]).set Reg.hld_CH_RETRAIN_CONSEC 1 [63]

theorem test_hyp_HoldUpkeep :
    channelOk 63 = true ∧ upkeepDev.live hldPage = true ∧ 63 < upkeepDev.channels ∧ refreshIndOk 2 = true ∧
      upkeepDev.get Reg.hld_CH_REFRESH_MULT [63] ≠ 2 ∧ upkeepDev.get Reg.hld_CH_RETRAIN_CONSEC [63] + 1 ≠ 3 ∧
      upkeepDev.flag Reg.hld_SCRUB_EN = true ∧ upkeepDev.hold.injection = none ∧ upkeepDev.hold.poison = [] ∧ upkeepDev.hold.bad = [] ∧
      upkeepDev.holdPlace (2 ^ 26 - 64) ≠ none ∧ upkeepDev.hold.lost = [] ∧ upkeepDev.ldg.adms = [] ∧
      upkeepDev.flag Reg.hld_AUTO_SR_EN = true ∧ upkeepDev.get Reg.hld_CH_STATE [63] = 2 ∧
      assoc? 63 (upkeepDev.atPhase 0).hold.lastAccess = none ∧ upkeepDev.flag Reg.hld_INJ_EN = false ∧
      (let d := upkeepDev.set Reg.hld_CH_RETRAIN_CONSEC 2 [63]
       (d.get Reg.hld_CH_RETRAIN_CONSEC [63] + 1) % 3 = 0 ∧
        (d.atPhase 500000).fails ⟨ukHold, ((d.atPhase 500000).executor ⟨ukHold, 63⟩).idx⟩ = true) := by decide +kernel

/-! ### Witnesses: the Mooring, the Slipway, gauges, faults -/

/-- A standby of a synced pair that heard nothing in the Tide in progress and in the one before. -/
def mrgDev (role sync : Nat) : Dev :=
  let d := (((dev1.set Reg.mrg_EN 1).set Reg.mrg_ROLE role).set Reg.mrg_SYNC sync).set Reg.mrg_LINK_UP 1
  { d with mrg := { d.mrg with silentMrg := 1, silentWire := 1 } }

/-- A good header, and one of another version. -/
def head (v : Nat) : MrgHead := { version := v, tideLo := 2 ^ 32 - 1, claim := 2 ^ 32 - 1 }

theorem test_hyp_MooringFrames :
    let c := (mrgDev 2 2).atPhase 0
    mrgHeadOk (head 1) = true ∧ mrgHeadOk (head 2) = true ∧ phaseOk 0 = true ∧ (mrgDev 2 2).flag Reg.lfi_EN = false ∧
      c.mrgOn = true ∧ (dev1.atPhase 0).mrgOn = false ∧ ((head 1).intact && (head 1).magic == 0x4D52 && (head 1).version == 1) = true ∧
      ((head 2).intact && (head 2).magic == 0x4D52 && (head 2).version == 1) = false ∧
      mrgBeatOk ⟨255, 255, 255, true, 2 ^ 32 - 1⟩ = true ∧ (List.replicate 64 (0 : Word)).length = 64 ∧
      (List.replicate 32 (0 : Word)).length = 32 ∧ kcvsOk (List.replicate 64 (2 ^ 32 - 1)) = true ∧
      (mrgDev 2 2).live mrgPage = true ∧ (mrgDev 2 2).flag Reg.mrg_EN = true ∧ dev1.flag Reg.mrg_EN = false ∧
      (mrgDev 2 2).flag Reg.mrg_LINK_UP = true := by decide +kernel

theorem test_hyp_MooringFrames_rows : ((mrgDev 2 2).atPhase 0).rowsWf := rows_wf_of _ (by decide +kernel)

theorem test_hyp_Takeover : ((mrgDev 2 2).setRow 7 (rtpRow 2)).rowsWf ∧ ((mrgDev 2 2).setRow 7 (rtpRow 2)).mrg.deltas = [] ∧
    ((mrgDev 2 2).setRow 7 (rtpRow 2)).btc.rows.all (fun x => decide (x.2.next + 4096 < 2 ^ 48)) = true ∧
    ((mrgDev 2 2).setRow 7 (rtpRow 2)).takeoverDue = true :=
  ⟨rows_wf_of _ (by decide +kernel), by decide +kernel, by decide +kernel, by decide +kernel⟩

/-- An audit of CRY lane 3 in its second slice, once failed, and of nothing else. -/
def auditDev : Dev :=
  { dev1 with slw := { dev1.slw with audits := [⟨⟨7, 3⟩, some 16, 1, true, false, true, 0⟩], lastAudit := [(⟨7, 3⟩, 0)] } }

theorem test_hyp_Audits : kindOk 15 = true ∧ unitIndexOk 2047 = true ∧ tideOk (2 ^ 64 - 1) = true ∧ auditDev.live slwPage = true ∧
    auditDev.slw.audits.find? (·.unit == ⟨7, 3⟩) = some ⟨⟨7, 3⟩, some 16, 1, true, false, true, 0⟩ ∧
    auditDev.slw.audits.find? (·.unit == ⟨7, 4⟩) = none := by decide +kernel

/-- The page of each row of UnitFaults: a whole unit of each kind, and one that is not there. -/
theorem test_hyp_UnitFaults : unitIndexOk 2047 = true ∧ mixesOk [8191] = true ∧ coreOk 1087 = true ∧
    ([8, 7, 0xC, 9, 0xA, 4, 0xD, 0xE, 0xB, 0, 1, 2, 3, 5].all fun k =>
      dev1.fails ⟨k, 0⟩ && !dev1.fails ⟨k, 2047⟩) = true ∧ dev1.fails ⟨5, 1087⟩ = true ∧
    dev1.unit ⟨8, 0⟩ = {} ∧ 0 < dev1.serviceCount 8 ∧ dev1.slw.audits = [] ∧ dev1.live slwPage = true ∧ dev1.freeSpares ⟨8, 0⟩ = [2] ∧
    2 ≠ 0 := by decide +kernel

/-- The last provider word being written. -/
def fuseDev : Dev := { dev1 with slw := { dev1.slw with fuseCmd := some ⟨5, 31, [0x12345678]⟩ } }

theorem test_hyp_RetirementAndFuses : dev1.live slwPage = true ∧ dev1.flag Reg.slw_CMD_BUSY = false ∧ kindOk 15 = true ∧
    unitIndexOk 2047 = true ∧ fuseWordOk 31 = true ∧ fuseWordsOk [1023] = true ∧ dev1.slw.fuseCmd = none ∧
    fuseDev.slw.fuseCmd = some ⟨5, 31, [0x12345678]⟩ := by decide +kernel

/-- Gauge 255, enabled, of a source, which sampled a source of one sample a Tide in this Tide. -/
def gaugeDev (src : Nat) : Dev :=
  let d := ((dev1.set Reg.tgg_EN 1).set Reg.tgg_G_EN 1 [255]).set Reg.tgg_G_SOURCE src [255]
  { d with tgg := { sets := [(255, { last := some 0, snap := { range := some (-1, 1) } })] } }

theorem test_hyp_GaugesAndInjection : byteOk 255 = true ∧ dev1.live tggPage = true ∧ dev1.live lfiPage = true ∧ lfiPointOk 15 = true ∧
    lportOk 15 = true ∧ phaseOk 1999999 = true ∧
    ([0, 1, 2, 3, 4, 5, 6, 7].all fun src => (gaugeDev src).flag Reg.tgg_EN && (gaugeDev src).flag Reg.tgg_G_EN [255] &&
      (gaugeDev src).get Reg.tgg_G_SOURCE [255] == src && (gaugeDev src).get Reg.tgg_G_SAMPLE_LOG2 [255] == 0 &&
      ((gaugeDev src).gauge 255).last == some (gaugeDev src).tide && ((gaugeDev src).gauge 255).snap.range == some (-1, 1)) = true := by
  decide +kernel

/-! ### Witnesses: the Gangway and the registers -/

theorem test_hyp_PagesAndRegisters : dev1.live gwyPage = true ∧ pfPageOk gwyPage = true ∧ pageOk ⟨.vf, 64⟩ = true ∧
    dev1.live ⟨.vf, 64⟩ = true ∧ (⟨.vf, 64⟩ : Page).kind = .vf ∧ tideOk (2 ^ 64 - 1) = true ∧
    (UnitId.mk 8 0).page = bwrPage ∧ dev1.live bwrPage = true ∧ pfPageOk bwrPage = true ∧ (pipeDev.unit ⟨8, 0⟩).fault = true := by
  decide +kernel

/-- A held NEW_TIDE_LO, and a captured TIDE_HI. -/
def loDev : Dev := { dev1 with loHeld := [(Reg.tkp_NEW_TIDE_LO.addr, 5)], hiCaptured := [(Reg.tkp_TIDE_HI.addr, 6)] }

theorem test_hyp_PagesAndRegisters_words :
    let c := loDev.atPhase 0
    let e := dev1.atPhase 0
    busAddrOk (2 ^ 32 - 4) = true ∧ (2 ^ 32 - 4) % 4 = 0 ∧ phaseOk 0 = true ∧ 14 < 15 ∧ isLo Reg.tkp_NEW_TIDE_LO.addr = true ∧
      c.live tkpPage = true ∧ c.loHeld = [(Reg.tkp_NEW_TIDE_LO.addr, 5)] ∧ c.hiCaptured = [(Reg.tkp_TIDE_HI.addr, 6)] ∧ e.loHeld = [] ∧
      e.hiCaptured = [] ∧ e.live tkpPage = true ∧ e.live slwPage = true ∧ 0xFFFFFFC < 0x10000000 ∧ e.aperture 0xFFFFFFC = none ∧
      pageAt 0xFFFFFFC = none ∧ cntClearOk Reg.slw_CNT_CLEAR.addr = true ∧ pageAt Reg.slw_CNT_CLEAR.addr = some slwPage ∧
      dev1.loHeld = [] := by decide +kernel

theorem test_hyp_Vectors : phaseOk 1999999 = true ∧ dev1.live gwyPage = true ∧ vectorOk 2047 = true ∧ vfOk 1 = true ∧ vfOk 64 = true ∧
    entry5Ok 31 = true ∧ fnOk (.vf 64) = true := by decide +kernel

/-- An unbooked operation of the last VF that has not started. -/
def vfSlot : Slot := { looseSlot .ready with vf := some 64 }
def flrDev : Dev := { dev1 with wfg := { dev1.wfg with slots := [vfSlot] } }

theorem test_hyp_Functions : vfOk 64 = true ∧ dev1.live gwyPage = true ∧ ringOk 63 = true ∧ laneMaskOk 15 = true ∧ linkWidthOk 63 = true ∧
    flrDev.wfg.slots = [vfSlot] ∧ vfSlot.admitted = false ∧ vfSlot.detached = false ∧ vfSlot.vf = some 64 ∧ (vfSlot.inst.map (·.state)) = some .ready := by
  decide +kernel

/-- Items of type 1 and of another with data in a host ring's queue. -/
def ringItems : List Item := [{ words := [0x19000000, 0, 0, 0, 0, 0, 0, 0] },
  { words := [0x1A000004, 0x6000, 0x100, 0, 0, 0, 0, 0], data := [1, 2, 3, 4] }]
def ringDev (i : Item) : Dev :=
  let d := (dev1.set Reg.gwy_RING_EN 1 [63]).set Reg.gwy_RING_QUEUE 9 [63]
  { d with wfg := { d.wfg with queues := [⟨9, [[i], [], [], [], [], [], [], []], none, [], false⟩] } }

theorem test_hyp_HostData_rings : ringOk 63 = true ∧ phaseOk 1999999 = true ∧
    (ringItems.map fun i => (((ringDev i).atPhase 1999999).pop 9).2.map fun x =>
      (x.type == 1, wfld x.words 2 8 8, x.data.length == x.length)) = [some (true, 0, true), some (false, 1, true)] := by
  decide +kernel

theorem test_hyp_HostData_bar2 :
    let ebb := dev1.set Reg.dev_DEV_STATE 3
    let btc := (holdDev.set Reg.btc_EN 1).set Reg.btc_ROW_BASE 0x10
    bar2Ok (2 ^ 34 - 4) = true ∧ bar2LengthOk 4 = true ∧ (2 ^ 34 - 4) + 4 ≤ 2 ^ 34 ∧ bar2DataOk (some [1, 2, 3, 4]) = true ∧
      ebb.get Reg.dev_DEV_STATE = 3 ∧ btc.btcRegions.any (·.touches 0x100000 4) = true ∧ farDev.btcRegions.any (·.touches 0x3FFFFFC 4) = false ∧
      farDev.unitOwned 0x3FFFFFC 4 = false ∧ holdDev.hold.injection = none ∧
      holdDev.hold.poison = [] ∧ holdDev.hold.bad = [] ∧ 0x3FFFFFC % 64 + 4 ≤ 64 ∧ holdDev.bar2Base = 0 ∧
      holdDev.holdPlace 0x3FFFFC0 ≠ none ∧ holdDev.holdPlace 0x4000000 = none ∧ holdDev.hold.lost = [] := by decide +kernel

/-! ### Witnesses: power and the block as a whole -/

/-- A device in step 4 of start-up whose Hold is trained. -/
def initDev : Dev := (dev0.set Reg.hld_TRAINED 1).set Reg.dev_STEP 4

theorem test_hyp_StartUp : phaseOk 1999999 = true ∧ laneMaskOk 15 = true ∧ linkWidthOk 63 = true ∧
    bootReportOk { failing := [(15, 2047)] } = true ∧ initDev.flag Reg.hld_INIT_DONE = false ∧ initDev.flag Reg.hld_TRAINED = true ∧
    initDev.get Reg.dev_DEV_STATE ≠ 2 ∧ initDev.get Reg.dev_STEP = 4 := by decide +kernel

def runDev : Dev := { initDev with pwr := { initDev.pwr with pwrOk := true } }

theorem test_hyp_ResetsAndClocks : runDev.pwr.pwrOk = true ∧ runDev.pwr.tripped = false ∧ runDev.get Reg.dev_STEP ≠ 1 ∧ pairOk 1 = true ∧
    (-32768 : Int) ≤ 32767 := by decide +kernel

/-- EBB_ENTER in progress. -/
def ebbDev : Dev := { runDev with pwr := { runDev.pwr with entering := true } }

theorem test_hyp_DomainsAndEbb : dev0.domainPresent 24 = true ∧ domainOk 24 = true ∧ phaseOk 1999999 = true ∧
    ((List.range 25).all fun j => j == 0 || j == 24 || Word.fld 0x0FFFFFE j j == bitOf (runDev.domainEn j)) = true ∧
    ebbDev.pwr.entering = true ∧ ebbDev.wfg.slots = [] ∧ ebbDev.slw.audits = [] := by decide +kernel

theorem test_hyp_StepRunsFront : ({ st dev0 with pending := [.pfFlr] } : State).pending = .pfFlr :: [] ∧ (st dev0).pending = [] :=
  ⟨rfl, rfl⟩

theorem test_hyp_CommandsComplete : Instr.pfFlr.wf = true ∧ (Instr.vfFlr 0).wf = false := by decide

theorem test_hyp_FusesOnlyGrow : (Fuse.factory .spt8832).wf ∧ step (st dev0) = .next (st dev0) :=
  ⟨⟨by decide, by decide, by decide, by decide⟩, rfl⟩

theorem test_hyp_ReckonerRoundTrip : rkCoreOf (.rkAdd 0 3 4 5 true) = some 0 ∧ rkEncode (.rkAdd 0 3 4 5 true) = some 0x00345800 ∧
    rkDecode 0 0x00345800 = some (.rkAdd 0 3 4 5 true) := by decide

end Sys2Proof.Tests
end

section
/-!
PROOF. The commands of the Ledger (R65, R76, R91, R92, R295): what RESERVE_FWD, LDG_WITHDRAW and LDG_QUERY do and leave alone.
-/

namespace Sys2Proof.Machine

/-! ### Parts and registers left alone, one step after another -/

theorem onlyParts_refl (ps : List Part) (d : Dev) : onlyParts ps d d := fun q _ => by cases q <;> rfl

theorem onlyParts.trans {ps : List Part} {c d e : Dev} (h : onlyParts ps c d) (g : onlyParts ps d e) : onlyParts ps c e :=
  fun q hq => by
    have h' := h q hq
    have g' := g q hq
    cases q <;> exact Eq.trans g' h'

theorem onlyParts.mono {ps qs : List Part} {d e : Dev} (h : onlyParts ps d e) (hs : ps ⊆ qs) : onlyParts qs d e :=
  fun q hq => h q fun hp => hq (hs hp)

theorem onlyWords.trans {as : List Nat} {c d e : Dev} (h : onlyWords as c d) (g : onlyWords as d e) : onlyWords as c e :=
  fun a ha => (g a ha).trans (h a ha)

/-- A loop leaves alone what each of its rounds leaves alone. -/
theorem onlyParts_foldl {α : Type} {ps : List Part} {f : Dev → α → Dev} (l : List α)
    (h : ∀ d x, onlyParts ps d (f d x)) (d : Dev) : onlyParts ps d (l.foldl f d) := by
  induction l generalizing d with
  | nil => exact onlyParts_refl ps d
  | cons x t ih => exact (h d x).trans (ih (f d x))

/-- A register that no round of a loop changes reads the same after it. -/
theorem Dev.word_foldl {α : Type} {f : Dev → α → Dev} {a : Nat} (l : List α)
    (h : ∀ d, ∀ x ∈ l, (f d x).word a = d.word a) (d : Dev) : (l.foldl f d).word a = d.word a := by
  induction l generalizing d with
  | nil => rfl
  | cons x t ih =>
    rw [List.foldl_cons, ih (fun d y hy => h d y (List.mem_cons_of_mem x hy)), h d x List.mem_cons_self]

theorem Dev.setWord_onlyParts (d : Dev) (a : Nat) (w : Word) : onlyParts [.regs] d (d.setWord a w) := by
  intro q hq
  cases q
  case regs => exact absurd List.mem_cons_self hq
  all_goals simp [Part.same]

theorem Dev.set_onlyParts (d : Dev) (r : RegField) (v : Nat) (ix : List Nat) : onlyParts [.regs] d (d.set r v ix) :=
  d.setWord_onlyParts _ _

theorem Dev.raise_onlyParts (d : Dev) (p : Page) (b : Nat) : onlyParts eventParts d (d.raise p b) := by
  intro q hq
  cases q
  case regs | gwy | out => exact absurd (by decide) hq
  all_goals simp [Part.same]

theorem Dev.word_set_ne (d : Dev) (r : RegField) (v : Nat) (ix : List Nat) {a : Nat} (h : a ≠ r.addrAt ix) :
    (d.set r v ix).word a = d.word a :=
  d.word_setWord_ne h _

theorem Dev.set_onlyWords (d : Dev) (r : RegField) (v : Nat) (ix : List Nat) : onlyWords [r.addrAt ix] d (d.set r v ix) :=
  fun _ h => d.word_set_ne r v ix (List.ne_of_not_mem_cons h)

/-- An event of a page of the device changes no register but the page's EVT_PEND. -/
theorem Dev.word_raise_ne (d : Dev) {p : Page} (b : Nat) (hp : p.kind ≠ .vf) {a : Nat} (h : a ≠ evtPend p) :
    (d.raise p b).word a = d.word a := by
  unfold Dev.raise Dev.latch
  rw [if_neg hp]
  exact (congrArg (RegFile.word · a) (Dev.signalPage_regs _ p)).trans (d.word_setWord_ne h _)

theorem Dev.get_congr {d e : Dev} (r : RegField) (ix : List Nat) (h : e.word (r.addrAt ix) = d.word (r.addrAt ix)) :
    e.get r ix = d.get r ix := by
  unfold Dev.get
  rw [h]

theorem Dev.flag_congr {d e : Dev} (r : RegField) (ix : List Nat) (h : e.word (r.addrAt ix) = d.word (r.addrAt ix)) :
    e.flag r ix = d.flag r ix := by
  unfold Dev.flag
  rw [Dev.get_congr r ix h]

/-- Whether a page can act depends on the variant, on DOM_ON and on the straps alone. -/
theorem Dev.live_congr {d e : Dev} (p : Page) (hv : e.variant = d.variant) (hon : e.word 0x1C0044 = d.word 0x1C0044)
    (hst : e.word (Reg.pwr_STRAPS.addrAt []) = d.word (Reg.pwr_STRAPS.addrAt [])) : e.live p = d.live p := by
  have hs := Dev.get_congr Reg.pwr_STRAPS [] hst
  have hhalf : e.half = d.half := by unfold Dev.half; rw [hv, hs]
  have hvideo : e.video = d.video := by unfold Dev.video; rw [hv, hs]
  have htwin : e.twin = d.twin := by unfold Dev.twin; rw [hs]
  have hpier : e.pierPresent = d.pierPresent := by funext n; unfold Dev.pierPresent; rw [hhalf]
  have hpresent : e.present p = d.present p := by unfold Dev.present; rw [hhalf, hvideo, htwin, hpier]
  unfold Dev.live Dev.domainOn
  rw [hpresent, hon]

/-! ### A command that is a write to a page -/

/-- A command whose operands are well-formed and whose meaning is `act` completes with what its effect brings about. -/
theorem completes_of_act {i : Instr} {s : State} {ok : Bool} {f : Dev → Dev} {post : Dev → Dev → Prop}
    (he : exec i s = act ok s f) (hok : ok = true) (h : post s.dev (f s.dev)) : Completes i s post :=
  ⟨{ s with dev := f s.dev }, by rw [he, hok]; rfl, rfl, rfl, h⟩

theorem Dev.written_of_live {d : Dev} {p : Page} (h : d.live p = true) (a : Nat) (f : Dev → Dev) : d.written p a f = f d :=
  if_pos h

/-! ### A handle that nothing holds (R63) -/

/-- The number a search finds lies in its span and is not in use. -/
theorem probe_some {used : List Nat} {base span k n x : Nat} (hs : 0 < span) (h : probe used base span k n = some x) :
    base ≤ x ∧ x < base + span ∧ x ∉ used := by
  induction k generalizing n with
  | zero => cases h
  | succ k ih =>
    unfold probe at h
    split at h
    · exact ih h
    · next hu =>
      obtain rfl := Option.some.inj h
      have := Nat.mod_lt n hs
      exact ⟨by omega, by omega, by simpa using hu⟩

/-- A search that fails has met numbers in use only. -/
theorem probe_none {used : List Nat} {base span k n : Nat} (h : probe used base span k n = none) :
    ∀ i < k, base + (n + i) % span ∈ used := by
  induction k generalizing n with
  | zero => intro i hi; omega
  | succ k ih =>
    unfold probe at h
    split at h
    · next hu =>
      intro i hi
      cases i with
      | zero => simpa using hu
      | succ j =>
        have := ih h j (by omega)
        rwa [show n + 1 + j = n + (j + 1) by omega] at this
    · cases h

/-- The numbers a search meets in one turn of its span are all different. -/
theorem nodup_probed {base span k n : Nat} (hk : k ≤ span) : ((List.range k).map fun i => base + (n + i) % span).Nodup := by
  refine List.pairwise_map.2 (List.pairwise_lt_range.imp_of_mem fun {i j} _ hj hij heq => ?_)
  have hjk := List.mem_range.1 hj
  have hzero := Nat.sub_mod_eq_zero_of_mod_eq (Nat.add_left_cancel heq).symm
  rw [Nat.add_sub_add_left, Nat.mod_eq_of_lt (by omega)] at hzero
  omega

/-- Among more numbers of a span than are in use, a search finds one that is not. -/
theorem probe_isSome {used : List Nat} {base span k n : Nat} (hk : k ≤ span) (hu : used.length < k) :
    (probe used base span k n).isSome = true := by
  cases hp : probe used base span k n with
  | some x => rfl
  | none =>
    have hsub : ((List.range k).map fun i => base + (n + i) % span) ⊆ used := by
      intro x hx
      obtain ⟨i, hi, rfl⟩ := List.mem_map.1 hx
      exact probe_none hp i (List.mem_range.1 hi)
    have hlen := (nodup_probed hk).length_le_of_subset hsub
    rw [List.length_map, List.length_range] at hlen
    omega

/-- While fewer than 65,535 handles are held, a new one is found. -/
theorem Dev.newHandle_of_room {d : Dev} (hroom : d.ldg.adms.length < 65535) :
    ∃ h, d.newHandle = ({ d with free := d.free + 1 }, some h) ∧ 1 ≤ h ∧ h < 65536 ∧ ∀ a ∈ d.ldg.adms, a.handle ≠ h := by
  obtain ⟨h, hp⟩ := Option.isSome_iff_exists.1 (probe_isSome (used := d.ldg.adms.map (·.handle)) (base := 1) (span := 65535)
    (k := min 65535 (d.ldg.adms.length + 1)) (n := Config.freeNat d.free) (Nat.min_le_left _ _)
    (by rw [List.length_map]; omega))
  obtain ⟨hlo, hhi, hfree⟩ := probe_some (by decide) hp
  refine ⟨h, ?_, hlo, hhi, fun a ha e => hfree (List.mem_map.2 ⟨a, ha, e⟩)⟩
  exact congrArg (Prod.mk { d with free := d.free + 1 }) hp

/-! ### The outcome of an admission port (R90) -/

theorem Dev.ldgResult_onlyParts (d : Dev) (p : Nat) (st : Status) (fo fk : Option Nat) (h first span : Nat) :
    onlyParts eventParts d (d.ldgResult p st fo fk h first span) := by
  unfold Dev.ldgResult Dev.set64
  refine onlyParts.trans (onlyParts.mono (ps := [.regs]) ?_ (by decide)) (Dev.raise_onlyParts _ _ _)
  exact (d.set_onlyParts _ _ _).trans <| (Dev.set_onlyParts _ _ _ _).trans <| (Dev.set_onlyParts _ _ _ _).trans <|
    (Dev.set_onlyParts _ _ _ _).trans <| (Dev.set_onlyParts _ _ _ _).trans <| (Dev.set_onlyParts _ _ _ _).trans <|
    (Dev.set_onlyParts _ _ _ _).trans (Dev.set_onlyParts _ _ _ _)

theorem Dev.ldgResult_ldg (d : Dev) (p : Nat) (st : Status) (fo fk : Option Nat) (h first span : Nat) :
    (d.ldgResult p st fo fk h first span).ldg = d.ldg :=
  d.ldgResult_onlyParts p st fo fk h first span .ldg (by decide)

theorem Dev.ldgResult_fry (d : Dev) (p : Nat) (st : Status) (fo fk : Option Nat) (h first span : Nat) :
    (d.ldgResult p st fo fk h first span).fry = d.fry :=
  d.ldgResult_onlyParts p st fo fk h first span .fry (by decide)

theorem Status.code_lt (st : Status) : st.code < 256 := by cases st <;> decide

/-- The registers of an admission port lie above the Ledger's EVT_PEND. -/
theorem ldgPort_ne_evtPend (r : RegField) (p : Nat) (h : 0x30200 ≤ r.addr) : r.addrAt [p] ≠ evtPend ldgPage := by
  have : evtPend ldgPage = 0x30018 := by decide
  have : r.addr ≤ r.addrAt [p] := Nat.le_add_right _ _
  omega

/-- Two registers of an admission port that lie apart. -/
theorem Dev.get_set_ldgPort_ne (d : Dev) (r q : RegField) (v p : Nat) (hd : r.dims = q.dims) (h : r.addr ≠ q.addr) :
    (d.set r v [p]).get q [p] = d.get q [p] :=
  d.get_set_ne r q v [p] [p] (by unfold RegField.addrAt; rw [hd]; omega)

/-- STATUS of a port holds the outcome given. -/
theorem Dev.ldgResult_status (d : Dev) (p : Nat) (st : Status) (fo fk : Option Nat) (h first span : Nat) :
    (d.ldgResult p st fo fk h first span).get Reg.ldg_ADMIT_STATUS [p] = st.code := by
  unfold Dev.ldgResult Dev.set64
  rw [Dev.get_congr _ _ (Dev.word_raise_ne _ _ (by decide) (ldgPort_ne_evtPend _ p (by decide))),
    Dev.get_set_ldgPort_ne _ _ _ _ _ (by decide) (by decide),
    Dev.get_set_ldgPort_ne _ _ _ _ _ (by decide) (by decide),
    Dev.get_set_ldgPort_ne _ _ _ _ _ (by decide) (by decide),
    Dev.get_set_ldgPort_ne _ _ _ _ _ (by decide) (by decide),
    Dev.get_set_off _ _ _ _ _ _ (by decide) (by decide) (by decide),
    Dev.get_set_off _ _ _ _ _ _ (by decide) (by decide) (by decide),
    Dev.get_set _ _ _ _ (by decide) (by decide)]
  exact Nat.mod_eq_of_lt (Status.code_lt st)

/-- HANDLE of a port holds the handle given. -/
theorem Dev.ldgResult_handle (d : Dev) (p : Nat) (st : Status) (fo fk : Option Nat) {h : Nat} (hh : h < 65536)
    (first span : Nat) : (d.ldgResult p st fo fk h first span).get Reg.ldg_ADMIT_HANDLE [p] = h := by
  unfold Dev.ldgResult Dev.set64
  rw [Dev.get_congr _ _ (Dev.word_raise_ne _ _ (by decide) (ldgPort_ne_evtPend _ p (by decide))),
    Dev.get_set_ldgPort_ne _ _ _ _ _ (by decide) (by decide),
    Dev.get_set_ldgPort_ne _ _ _ _ _ (by decide) (by decide),
    Dev.get_set_ldgPort_ne _ _ _ _ _ (by decide) (by decide),
    Dev.get_set _ _ _ _ (by decide) (by decide)]
  exact Nat.mod_eq_of_lt hh

/-! ### A port that takes a command (R59, R90, R520) -/

theorem Dev.wakeChannels_onlyParts (d : Dev) : onlyParts [.regs] d d.wakeChannels :=
  onlyParts_foldl _ (fun d c => by
    split
    · exact d.set_onlyParts _ _ _
    · exact onlyParts_refl _ d) d

/-- A wake changes registers of Hold's channels only. -/
theorem Dev.word_wakeChannels (d : Dev) {a : Nat} (h : a < 0x161000 ∨ 0x162000 ≤ a) : d.wakeChannels.word a = d.word a :=
  Dev.word_foldl _ (fun d c hc => by
    have := List.mem_range.1 hc
    split
    · refine d.word_set_ne _ _ _ ?_
      simp only [RegField.addrAt, Reg.hld_CH_STATE, List.zip_cons_cons, List.zip_nil_left, List.map_cons, List.map_nil, List.sum_cons,
        List.sum_nil]
      omega
    · rfl) d

/-- Word j of the command of an admission port. -/
theorem ldgCmd_addrAt (p j : Nat) : Reg.ldg_ADMIT_CMD.addrAt [p, j] = 0x30200 + 0x40 * p + 4 * j := by
  simp [RegField.addrAt, Reg.ldg_ADMIT_CMD, Nat.add_assoc]

theorem Dev.ldgPosted_onlyParts (d : Dev) (op p : Nat) (words : List Word) : onlyParts [.regs] d (d.ldgPosted op p words) :=
  onlyParts_foldl _ (fun d _ => d.setWord_onlyParts _ _) d

/-- A command written to a port changes the port's command words only. -/
theorem Dev.word_ldgPosted (d : Dev) (op : Nat) {p : Nat} (hp : p < 4) (words : List Word) {a : Nat}
    (h : a < 0x30200 ∨ 0x30300 ≤ a) : (d.ldgPosted op p words).word a = d.word a :=
  Dev.word_foldl _ (fun d j hj => by
    have := List.mem_range.1 hj
    exact d.word_setWord_ne (by rw [ldgCmd_addrAt]; omega) _) d

/-- A command written to a port has its opcode in the port's first word. -/
theorem Dev.ldgPosted_op (d : Dev) {op : Nat} (hop : op < 256) (p : Nat) (words : List Word) :
    wfld ((d.ldgPosted op p words).admitWords p) 0 31 24 = op := by
  have hw : wordAt ((d.ldgPosted op p words).admitWords p) 0 =
      Word.withFld (wordAt ((List.range 8).map fun j => wordAt words j) 0) 31 24 op := by
    change (d.ldgPosted op p words).word (Reg.ldg_ADMIT_CMD.addrAt [p, 0]) = _
    unfold Dev.ldgPosted
    rw [show List.range 8 = 0 :: [1, 2, 3, 4, 5, 6, 7] from rfl, List.foldl_cons, Dev.word_foldl, Dev.word_setWord]
    · rfl
    · intro d j hj
      refine d.word_setWord_ne ?_ _
      rw [ldgCmd_addrAt, ldgCmd_addrAt]
      have : j ≠ 0 := by rintro rfl; simp at hj
      omega
  unfold wfld
  rw [hw, fld_withFld _ _ (by decide) (by decide)]
  exact Nat.mod_eq_of_lt hop

/-- The device with an admission port BUSY. -/
def Dev.ldgBusy (d : Dev) (p : Nat) : Dev := { d with ldg := { d.ldg with busy := p :: d.ldg.busy } }

theorem Dev.ldgBusy_onlyParts (d : Dev) (p : Nat) : onlyParts [.ldg] d (d.ldgBusy p) := by
  intro q hq
  cases q
  case ldg => exact absurd List.mem_cons_self hq
  all_goals rfl

theorem Dev.ldgBusy_adms (d : Dev) (p : Nat) : (d.ldgBusy p).ldg.adms = d.ldg.adms := rfl

theorem Dev.word_ldgBusy (d : Dev) (p a : Nat) : (d.ldgBusy p).word a = d.word a := rfl

/-- The device once an admission port has taken a command: the command's words are on it, it is BUSY, Hold's channels are awake. -/
def Dev.ldgTaken (d : Dev) (op p : Nat) (words : List Word) : Dev := ((d.ldgPosted op p words).ldgBusy p).wakeChannels

/-- A port that takes a command changes the Ledger and registers only. -/
theorem Dev.ldgTaken_onlyParts (d : Dev) (op p : Nat) (words : List Word) : onlyParts [.regs, .ldg] d (d.ldgTaken op p words) :=
  ((d.ldgPosted_onlyParts op p words).mono (by decide)).trans <|
    ((Dev.ldgBusy_onlyParts _ p).mono (by decide)).trans ((Dev.wakeChannels_onlyParts _).mono (by decide))

theorem Dev.ldgPosted_ldg (d : Dev) (op p : Nat) (words : List Word) : (d.ldgPosted op p words).ldg = d.ldg :=
  d.ldgPosted_onlyParts op p words .ldg (by decide)

theorem Dev.wakeChannels_ldg (d : Dev) : d.wakeChannels.ldg = d.ldg := d.wakeChannels_onlyParts .ldg (by decide)

/-- A port that takes a command admits nothing yet. -/
theorem Dev.ldgTaken_adms (d : Dev) (op p : Nat) (words : List Word) : (d.ldgTaken op p words).ldg.adms = d.ldg.adms := by
  unfold Dev.ldgTaken
  rw [Dev.wakeChannels_ldg, Dev.ldgBusy_adms, Dev.ldgPosted_ldg]

/-- The words of a port, as the command taken finds them. -/
theorem Dev.ldgTaken_admitWords (d : Dev) (op : Nat) {p : Nat} (hp : p < 4) (words : List Word) :
    (d.ldgTaken op p words).admitWords p = (d.ldgPosted op p words).admitWords p := by
  refine List.map_congr_left fun j hj => ?_
  have := List.mem_range.1 hj
  unfold Dev.ldgTaken
  rw [Dev.word_wakeChannels _ (by rw [ldgCmd_addrAt]; omega), Dev.word_ldgBusy]

/-- A port that takes a command leaves every register but its words and those of Hold's channels. -/
theorem Dev.word_ldgTaken (d : Dev) (op : Nat) {p : Nat} (hp : p < 4) (words : List Word) {a : Nat}
    (h : a < 0x30200 ∨ 0x30300 ≤ a) (hw : a < 0x161000 ∨ 0x162000 ≤ a) : (d.ldgTaken op p words).word a = d.word a := by
  unfold Dev.ldgTaken
  rw [Dev.word_wakeChannels _ hw, Dev.word_ldgBusy, Dev.word_ldgPosted d op hp words h]

/-- GO of a port that is free and holds RESERVE_FWD, with ADMIT_EN and ANCHORED 1. -/
theorem Dev.ldgGo_reserve {d : Dev} {p : Nat} (hl : d.live ldgPage = true) (hp : p < 4) (hb : p ∉ d.ldg.busy)
    (he : (d.ldgBusy p).wakeChannels.flag Reg.ldg_ADMIT_EN = true) (ha : (d.ldgBusy p).wakeChannels.flag Reg.tkp_ANCHORED = true)
    (hop : wfld (d.admitWords p) 0 31 24 = 3) : d.ldgGo p = (d.ldgBusy p).wakeChannels.reserveFwd p (d.admitWords p) := by
  unfold Dev.ldgGo
  rw [if_neg (by simp [hl, hp]), if_neg (by simpa using hb)]
  change (if !(d.ldgBusy p).wakeChannels.flag Reg.ldg_ADMIT_EN || !(d.ldgBusy p).wakeChannels.flag Reg.tkp_ANCHORED then _ else _) = _
  rw [he, ha, if_neg (by decide), hop]
  rfl

/-- RESERVE_FWD given to a port that is free, with ADMIT_EN and ANCHORED 1, is evaluated once the port has taken it. -/
theorem Dev.ldgCmd_reserve {d : Dev} {p : Nat} (hp : p < 4) (words : List Word) (hl : d.live ldgPage = true)
    (hb : p ∉ d.ldg.busy) (he : d.flag Reg.ldg_ADMIT_EN = true) (ha : d.anchored = true) :
    d.ldgCmd 3 p words = (d.ldgTaken 3 p words).reserveFwd p ((d.ldgTaken 3 p words).admitWords p) := by
  have hvariant : (d.ldgPosted 3 p words).variant = d.variant := d.ldgPosted_onlyParts 3 p words .variant (by decide)
  have hlive : (d.ldgPosted 3 p words).live ldgPage = true := by
    rw [Dev.live_congr ldgPage hvariant (d.word_ldgPosted 3 hp words (by decide)) (d.word_ldgPosted 3 hp words (by decide)), hl]
  have hen : (d.ldgTaken 3 p words).flag Reg.ldg_ADMIT_EN = true := by
    rw [Dev.flag_congr _ _ (d.word_ldgTaken 3 hp words (by decide) (by decide)), he]
  have hanchored : (d.ldgTaken 3 p words).flag Reg.tkp_ANCHORED = true := by
    rw [Dev.flag_congr _ _ (d.word_ldgTaken 3 hp words (by decide) (by decide))]
    exact ha
  unfold Dev.ldgCmd
  rw [if_pos ⟨hl, hp⟩, d.ldgTaken_admitWords 3 hp words]
  exact Dev.ldgGo_reserve hlive hp (by rwa [d.ldgPosted_ldg]) hen hanchored (d.ldgPosted_op (by decide) p words)

/-! ### A reservation that may be made (R60, R76, R296) -/

/-- The device once a reservation has taken handle `h`. -/
def Dev.reserved (d : Dev) (w : List Word) (h : Nat) : Dev :=
  { d with
    free := d.free + 1
    ldg := { d.ldg with adms := d.ldg.adms ++
      [{ handle := h, tenant := wfld w 0 5 0, kind := .reserve (reserveOf w), start := d.tide, basin := none }] } }

/-- The launch interval of the fan list a reservation names. -/
def Dev.reservePi (d : Dev) (w : List Word) : Nat := ((d.fan? (reserveOf w).target).map (·.pi)).getD 1

/-- RESERVE_FWD does not answer REFUSED_TENANT: the fan list or the row in use is the tenant's own. -/
theorem ReserveFits.not_foreign {d : Dev} {w : List Word} (f : ReserveFits d w) :
    (if (reserveOf w).fan then ((d.fan? (reserveOf w).target).map (·.tenant)).any (· != wfld w 0 5 0)
      else decide ((reserveOf w).target < d.rowCount) && d.rowState (reserveOf w).target != stFree &&
        d.rowGet (reserveOf w).target RowF.TENANT != wfld w 0 5 0) = false := by
  have hmine := f.mine
  split
  · next hfan =>
    rw [if_pos hfan] at hmine
    cases hf : d.fan? (reserveOf w).target with
    | none => rfl
    | some x => simp [hmine x hf]
  · next hrow =>
    rw [if_neg hrow] at hmine
    by_cases hlt : (reserveOf w).target < d.rowCount
    · rcases hmine hlt with e | e <;> simp [e]
    · simp [hlt]

/-- A reservation that may be made takes a handle that nothing holds, a fan's a segment too, and its port's STATUS is DONE. -/
theorem Dev.reserveFwd_of_fits {d : Dev} {p : Nat} {w : List Word} (f : ReserveFits d w) :
    ∃ h, h < 65536 ∧ (∀ a ∈ d.ldg.adms, a.handle ≠ h) ∧
      d.reserveFwd p w = (if (reserveOf w).fan then (d.reserved w h).segmentNew (reserveOf w) (d.reservePi w) h
        else d.reserved w h).ldgResult p .done none none h := by
  have ⟨hunits, _, hgood, hpools, hwheel, hhandle⟩ := f
  obtain ⟨h, hnew, -, hlt, hfree⟩ := Dev.newHandle_of_room hhandle
  have hserve : ([0x7, 0x8, 0x9, 0xA].any fun k => (d.serving k).isEmpty) = false := by
    simpa using hunits.2
  have hshort : ((reserveOf w).fan && d.wheelShort (reserveOf w) (((d.fan? (reserveOf w).target).map (·.pi)).getD 1)) = false := by
    cases hfan : (reserveOf w).fan with
    | false => rfl
    | true => exact hwheel hfan
  refine ⟨h, hlt, hfree, ?_⟩
  unfold Dev.reserveFwd
  dsimp only
  rw [hunits.1, hserve, f.not_foreign, hgood, hpools]
  simp only [Bool.not_true, Bool.or_false, Bool.false_eq_true, if_false]
  rw [hshort, if_neg (by decide), hnew]
  rfl

/-- What a reservation that may be made leaves: its admission, and of a fan its segment on the lowest free lanes. -/
theorem Dev.reserveFwd_result {d : Dev} {p : Nat} {w : List Word} (f : ReserveFits d w) :
    ∃ h, (∀ a ∈ d.ldg.adms, a.handle ≠ h) ∧
      (d.reserveFwd p w).get Reg.ldg_ADMIT_STATUS [p] = Status.done.code ∧
      (d.reserveFwd p w).get Reg.ldg_ADMIT_HANDLE [p] = h ∧
      (d.reserveFwd p w).ldg.adms = d.ldg.adms ++
        [{ handle := h, tenant := wfld w 0 5 0, kind := .reserve (reserveOf w), start := d.tide, basin := none }] ∧
      ((reserveOf w).fan = false → (d.reserveFwd p w).fry = d.fry) ∧
      ((reserveOf w).fan = true → ∃ g, (d.reserveFwd p w).fry.segs = d.fry.segs ++ [g] ∧ g.fan = (reserveOf w).target ∧
        g.lport = (reserveOf w).lport ∧ g.handle = h ∧
        g.lanes = (d.lanesFree (reserveOf w).lport).take (d.wheelN (reserveOf w) g.pi)) := by
  obtain ⟨h, hlt, hfree, heq⟩ := Dev.reserveFwd_of_fits (p := p) f
  refine ⟨h, hfree, ?_, ?_, ?_, fun hfan => ?_, fun hfan => ?_⟩ <;> rw [heq]
  · exact Dev.ldgResult_status ..
  · exact Dev.ldgResult_handle _ _ _ _ _ hlt _ _
  · rw [Dev.ldgResult_ldg]
    split <;> rfl
  · rw [Dev.ldgResult_fry, hfan]
    rfl
  · rw [Dev.ldgResult_fry, hfan]
    exact ⟨_, rfl, rfl, rfl, rfl, rfl⟩

/-! ### Withdrawals (R65, R91) -/

theorem Dev.ldgWithdraw_of_held {d : Dev} {h : Nat} (hl : d.live ldgPage = true) (hh : ∃ a ∈ d.ldg.adms, a.handle = h) :
    d.ldgWithdraw h = { d with ldg := { d.ldg with adms := d.ldg.adms.map fun (a : Admission) =>
      if a.handle = h then { a with ending := true, withdrawn := true } else a } }.set Reg.ldg_WITHDRAW_BUSY 1 := by
  unfold Dev.ldgWithdraw
  rw [if_neg (by simp [hl]), if_pos (by simpa using hh)]

theorem Dev.ldgWithdraw_of_not_held {d : Dev} {h : Nat} (hl : d.live ldgPage = true) (hh : ¬ ∃ a ∈ d.ldg.adms, a.handle = h) :
    d.ldgWithdraw h = d.set Reg.ldg_WITHDRAW_STATUS Status.refusedParam.code := by
  unfold Dev.ldgWithdraw
  rw [if_neg (by simp [hl]), if_neg (by simpa using hh)]

end Sys2Proof.Machine

namespace Sys2Proof

open Machine

/-! ### The three commands -/

theorem reserveFwd_completes {s : State} {p : Nat} {words : List Word} {post : Dev → Dev → Prop} (hl : s.dev.live ldgPage = true)
    (hp : p < 4) (hw : words8Ok words = true) (h : post s.dev (s.dev.ldgCmd 3 p words)) :
    Completes (.reserveFwd p words) s post :=
  completes_of_act rfl (by simp [port4Ok, hp, hw]) (by rwa [Dev.written_of_live hl])

theorem withdraw_completes {s : State} {handle : Nat} {post : Dev → Dev → Prop} (hl : s.dev.live ldgPage = true)
    (hh : handleOk handle = true) (h : post s.dev (s.dev.ldgWithdraw handle)) : Completes (.withdraw handle) s post :=
  completes_of_act rfl hh (by rwa [Dev.written_of_live hl])

theorem query_completes {s : State} {w : Word} {post : Dev → Dev → Prop} (hl : s.dev.live ldgPage = true)
    (h : post s.dev (s.dev.ldgQuery w.toNat)) : Completes (.query w) s post :=
  completes_of_act (ok := true) rfl rfl (by rwa [Dev.written_of_live hl])

/-- The two outcomes of LDG_WITHDRAW (R91), with what each leaves alone. -/
theorem ldgWithdraw_effect {d : Dev} (h : Nat) (hl : d.live ldgPage = true) :
    onlyParts [.regs, .ldg] d (d.ldgWithdraw h) ∧
      if ∃ a ∈ d.ldg.adms, a.handle = h then
        (d.ldgWithdraw h).get Reg.ldg_WITHDRAW_BUSY = 1 ∧ onlyWords [Reg.ldg_WITHDRAW_BUSY.addr] d (d.ldgWithdraw h) ∧
          (d.ldgWithdraw h).ldg.adms =
            d.ldg.adms.map fun a => if a.handle = h then { a with ending := true, withdrawn := true } else a
      else (d.ldgWithdraw h).get Reg.ldg_WITHDRAW_STATUS = Status.refusedParam.code ∧ (d.ldgWithdraw h).ldg = d.ldg := by
  have hset := fun (e : Dev) (r : RegField) v => (e.set_onlyParts r v []).mono (qs := [.regs, .ldg]) (by decide)
  by_cases hh : ∃ a ∈ d.ldg.adms, a.handle = h
  · rw [if_pos hh, Dev.ldgWithdraw_of_held hl hh]
    refine ⟨onlyParts.trans ?_ (hset _ _ _), Dev.get_set _ _ _ _ (by decide) (by decide), ?_, congrArg Ledger.adms (Dev.set_ldg ..)⟩
    · intro q hq
      cases q
      case ldg => exact absurd (by decide) hq
      all_goals rfl
    · exact fun a ha => Dev.set_onlyWords _ Reg.ldg_WITHDRAW_BUSY 1 [] a ha
  · rw [if_neg hh, Dev.ldgWithdraw_of_not_held hl hh]
    exact ⟨hset _ _ _, Dev.get_set _ _ _ _ (by decide) (by decide), Dev.set_ldg ..⟩

/-- The three fields of LDG_QUERY share one register (R92): each keeps its value while the next is written. -/
theorem ldgQuery_effect {d : Dev} (w : Word) (hl : d.live ldgPage = true) :
    onlyParts [.regs] d (d.ldgQuery w.toNat) ∧ onlyWords [Reg.ldg_QUERY_KIND.addr] d (d.ldgQuery w.toNat) ∧
      (d.ldgQuery w.toNat).get Reg.ldg_QUERY_KIND = w.toNat / 2 ^ 28 ∧
      (d.ldgQuery w.toNat).get Reg.ldg_QUERY_INDEX = w.toNat / 2 ^ 16 % 2 ^ 11 ∧
      (d.ldgQuery w.toNat).get Reg.ldg_QUERY_TIDE_OFS = w.toNat % 128 := by
  unfold Dev.ldgQuery
  rw [if_pos hl]
  refine ⟨(d.set_onlyParts _ _ _).trans ((Dev.set_onlyParts _ _ _ _).trans (Dev.set_onlyParts _ _ _ _)),
    (d.set_onlyWords Reg.ldg_QUERY_KIND _ []).trans
      ((Dev.set_onlyWords _ Reg.ldg_QUERY_INDEX _ []).trans (Dev.set_onlyWords _ Reg.ldg_QUERY_TIDE_OFS _ [])), ?_, ?_, ?_⟩
  · rw [Dev.get_set_off _ _ _ _ _ _ (by decide) (by decide) (by decide),
      Dev.get_set_off _ _ _ _ _ _ (by decide) (by decide) (by decide), Dev.get_set _ _ _ _ (by decide) (by decide)]
    have := w.isLt
    simp only [bits, Reg.ldg_QUERY_KIND]
    omega
  · rw [Dev.get_set_off _ _ _ _ _ _ (by decide) (by decide) (by decide), Dev.get_set _ _ _ _ (by decide) (by decide)]
    exact Nat.mod_mod _ _
  · rw [Dev.get_set _ _ _ _ (by decide) (by decide)]
    simp only [bits, Reg.ldg_QUERY_TIDE_OFS]
    omega

/-- Settles O17: a reservation that fits is made once its port has taken it, a withdrawal marks the admission that holds its handle,
a query writes its selector. -/
theorem ledgerCommands : Obligations.LedgerCommands := by
  intro s hl
  refine ⟨fun p words hp hw hb he ha fits => ?_, fun h hh => withdraw_completes hl hh (ldgWithdraw_effect h hl),
    fun w => query_completes hl (ldgQuery_effect w hl)⟩
  refine reserveFwd_completes hl hp hw ?_
  have hparts := s.dev.ldgTaken_onlyParts 3 p words
  have hadms := s.dev.ldgTaken_adms 3 p words
  have htide : (s.dev.ldgTaken 3 p words).tide = s.dev.tide := congrArg Tidekeeper.tide (hparts .tk (by decide))
  have hfry : (s.dev.ldgTaken 3 p words).fry = s.dev.fry := hparts .fry (by decide)
  have hresult := Dev.reserveFwd_result (d := s.dev.ldgTaken 3 p words) (p := p) (w := (s.dev.ldgTaken 3 p words).admitWords p) fits
  rw [hadms, htide, hfry, ← Dev.ldgCmd_reserve hp words hl hb he ha] at hresult
  exact hresult

end Sys2Proof
end

section
/-!
PROOF. The MAC instructions of a Reckoner core (R384, R386): what an accumulator holds after a write, what a result put into one
under SAT says in sr, and the device after an instruction that leaves loads in flight.
-/

namespace Sys2Proof.Machine

/-! ### 40 bits in two's complement (R384) -/

theorem ofSigned_lt (v : Int) : ofSigned 40 v < 2 ^ 40 := by
  unfold ofSigned
  omega

theorem toSigned_ofSigned (v : Int) : toSigned 40 (ofSigned 40 v) = v.bmod (2 ^ 40) := by
  unfold toSigned ofSigned Int.bmod
  dsimp only
  omega

theorem bmod40_eq_self_iff (v : Int) : v.bmod (2 ^ 40) = v ↔ -549755813888 ≤ v ∧ v < 549755813888 := by
  unfold Int.bmod
  dsimp only
  omega

theorem clampI_eq_max_min {lo hi : Int} (v : Int) (h : lo ≤ hi) : clampI lo hi v = max lo (min hi v) := by
  unfold clampI
  split
  · omega
  · split <;> omega

/-- A guard part holds its low byte (R378). -/
theorem toNat_guardPart_mod (v : Half) : (guardPart v).toNat % 256 = v.toNat % 256 := by
  have h : (guardPart v).setWidth 8 = v.setWidth 8 := by
    apply BitVec.eq_of_getLsbD_eq
    intro i hi
    rw [guardPart, BitVec.getLsbD_setWidth, BitVec.getLsbD_signExtend]
    simp [hi, Nat.lt_trans hi (by decide : 8 < 16)]
  simpa [BitVec.toNat_setWidth] using congrArg BitVec.toNat h

/-! ### What only registers change -/

/-- Two cores differ in their registers at most. -/
def RkCore.sameButRegs (c x : RkCore) : Prop := { x with regs := c.regs } = c

theorem RkCore.sameButRegs.trans {c x y : RkCore} (h : c.sameButRegs x) (g : x.sameButRegs y) : c.sameButRegs y := by
  unfold RkCore.sameButRegs at *
  rw [← h, ← g]

theorem RkCore.sameButRegs.fields {c x : RkCore} (h : c.sameButRegs x) :
    x.num = c.num ∧ x.pc = c.pc ∧ x.ram = c.ram ∧ x.request = c.request ∧ x.loads = c.loads := by
  unfold RkCore.sameButRegs at h
  rw [← h]
  exact ⟨rfl, rfl, rfl, rfl, rfl⟩

theorem RkCore.set_sameButRegs (c : RkCore) (n : Nat) (v : Half) : c.sameButRegs (c.set n v) := rfl

theorem RkCore.setSr_sameButRegs (c : RkCore) (i : Nat) (b : Bool) : c.sameButRegs (c.setSr i b) := c.set_sameButRegs ..

theorem RkCore.setAcc_sameButRegs (c : RkCore) (i : Bool) (v : Int) : c.sameButRegs (c.setAcc i v) :=
  (c.set_sameButRegs ..).trans ((RkCore.set_sameButRegs ..).trans (RkCore.set_sameButRegs ..))

theorem RkCore.accPut_sameButRegs (c : RkCore) (i : Bool) (v : Int) (sat : Bool) : c.sameButRegs (c.accPut i v sat) := by
  unfold RkCore.accPut
  split
  all_goals
    dsimp only
    split
    · exact c.setAcc_sameButRegs ..
    · exact (c.setAcc_sameButRegs ..).trans (RkCore.setSr_sameButRegs ..)

/-! ### Accumulators -/

/-- An accumulator depends on its three parts alone. -/
theorem RkCore.acc_congr {c x : RkCore} (i : Bool) (h : ∀ q ∈ accParts i, x.get q = c.get q) : x.acc i = c.acc i := by
  cases i
  all_goals
    simp only [accParts, Bool.false_eq_true, if_false, if_true, List.forall_mem_cons] at h
    obtain ⟨h0, h1, h2, -⟩ := h
    simp [RkCore.acc, bitOf, h0, h1, h2]

/-- Registers outside its three parts keep their values when an accumulator is set. -/
theorem RkCore.get_setAcc_ne (c : RkCore) (i : Bool) (v : Int) {q : Nat} (h : q ∉ accParts i) : (c.setAcc i v).get q = c.get q := by
  have hq : q ≠ 32 + 3 * bitOf i ∧ q ≠ 32 + 3 * bitOf i + 1 ∧ q ≠ 32 + 3 * bitOf i + 2 := by
    cases i <;> simpa [accParts, bitOf] using h
  obtain ⟨h0, h1, h2⟩ := hq
  unfold RkCore.setAcc
  rw [RkCore.get_set_ne _ _ h2, RkCore.get_set_ne _ _ h1, RkCore.get_set_ne _ _ h0]

/-- An accumulator just set holds the number modulo 2⁴⁰. -/
theorem RkCore.acc_setAcc (c : RkCore) (i : Bool) (v : Int) : (c.setAcc i v).acc i = v.bmod (2 ^ 40) := by
  have hb : 32 + 3 * bitOf i = 32 ∨ 32 + 3 * bitOf i = 35 := by cases i <;> simp [bitOf]
  have hn := ofSigned_lt v
  unfold RkCore.acc RkCore.setAcc
  dsimp only
  generalize 32 + 3 * bitOf i = b at hb
  rw [RkCore.get_set_ne _ _ (by omega), RkCore.get_set_ne _ _ (by omega), RkCore.get_set_same _ _ (by omega),
    RkCore.get_set_ne _ _ (by omega), RkCore.get_set_same _ _ (by omega), RkCore.get_set_same _ _ (by omega),
    rkTakes_plain _ (by omega), rkTakes_plain _ (by omega), rkTakes, if_pos (by omega), toNat_guardPart_mod]
  simp only [BitVec.toNat_ofNat]
  rw [← toSigned_ofSigned]
  congr 1
  omega

/-- sr and the other accumulator are none of an accumulator's parts. -/
theorem accParts_disjoint (i : Bool) : 38 ∉ accParts i ∧ ∀ q ∈ accParts (!i), q ∉ accParts i ∧ q ≠ 38 := by
  cases i <;> decide

/-! ### A result put into an accumulator (R384) -/

/-- The number an accumulator holds once a result is put into it. -/
def accFinal (v : Int) (sat : Bool) : Int := if sat then max (-2147483648) (min 2147483647 v) else v.bmod (2 ^ 40)

theorem accFinal_bmod (v : Int) (sat : Bool) : (accFinal v sat).bmod (2 ^ 40) = accFinal v sat := by
  cases sat with
  | false => exact Int.bmod_bmod
  | true =>
    refine (bmod40_eq_self_iff _).2 ?_
    show -549755813888 ≤ max (-2147483648) (min 2147483647 v) ∧ max (-2147483648) (min 2147483647 v) < 549755813888
    omega

theorem RkCore.setAcc_bmod (c : RkCore) (i : Bool) (v : Int) : c.setAcc i (v.bmod (2 ^ 40)) = c.setAcc i v := by
  have h : ofSigned 40 (v.bmod (2 ^ 40)) = ofSigned 40 v := congrArg Int.toNat Int.bmod_emod
  unfold RkCore.setAcc
  rw [h]

/-- A result is put into an accumulator, and one bit of sr is set if it did not fit: SV under SAT, AV without. -/
theorem RkCore.accPut_eq (c : RkCore) (i : Bool) (v : Int) (sat : Bool) :
    c.accPut i v sat =
      if accFinal v sat = v then c.setAcc i (accFinal v sat)
      else (c.setAcc i (accFinal v sat)).setSr (if sat then srSV else srAV) true := by
  cases sat with
  | true =>
    have h : clampI (-2147483648) 2147483647 v = accFinal v true := clampI_eq_max_min v (by decide)
    simp only [RkCore.accPut, h, if_true]
  | false =>
    have h : accFinal v false = v.bmod (2 ^ 40) := rfl
    simp only [RkCore.accPut, h, Bool.false_eq_true, if_false, RkCore.setAcc_bmod, bmod40_eq_self_iff]

theorem RkCore.get_accPut_ne (c : RkCore) (i : Bool) (v : Int) (sat : Bool) {q : Nat} (h : q ∉ accParts i) (h38 : q ≠ 38) :
    (c.accPut i v sat).get q = c.get q := by
  rw [RkCore.accPut_eq]
  split
  · exact c.get_setAcc_ne i _ h
  · rw [RkCore.get_setSr_ne _ _ _ h38, c.get_setAcc_ne i _ h]

theorem RkCore.acc_accPut (c : RkCore) (i : Bool) (v : Int) (sat : Bool) : (c.accPut i v sat).acc i = accFinal v sat := by
  have hset : (c.setAcc i (accFinal v sat)).acc i = accFinal v sat := (c.acc_setAcc i _).trans (accFinal_bmod v sat)
  rw [RkCore.accPut_eq]
  split
  · exact hset
  · refine (RkCore.acc_congr i fun q hq => RkCore.get_setSr_ne _ _ _ ?_).trans hset
    exact fun e => (accParts_disjoint i).1 (e ▸ hq)

/-- The bits of sr after a result is put into an accumulator. -/
theorem RkCore.srBit_accPut (c : RkCore) (i : Bool) (v : Int) (sat : Bool) (j : Nat) (h : srMask.getLsbD j = true) :
    (c.accPut i v sat).srBit j =
      (c.srBit j || (decide (accFinal v sat ≠ v) && decide (j = if sat then srSV else srAV))) := by
  have hset : (c.setAcc i (accFinal v sat)).srBit j = c.srBit j :=
    congrArg (BitVec.getLsbD · j) (c.get_setAcc_ne i _ (accParts_disjoint i).1)
  rw [RkCore.accPut_eq]
  split
  · next e => rw [hset, decide_eq_false (not_not_intro e), Bool.false_and, Bool.or_false]
  · next e =>
    rw [RkCore.srBit_setSr _ _ _ _ h, hset, decide_eq_true e, Bool.true_and]
    by_cases hj : j = if sat then srSV else srAV
    · rw [if_pos hj, decide_eq_true hj, Bool.or_true]
    · rw [if_neg hj, decide_eq_false hj, Bool.or_false]

/-! ### An instruction that leaves loads in flight (R388) -/

/-- Loads that all have a slot left after this instruction stay in flight, each with one slot less. -/
theorem RkCore.loadStep_flying (c : RkCore) (h : ∀ l ∈ c.loads, 1 < l.left) :
    c.loadStep = { c with loads := c.loads.map fun l => { l with left := l.left - 1 } } := by
  have hleft : ∀ l ∈ c.loads.map (fun l : RkLoad => { l with left := l.left - 1 }), l.left ≠ 0 := by
    intro l hl
    obtain ⟨m, hm, rfl⟩ := List.mem_map.1 hl
    have := h m hm
    show m.left - 1 ≠ 0
    omega
  have hdue : (c.loads.map fun l : RkLoad => { l with left := l.left - 1 }).filter (fun l => l.left == 0) = [] :=
    List.filter_eq_nil_iff.2 fun l hl => by simpa using hleft l hl
  have hstay : (c.loads.map fun l : RkLoad => { l with left := l.left - 1 }).filter (fun l => l.left != 0) =
      c.loads.map fun l : RkLoad => { l with left := l.left - 1 } :=
    List.filter_eq_self.2 fun l hl => by simpa using hleft l hl
  unfold RkCore.loadStep
  dsimp only
  rw [hdue, hstay]
  rfl

/-- A calm core goes on to the next index after an instruction that goes nowhere of its own. -/
theorem RkCore.advance_calm (c x : RkCore) (h : c.calm) (hp : x.pc = c.pc) :
    c.advance x none = { x with pc := rkIndex (c.pc + 1) } := by
  obtain ⟨hb, -, -, h0, h1⟩ := h
  have quiet (l : Nat) (hl : c.srBit (srLA l) = false) (y : RkCore) : c.loopTest y l = (y, none) := by
    unfold RkCore.loopTest RkCore.loopHit
    rw [hl]
    rfl
  unfold RkCore.advance
  simp only [quiet 1 h1, quiet 0 h0, hb, hp, Option.isSome_none, Bool.false_eq_true, if_false]

@[simp] theorem RkCore.tick_regs (c : RkCore) : c.tick.regs = c.regs := by unfold RkCore.tick; split <;> rfl
@[simp] theorem RkCore.tick_loads (c : RkCore) : c.tick.loads = c.loads := by unfold RkCore.tick; split <;> rfl
@[simp] theorem RkCore.tick_request (c : RkCore) : c.tick.request = c.request := by unfold RkCore.tick; split <;> rfl

/-- The device after an instruction that a ready core completes with loads in flight: one core is replaced, and that core is as
the instruction left it but for its pc, its cycles and the slots of its loads. -/
theorem Dev.issue_flying {d : Dev} {n : Nat} {f : RkCore → RkStep} {x : RkCore} (h : d.ready n) (hf : f (d.core n) = .next x)
    (hn : x.num = n) (hp : x.pc = (d.core n).pc) (hl : ∀ l ∈ x.loads, 1 < l.left) (hr : x.request = none) :
    let e := d.issue n f
    onlyCore n d e ∧ (e.core n).pc = ((d.core n).pc + 1) % 8192 ∧ (e.core n).ram = x.ram ∧ (e.core n).regs = x.regs ∧
      (e.core n).loads = x.loads.map fun l => { l with left := l.left - 1 } := by
  obtain ⟨-, hx, hc⟩ := h
  let w : RkCore := { x with pc := rkIndex ((d.core n).pc + 1), loads := x.loads.map fun l => { l with left := l.left - 1 } }
  have hw : (d.core n).complete x none = w.tick := by
    unfold RkCore.complete
    rw [RkCore.advance_calm _ x hc hp, RkCore.loadStep_flying { x with pc := rkIndex ((d.core n).pc + 1) } hl]
  have hclosed : w.tick.open_ = false := by
    have : w.tick.request = none := w.tick_request.trans hr
    unfold RkCore.open_
    rw [this]
    simp
  have hissue : d.issue n f = d.setCore w.tick := by
    unfold Dev.issue
    rw [if_pos hx, hf]
    unfold Dev.issued
    simp only [hw, hclosed, Bool.false_and, Bool.false_eq_true, if_false]
  have hnum : w.tick.num = n := w.tick_num.trans hn
  have hcore : (d.setCore w.tick).core n = w.tick := hnum ▸ d.core_setCore w.tick
  dsimp only
  rw [hissue, hcore]
  exact ⟨hnum ▸ d.onlyCore_setCore w.tick, w.tick_pc, w.tick_ram, w.tick_regs, w.tick_loads⟩

/-! ### A MAC instruction with its parallel load (R384, R386) -/

/-- The core that a MAC instruction leaves: its result put, its address register post-modified, its load issued. -/
def RkCore.macDone (c : RkCore) (acc : Bool) (v : Int) (sat : Bool) (par : Option RkPar) (rd : Half → Half) : RkCore :=
  match par with
  | none => c.accPut acc v sat
  | some p =>
    let base := c.get (16 + p.pa.toNat)
    ((c.accPut acc v sat).set (16 + p.pa.toNat) (base + c.get (24 + p.pm.toNat))).load p.prd.toNat (rd base)

/-- No address or modifier register is part of an accumulator or sr. -/
theorem not_accPart_of_lt {q : Nat} (h : q < 32) (acc : Bool) : q ∉ accParts acc ∧ q ≠ 38 := by
  refine ⟨fun hq => ?_, by omega⟩
  cases acc <;> simp [accParts] at hq <;> omega

/-- A parallel load's address register stands below its modifier register, and both below the accumulators (R378). -/
theorem areg_lt (p : RkPar) : 16 + p.pa.toNat < 24 := Nat.add_lt_add_left p.pa.isLt 16
theorem mreg_lt (p : RkPar) : 24 + p.pm.toNat < 32 := Nat.add_lt_add_left p.pm.isLt 24

theorem RkCore.mac_eq (c : RkCore) (acc : Bool) (v : Int) (sat : Bool) (par : Option RkPar) (rd : Half → Half)
    (h : ∀ p, par = some p → (c.get (16 + p.pa.toNat)).getLsbD 0 = false) :
    c.mac acc v sat par rd = .next (c.macDone acc v sat par rd) := by
  cases par with
  | none => rfl
  | some p =>
    have keep {q : Nat} (hq : q < 32) : (c.accPut acc v sat).get q = c.get q :=
      c.get_accPut_ne acc v sat (not_accPart_of_lt hq acc).1 (not_accPart_of_lt hq acc).2
    have ha : (c.accPut acc v sat).get (rA p.pa.toNat) = c.get (16 + p.pa.toNat) := keep (Nat.lt_trans (areg_lt p) (by decide))
    have hm : (c.accPut acc v sat).get (rM p.pm.toNat) = c.get (24 + p.pm.toNat) := keep (mreg_lt p)
    unfold RkCore.mac RkCore.address RkCore.loadFrom
    simp only [ha, hm, h p rfl, if_true, Bool.false_eq_true, if_false]
    rfl

/-- A MAC instruction leaves everything of its core but registers and loads. -/
theorem RkCore.macDone_frame (c : RkCore) (acc : Bool) (v : Int) (sat : Bool) (par : Option RkPar) (rd : Half → Half) :
    let x := c.macDone acc v sat par rd
    x.num = c.num ∧ x.pc = c.pc ∧ x.ram = c.ram ∧ x.request = c.request := by
  obtain ⟨hnum, hpc, hram, hreq, -⟩ := (c.accPut_sameButRegs acc v sat).fields
  cases par
  all_goals exact ⟨hnum, hpc, hram, hreq⟩

/-- A parallel load is the only one in flight after a MAC instruction on a core that had none. -/
theorem RkCore.macDone_loads {c : RkCore} (hc : c.loads = []) (acc : Bool) (v : Int) (sat : Bool) (par : Option RkPar)
    (rd : Half → Half) :
    (c.macDone acc v sat par rd).loads =
      par.toList.map fun p => ⟨p.prd.toNat, rd (c.get (16 + p.pa.toNat)), 3⟩ := by
  obtain ⟨-, -, -, -, hloads⟩ := (c.accPut_sameButRegs acc v sat).fields
  have h := hloads.trans hc
  cases par with
  | none => exact h
  | some p => exact congrArg (· ++ _) h

/-- A MAC instruction's registers are those that the result leaves, but for the address register of its parallel load. -/
theorem RkCore.get_macDone_ne (c : RkCore) (acc : Bool) (v : Int) (sat : Bool) (par : Option RkPar) (rd : Half → Half) {q : Nat}
    (hq : ∀ p, par = some p → q ≠ 16 + p.pa.toNat) : (c.macDone acc v sat par rd).get q = (c.accPut acc v sat).get q := by
  cases par with
  | none => rfl
  | some p => exact RkCore.get_set_ne _ _ (hq p rfl)

/-- The address register of a parallel load is post-modified (R386). -/
theorem RkCore.get_macDone_areg (c : RkCore) (acc : Bool) (v : Int) (sat : Bool) (p : RkPar) (rd : Half → Half) :
    (c.macDone acc v sat (some p) rd).get (16 + p.pa.toNat) = c.get (16 + p.pa.toNat) + c.get (24 + p.pm.toNat) := by
  have h := areg_lt p
  exact (RkCore.get_set_same _ _ (by omega)).trans (rkTakes_plain _ (by omega))

/-- What a MAC instruction whose exact result is `v` does to a device, `e` after it (R384, R386). -/
structure MacDone (n : Nat) (acc : Bool) (v : Int) (sat : Bool) (par : Option RkPar) (d e : Dev) : Prop where
  keeps : keepsCore n (fun q => q ∈ accParts acc ∨ q = 38 ∨ ∃ p, par = some p ∧ q = 16 + p.pa.toNat) d e
  acc_eq : (e.core n).acc acc = accFinal v sat
  other : (e.core n).acc (!acc) = (d.core n).acc (!acc)
  srBit : ∀ j, srMask.getLsbD j = true → (e.core n).srBit j =
    ((d.core n).srBit j || (decide (accFinal v sat ≠ v) && decide (j = if sat then srSV else srAV)))
  loads : (e.core n).loads = par.toList.map fun p => ⟨p.prd.toNat, d.coreRead (d.core n) ((d.core n).get (16 + p.pa.toNat)), 2⟩
  areg : ∀ p, par = some p →
    (e.core n).get (16 + p.pa.toNat) = (d.core n).get (16 + p.pa.toNat) + (d.core n).get (24 + p.pm.toNat)

/-- An instruction that puts a result and loads as a MAC does, on a ready core whose parallel load is aligned. -/
theorem Dev.issueMem_mac {d : Dev} {n : Nat} {acc : Bool} {v : Int} {sat : Bool} {par : Option RkPar}
    {f : (Half → Half) → RkCore → RkStep} (h : d.ready n)
    (hp : ∀ p, par = some p → ((d.core n).get (16 + p.pa.toNat)).getLsbD 0 = false)
    (hf : ∀ rd, f rd (d.core n) = (d.core n).mac acc v sat par rd) : MacDone n acc v sat par d (d.issueMem n f) := by
  let c := d.core n
  let x := c.macDone acc v sat par (d.coreRead c)
  have hx : f (d.coreRead c) c = .next x := (hf _).trans (c.mac_eq acc v sat par _ hp)
  obtain ⟨-, hidle, hreq, -, -⟩ := h.2.2
  obtain ⟨xnum, xpc, xram, xreq⟩ := c.macDone_frame acc v sat par (d.coreRead c)
  have xloads := RkCore.macDone_loads hidle acc v sat par (d.coreRead c)
  have xleft : ∀ l ∈ x.loads, 1 < l.left := by
    rw [xloads]
    intro l hl
    obtain ⟨p, -, rfl⟩ := List.mem_map.1 hl
    exact (by decide : 1 < 3)
  have hdone := Dev.issue_flying h hx (xnum.trans (d.core_num n)) xpc xleft (xreq.trans hreq)
  unfold Dev.issueMem
  generalize d.issue n (f (d.coreRead (d.core n))) = e at hdone ⊢
  obtain ⟨honly, hpc, hram, hregs, hloads⟩ := hdone
  have get_e {q : Nat} (hq : q < 52) : (e.core n).get q = x.get q := RkCore.get_congr hregs hq
  have get_put {q : Nat} (hq : 32 ≤ q) (hq' : q < 52) : (e.core n).get q = (c.accPut acc v sat).get q :=
    (get_e hq').trans (c.get_macDone_ne acc v sat par _ fun p _ => by have := areg_lt p; omega)
  have parts_range (i : Bool) : ∀ q ∈ accParts i, 32 ≤ q ∧ q < 52 := by cases i <;> decide
  have acc_e (i : Bool) : (e.core n).acc i = (c.accPut acc v sat).acc i :=
    RkCore.acc_congr i fun q hq => get_put (parts_range i q hq).1 (parts_range i q hq).2
  exact {
    keeps := by
      refine ⟨honly, hpc, hram.trans xram, fun q hq hne => ?_⟩
      obtain ⟨hacc, hsr, hareg⟩ := not_or.1 hne |>.imp_right not_or.1
      rw [get_e hq, c.get_macDone_ne acc v sat par _ fun p hpar eq => hareg ⟨p, hpar, eq⟩]
      exact c.get_accPut_ne acc v sat hacc hsr
    acc_eq := (acc_e acc).trans (c.acc_accPut acc v sat)
    other := (acc_e !acc).trans <| RkCore.acc_congr _ fun q hq =>
      have hd := (accParts_disjoint acc).2 q hq
      c.get_accPut_ne acc v sat hd.1 hd.2
    srBit := fun j hj => by
      rw [← c.srBit_accPut acc v sat j hj]
      exact congrArg (BitVec.getLsbD · j) (get_put (q := 38) (by decide) (by decide))
    loads := by
      rw [hloads, xloads, List.map_map]
      rfl
    areg := fun p hpar => by
      subst hpar
      exact (get_e (by have := areg_lt p; omega)).trans (c.get_macDone_areg acc v sat p _) }

/-- Bits of sr that MAC instructions do not write stand as they were. -/
theorem MacDone.sr_kept {n : Nat} {acc : Bool} {v : Int} {sat : Bool} {par : Option RkPar} {d e : Dev}
    (h : MacDone n acc v sat par d e) : (e.core n).get 38 &&& 0x130F = (d.core n).get 38 &&& 0x130F := by
  apply BitVec.eq_of_getLsbD_eq
  intro j hj
  rw [BitVec.getLsbD_and, BitVec.getLsbD_and]
  by_cases hm : (0x130F : Half).getLsbD j = true
  · have hbits : ∀ k, k < 16 → (0x130F : Half).getLsbD k = true → srMask.getLsbD k = true ∧ k ≠ srSV ∧ k ≠ srAV := by decide
    obtain ⟨hmask, hsv, hav⟩ := hbits j hj hm
    have hflag : j ≠ if sat then srSV else srAV := by split <;> assumption
    have := h.srBit j hmask
    rw [decide_eq_false hflag, Bool.and_false, Bool.or_false] at this
    exact congrArg (· && _) this
  · rw [Bool.eq_false_iff.2 hm, Bool.and_false, Bool.and_false]

end Sys2Proof.Machine

namespace Sys2Proof

open Machine

/-- Settles O2: the three instructions put their exact results into the accumulator and load alike. -/
theorem reckonerMac : Obligations.ReckonerMac := by
  intro s n acc rs rt fract sat par h hp c product r hr
  have hissue : ∃ f, exec r.1 s = act (coreOk n) s (fun d => d.issueMem n f) ∧
      ∀ rd, f rd c = c.mac acc r.2 sat par rd := by
    simp only [List.mem_cons, List.not_mem_nil, or_false] at hr
    rcases hr with rfl | rfl | rfl
    · exact ⟨rkMulF acc rs rt fract sat par, rfl, fun _ => rfl⟩
    · exact ⟨rkMacF acc rs rt fract sat par, rfl, fun _ => rfl⟩
    · exact ⟨rkMsuF acc rs rt fract sat par, rfl, fun _ => rfl⟩
  obtain ⟨f, hexec, hf⟩ := hissue
  have m := Dev.issueMem_mac h hp hf
  have sv := m.srBit srSV (by decide)
  have av := m.srBit srAV (by decide)
  refine completes_of_act hexec h.1 ⟨m.keeps, m.acc_eq, m.other, ?_, ?_, m.sr_kept, ?_⟩
  · rw [sv]
    cases sat <;> simp [accFinal, srSV, srAV, c]
  · rw [av]
    cases sat <;> simp [accFinal, srSV, srAV, c]
  · cases par with
    | none => exact m.loads
    | some p => exact ⟨m.loads, m.areg p rfl⟩

end Sys2Proof
end
